-- ==== Sys2Proof/Word.lean ====
section
/-! DEFINITION. The word types of the model: a byte, and a string of bytes with the lowest offset first
(R350: multi-byte fields are little-endian, the lowest-numbered byte holding the least significant bits). -/

namespace Sys2Proof

/-- One byte of a payload, of a record or of memory. -/
abbrev Byte := BitVec 8

/-- A string of bytes, the byte of offset 0 first. -/
abbrev Bytes := List Byte

end Sys2Proof
end

