-- ==== Sys2Proof/Syntax.lean ====
section
/-! DEFINITION. The commands and events of the MH-6410 as syntax: one constructor of `Instr` per row of the opcode
table, with the row's operands. The first operand `dt` of every constructor is the time that passed since the
command before it, in sixths of a nanosecond (2 is one fabric cycle at 3.0 GHz, 3 one at 2.0 GHz). A Bilod command
carries its frame; an event carries what the outside world (a wire, a sensor, a partner, a check of a received
word) supplies. -/

namespace Sys2Proof

/-- A mailbox (Table MBX-2). -/
inductive Mbx where
  | reach (r : Nat)
  | admin
  | oob
  | tunnel
deriving DecidableEq, Repr

/-- A view of the Direct Register Page: the admin view over the SPI target, or BAR0 of a VCS (R343). -/
inductive View where
  | admin
  | vcs (v : Nat)
deriving DecidableEq, Repr

/-- A Bilod request frame without its opcode, and the mailbox it is in (Table MBX-8). The header's length is the
number of payload bytes. -/
structure Frame where
  mbx     : Mbx
  flags   : Nat := 0
  tag     : Nat := 0
  status  : Nat := 0
  sid     : Nat := 0
  payload : Bytes := []
deriving DecidableEq, Repr

/-- Where an FM API request comes from: the Switch Mailbox CCI of an upstream link, MCTP, or a FMAPI_REQUEST
frame (R292, R367). -/
inductive FmSrc where
  | cci (link : Nat)
  | mctp
  | bilod
deriving DecidableEq, Repr

/-- The actions of FM API Physical Port Control (Table CXLP-5). -/
inductive PortControl where
  | assertPerst
  | deassertPerst
  | resetLink
deriving DecidableEq, Repr

/-- The port that an SPDM request reaches (R383). -/
inductive SpdmPort where
  | doe (link : Nat)
  | mctp
deriving DecidableEq, Repr

/-- The SPDM requests of R383; `other` is every request code that R383 does not list. -/
inductive SpdmReq where
  | getVersion | getCapabilities | negotiateAlgorithms | getDigests | getCertificate | challenge
  | getMeasurements (index : Nat) | keyExchange | finish | keyUpdate | heartbeat | endSession | ideKm
  | other (code : Nat)
deriving DecidableEq, Repr

/-- The tamper events of R385. -/
inductive TamperCause where
  | pin | vcore | vstby | refclk | temperature
deriving DecidableEq, Repr

/-- What the boot ROM finds (Tables SEC-2 and PWR-5): `romOk`, its own integrity test; `failed`, bit i for a failed
test of row i + 1 of Table SEC-2. -/
structure BootResult where
  romOk  : Bool
  failed : Nat
deriving DecidableEq, Repr

/-- A fault message (Table FAULT-1), field by field. -/
structure FaultMsg where
  block  : Nat
  inst   : Nat
  kind   : Nat
  cls    : Nat
  reach  : Nat
  detail : Nat
  time   : Nat
  seq    : Nat
deriving DecidableEq, Repr

/-- What the table SRAM scrub finds in one entry (R429). -/
inductive TableScrub where
  | clean
  | corrected (bank rule : Nat)
  | fabricCore (table : Nat)
  | artUncorrectable (bank rule : Nat)
  | mpc (k : Nat)
deriving DecidableEq, Repr

/-- How a flash program, erase or read ended (R476, R498). -/
inductive FlashRes where
  | done
  | failed
deriving DecidableEq, Repr

/-- What a message asks of its target (Table ORDER-1): the access type of a checked request, or `none` for a message
that is not a checked request (coherence, control, completion). For an AtomicOp, the type (0 FetchAdd, 1 Swap,
2 CAS) and the operand bytes. -/
inductive Acc where
  | none | read | write | atomic (aop bytes : Nat) | flush | lockRead | unlock
deriving DecidableEq, Repr

/-- A message as the link and transaction layers of a CXL link present it: its cell kind (Table CELL-3), access,
address, byte count and data; for a response, the tracker index it answers; for CXL.cache, the CacheID or LD of
Table CXLP-3; for coherence messages, the reported MESI state; `macOk`, the IDE check of R303. -/
structure Arrival where
  link   : Nat
  kind   : Nat
  acc    : Acc := .none
  addr   : Nat := 0
  len    : Nat := 0
  data   : Bytes := []
  resp   : Option Nat := none
  ld     : Nat := 0
  cache  : Nat := 0
  coh    : Nat := 0
  status : Nat := 0
  be     : Nat := 0xFF
  poison : Bool := false
  macOk  : Bool := true
  tP     : Nat := 14
deriving DecidableEq, Repr

/-- One bank's answer to an ART lookup: the 384-bit entry and the ECC verdict (0 none, 1 correctable,
2 uncorrectable). -/
structure EntryRead where
  entry : Nat
  ecc   : Nat
deriving DecidableEq, Repr

/-- How a stage transfer arrived (R101, R104). -/
inductive XferCheck where
  | ok | corrected | failed | malformed
deriving DecidableEq, Repr

/-- A sequence space (R107). -/
inductive SeqSpace where
  | pinned | standard | bulk | datagram
deriving DecidableEq, Repr

/-- What the Dredger reads in a line (R145); the held cell, for a line of the overflow region. -/
inductive ScrubResult where
  | clean
  | corrected (rewritten : Bool)
  | uncorrectable (cell : Option Nat)
deriving DecidableEq, Repr

/-- A received flit (Table LINK-2): header, eight slots, CRC field, and the symbol errors that FEC finds in each of
the four codewords (R201). `stuff` lists the lanes on which the receiver removed a stuffed symbol of the wrong level (R260). -/
structure Flit where
  hdr   : BitVec 128
  slots : List Bytes
  crc   : BitVec 64
  errs  : List Nat
  stuff : List Nat := []
deriving DecidableEq, Repr

/-- Why an Iggevo link goes down (R219, R220). -/
inductive DownCause where
  | retrainTimeout | replayLimit | lossOfSignal | stateLost
deriving DecidableEq, Repr

/-- An alignment marker (Table LANE-6). -/
structure AMark where
  lane      : Nat
  flags     : Nat
  countdown : Nat
  rxMask    : Nat
  sub       : Nat
  rsvd      : Nat := 0
  checkOk   : Bool := true
deriving DecidableEq, Repr

/-- What training negotiated (R254): rate code, width, 256B flits, and what the partner is: device type, LDs present,
HDM-DB, CXL.cache, IDE support. -/
structure Trained where
  rate    : Nat
  width   : Nat
  flit256 : Bool
  devType : Nat
  lds     : Nat
  hdmdb   : Bool
  cacheDev : Bool
  ide     : Bool
  reversed : Bool
deriving DecidableEq, Repr

/-- The function that a configuration request names (R285, R286). -/
inductive CfgFn where
  | upstream | cci | vppb (k : Nat) | below (k : Nat)
deriving DecidableEq, Repr

/-- A command or event of the opcode table. -/
inductive Instr where
  /-- MODE_GET: Returns DEV_MODE and the target of any pending mode change. (R40) -/
  | modeGet (dt : Nat) (f : Frame)
  /-- MODE_SET: Requests a mode or Run profile change along the paths of Table MODE-6, checked under R30. (R26) -/
  | modeSet (dt : Nat) (f : Frame)
  /-- SERVICE_BEGIN: Starts one service operation on the instance named, checked under R523, and enters Service at the commit epoch. (R39) -/
  | serviceBegin (dt : Nat) (f : Frame)
  /-- SERVICE_END: Ends an image service window of operation 0x7. (R39) -/
  | serviceEnd (dt : Nat) (f : Frame)
  /-- CONTRACT_SET: Stages a policer contract for a Reach, class and link. (R58) -/
  | contractSet (dt : Nat) (f : Frame)
  /-- CONTRACT_GET: Returns the active or staged contract. (R72) -/
  | contractGet (dt : Nat) (f : Frame)
  /-- CONTRACT_CLEAR: Stages the removal of a contract and the release of its policer. (R73) -/
  | contractClear (dt : Nat) (f : Frame)
  /-- EXPEDITED_RESERVE: Stages an Expedited reservation of q cells per window at an egress and takes its cells provisionally. (R53) -/
  | expeditedReserve (dt : Nat) (f : Frame)
  /-- PROFILE_SET: Stages a refusal profile of a Reach. (R60) -/
  | profileSet (dt : Nat) (f : Frame)
  /-- PROFILE_GET: Returns a refusal profile. (R72) -/
  | profileGet (dt : Nat) (f : Frame)
  /-- PATH_RESERVE: Starts an all-or-nothing path reservation across up to four far hops. (R66) -/
  | pathReserve (dt : Nat) (f : Frame)
  /-- PATH_RELEASE: Frees a path reservation by sending PATH_FREE along the path. (R247) -/
  | pathRelease (dt : Nat) (f : Frame)
  /-- CALENDAR_GET: Returns the calendar figures and reservations of an egress. (R72) -/
  | calendarGet (dt : Nat) (f : Frame)
  /-- WEIR_STATUS_GET: Returns the Weir event counters of a tile and Reach. (R71) -/
  | weirStatusGet (dt : Nat) (f : Frame)
  /-- RULE_WRITE: Checks and stages one rule entry in the Reach's inactive rule set. (R79) -/
  | ruleWrite (dt : Nat) (f : Frame)
  /-- RULE_READ: Returns an active or staged rule entry. (R97) -/
  | ruleRead (dt : Nat) (f : Frame)
  /-- RULE_CLEAR: Stages the clearing of a range of rule entries. (R83) -/
  | ruleClear (dt : Nat) (f : Frame)
  /-- RULESET_STATUS_GET: Returns the active set, resynchronisation state and last flip time of a Reach. (R97) -/
  | rulesetStatusGet (dt : Nat) (f : Frame)
  /-- RULE_LOOKUP: Evaluates an address against the rules and optionally a gate, with no effect on traffic. (R97) -/
  | ruleLookup (dt : Nat) (f : Frame)
  /-- DEFAULT_MAP_SET: Checks and stages the Default Map of a Reach. (R90) -/
  | defaultMapSet (dt : Nat) (f : Frame)
  /-- DEFAULT_MAP_GET: Returns the active or staged Default Map. (R97) -/
  | defaultMapGet (dt : Nat) (f : Frame)
  /-- GATE_WINDOW_SET: Stages one port-gate window of a link. (R91) -/
  | gateWindowSet (dt : Nat) (f : Frame)
  /-- GATE_MODE_SET: Stages the gate setting of a link. (R91) -/
  | gateModeSet (dt : Nat) (f : Frame)
  /-- GATE_GET: Returns a gate window, the gate setting and whether the gate is in force. (R97) -/
  | gateGet (dt : Nat) (f : Frame)
  /-- FABRIC_STATUS_GET: Returns planes, clock, M, epoch parity and tiles in service. (R128) -/
  | fabricStatusGet (dt : Nat) (f : Frame)
  /-- MCAST_GROUP_SET: Stages a multicast group entry. (R115) -/
  | mcastGroupSet (dt : Nat) (f : Frame)
  /-- MCAST_GROUP_GET: Returns an active or staged multicast group entry. (R128) -/
  | mcastGroupGet (dt : Nat) (f : Frame)
  /-- REPLICATE_WRITE: Issues a privileged write replicated to every member of a replication group. (R129) -/
  | replicateWrite (dt : Nat) (f : Frame)
  /-- BASIN_LAYOUT_SET: Stages the Basin memory size of each stack. (R140) -/
  | basinLayoutSet (dt : Nat) (f : Frame)
  /-- BASIN_STATUS_GET: Returns stack states, layout, overflow share and scrub passes. (R150) -/
  | basinStatusGet (dt : Nat) (f : Frame)
  /-- BASIN_MEMORY_BIND: Stages the bind or unbind of one GiB of Basin memory. (R142) -/
  | basinMemoryBind (dt : Nat) (f : Frame)
  /-- BASIN_MEMORY_GET: Returns the owner of each GiB of Basin memory. (R150) -/
  | basinMemoryGet (dt : Nat) (f : Frame)
  /-- BASIN_FILL: Writes a pattern over Basin memory in bursts checked as privileged writes. (R143) -/
  | basinFill (dt : Nat) (f : Frame)
  /-- QUEUE_THRESHOLD_SET: Stages the threshold and hold limit of an egress queue. (R132) -/
  | queueThresholdSet (dt : Nat) (f : Frame)
  /-- QUEUE_STATUS_GET: Returns the state, thresholds and occupancy of an egress queue. (R150) -/
  | queueStatusGet (dt : Nat) (f : Frame)
  /-- BUFFER_STATUS_GET: Returns central cell buffer use for a tile. (R150) -/
  | bufferStatusGet (dt : Nat) (f : Frame)
  /-- SCHED_WEIGHT_SET: Stages the weights of Q3 to Q7 of an egress link. (R159) -/
  | schedWeightSet (dt : Nat) (f : Frame)
  /-- SHAPER_SET: Stages a shaper rate and burst of an egress link. (R163) -/
  | shaperSet (dt : Nat) (f : Frame)
  /-- SCHED_GET: Returns the weights and shaper settings of a link. (R166) -/
  | schedGet (dt : Nat) (f : Frame)
  /-- SCHED_STATUS_GET: Returns queue occupancy, shaper tokens and the override count of a link. (R166) -/
  | schedStatusGet (dt : Nat) (f : Frame)
  /-- FABRIC_FLUSH: Starts a Fabric Flush on a link, a Reach or the device. (R182) -/
  | fabricFlush (dt : Nat) (f : Frame)
  /-- ALIAS_WINDOW_SET: Stages a reservation alias window. (R186) -/
  | aliasWindowSet (dt : Nat) (f : Frame)
  /-- ALIAS_WINDOW_GET: Returns an alias window entry. (R193) -/
  | aliasWindowGet (dt : Nat) (f : Frame)
  /-- RESV_GRANULE_SET: Stages the reservation granule of a Reach. (R187) -/
  | resvGranuleSet (dt : Nat) (f : Frame)
  /-- ORDER_STATUS_GET: Returns the queue lines, lost-write count and monitors of a link. (R193) -/
  | orderStatusGet (dt : Nat) (f : Frame)
  /-- RESV_STATUS_GET: Returns the monitor use and loss counts of a Reach. (R193) -/
  | resvStatusGet (dt : Nat) (f : Frame)
  /-- IGGEVO_DEVICE_SET: Stages the switch id of the device. (R228) -/
  | iggevoDeviceSet (dt : Nat) (f : Frame)
  /-- IGGEVO_LINK_SET: Stages replay limits and upstream permission of an Iggevo link. (R228) -/
  | iggevoLinkSet (dt : Nat) (f : Frame)
  /-- IGGEVO_LINK_STATUS_GET: Returns the state, masks, timing and credit use of an Iggevo link. (R228) -/
  | iggevoLinkStatusGet (dt : Nat) (f : Frame)
  /-- IGGEVO_LANE_WIDTH_SET: Starts a transmit lane change or requests one of the partner. (R214) -/
  | iggevoLaneWidthSet (dt : Nat) (f : Frame)
  /-- IGGEVO_RETRAIN: Commands a retrain of an Iggevo link. (R219) -/
  | iggevoRetrain (dt : Nat) (f : Frame)
  /-- TIME_STATUS_GET: Returns the time root, hops, upstream and timebase. (R228) -/
  | timeStatusGet (dt : Nat) (f : Frame)
  /-- BRIDGE_LINK_SET: Stages cut granule, timeouts and Reach map of an Iggevo link. (R249) -/
  | bridgeLinkSet (dt : Nat) (f : Frame)
  /-- BRIDGE_LINK_GET: Returns the bridge settings of an Iggevo link. (R249) -/
  | bridgeLinkGet (dt : Nat) (f : Frame)
  /-- LOCK_STATUS_GET: Returns the Lock-keeper entry of a Reach. (R249) -/
  | lockStatusGet (dt : Nat) (f : Frame)
  /-- LOCK_RELEASE: Forces the release of a Reach's far-path lock. (R246) -/
  | lockRelease (dt : Nat) (f : Frame)
  /-- BRIDGE_STATUS_GET: Returns open, orphaned and far entries and bridge counters. (R249) -/
  | bridgeStatusGet (dt : Nat) (f : Frame)
  /-- LANE_STATUS_GET: Returns the state, equalization and eye of a lane. (R276) -/
  | laneStatusGet (dt : Nat) (f : Frame)
  /-- LANE_CONFIG_SET: Stages rate, clocking, FFE and failing-lane limits of lanes. (R276) -/
  | laneConfigSet (dt : Nat) (f : Frame)
  /-- LANE_SPARE_SET: Commands a spare substitution or its end at the next retrain. (R269) -/
  | laneSpareSet (dt : Nat) (f : Frame)
  /-- LANE_EYE_SCAN: Starts a two-dimensional eye scan on the auxiliary slicer. (R273) -/
  | laneEyeScan (dt : Nat) (f : Frame)
  /-- LANE_EYE_GET: Returns the result of the last eye scan of a lane. (R276) -/
  | laneEyeGet (dt : Nat) (f : Frame)
  /-- LANE_TEST_SET: Sets a PRBS, pattern or loopback test function in Diagnostic. (R274) -/
  | laneTestSet (dt : Nat) (f : Frame)
  /-- LANE_TEST_GET: Returns checker lock and error counts of a tile. (R274) -/
  | laneTestGet (dt : Nat) (f : Frame)
  /-- LANE_CONFIG_GET: Returns the active or staged lane configuration. (R276) -/
  | laneConfigGet (dt : Nat) (f : Frame)
  /-- TILE_CONFIG_SET: Sets the configuration of a tile that is out of service. (R278) -/
  | tileConfigSet (dt : Nat) (f : Frame)
  /-- PORT_CONFIG_SET: Stages the role, manager attribute, IDE policy and timers of a link. (R279) -/
  | portConfigSet (dt : Nat) (f : Frame)
  /-- PORT_STATUS_GET: Returns the role, LTSSM state and slot state of a link. (R305) -/
  | portStatusGet (dt : Nat) (f : Frame)
  /-- HOTPLUG_REQUEST: Requests a managed removal or a hot-add of a slot. (R298) -/
  | hotplugRequest (dt : Nat) (f : Frame)
  /-- IDE_KEY_REFRESH: Starts a key refresh on a downstream IDE stream. (R302) -/
  | ideKeyRefresh (dt : Nat) (f : Frame)
  /-- IDE_STATUS_GET: Returns the IDE stream states and key set of a link. (R305) -/
  | ideStatusGet (dt : Nat) (f : Frame)
  /-- VPPB_BIND: Stages the binding of a vPPB to a downstream link or LD. (R282) -/
  | vppbBind (dt : Nat) (f : Frame)
  /-- VPPB_UNBIND: Stages the unbinding of a vPPB in one of three modes. (R284) -/
  | vppbUnbind (dt : Nat) (f : Frame)
  /-- VCS_GET: Returns the Reach and vPPB bindings of a VCS. (R305) -/
  | vcsGet (dt : Nat) (f : Frame)
  /-- LD_COHERENCE_SET: Stages the coherence group of an LD. (R283) -/
  | ldCoherenceSet (dt : Nat) (f : Frame)
  /-- BI_ROUTE_SET: Stages the BI route of a near Reach on an Iggevo link. (R291) -/
  | biRouteSet (dt : Nat) (f : Frame)
  /-- REACH_COUNT_SET: Stages a new Reach count, which clears and reassigns everything at its commit. (R318) -/
  | reachCountSet (dt : Nat) (f : Frame)
  /-- REACH_GET: Returns N and the per-Reach shares. (R319) -/
  | reachGet (dt : Nat) (f : Frame)
  /-- REACH_ASSIGN: Stages the assignment of a link or LD to a Reach. (R309) -/
  | reachAssign (dt : Nat) (f : Frame)
  /-- REACH_MAP_GET: Returns the links and GiB owned by a Reach. (R319) -/
  | reachMapGet (dt : Nat) (f : Frame)
  /-- REACH_RESET: Starts the reset of a Reach to empty. (R316) -/
  | reachReset (dt : Nat) (f : Frame)
  /-- REACH_STATUS_GET: Returns the state and resource use of a Reach. (R319) -/
  | reachStatusGet (dt : Nat) (f : Frame)
  /-- NOC_STATS_GET: Returns the statistics of a stop on one network. (R336) -/
  | nocStatsGet (dt : Nat) (f : Frame)
  /-- NOC_STATS_CLEAR: Clears network statistics of one or all stops. (R336) -/
  | nocStatsClear (dt : Nat) (f : Frame)
  /-- DOMAIN_STATUS_GET: Returns which power domains are on and fenced. (R336) -/
  | domainStatusGet (dt : Nat) (f : Frame)
  /-- IDENTIFY: Returns DEV_IDENT, serial number, firmware build and device identity. (R368) -/
  | identify (dt : Nat) (f : Frame)
  /-- EVENT_READ: Returns and removes queued event records. (R355) -/
  | eventRead (dt : Nat) (f : Frame)
  /-- RESULT_GET: Returns the kept final response of a completed long command. (R349) -/
  | resultGet (dt : Nat) (f : Frame)
  /-- COMMIT: Checks a staged set and arms it for the next commit epoch. (R359) -/
  | commit (dt : Nat) (f : Frame)
  /-- RULESET_COMMIT: Checks a staged set and arms it for a named epoch. (R359) -/
  | rulesetCommit (dt : Nat) (f : Frame)
  /-- STAGING_DISCARD: Discards a staged set, releases provisional cells and starts resynchronisation. (R358) -/
  | stagingDiscard (dt : Nat) (f : Frame)
  /-- STAGING_STATUS_GET: Returns the state, generation and pending epoch of a staged set. (R368) -/
  | stagingStatusGet (dt : Nat) (f : Frame)
  /-- MPC_STATUS_GET: Returns the MPC roles, standby state, shed level and counts. (R368) -/
  | mpcStatusGet (dt : Nat) (f : Frame)
  /-- MPC_SWITCHOVER: Hands service to the standby MPC without a firmware change. (R365) -/
  | mpcSwitchover (dt : Nat) (f : Frame)
  /-- FMAPI_REQUEST: Runs an FM API command carried inside a Bilod frame. (R367) -/
  | fmapiRequest (dt : Nat) (f : Frame)
  /-- SECURITY_STATUS_GET: Returns approved, error, entropy, tamper and debug state. (R388) -/
  | securityStatusGet (dt : Nat) (f : Frame)
  /-- SESSION_CHALLENGE: Returns a nonce and, for passphrase slots, salt and iterations. (R379) -/
  | sessionChallenge (dt : Nat) (f : Frame)
  /-- OPEN_SESSION: Checks the host proof and opens a session bound to slot, role and mailbox. (R379) -/
  | openSession (dt : Nat) (f : Frame)
  /-- CLOSE_SESSION: Closes the session named in the header. (R380) -/
  | closeSession (dt : Nat) (f : Frame)
  /-- CREDENTIAL_SET: Sets a credential slot and closes its sessions. (R377) -/
  | credentialSet (dt : Nat) (f : Frame)
  /-- CREDENTIAL_GET: Returns the settings and lockout state of a credential slot. (R388) -/
  | credentialGet (dt : Nat) (f : Frame)
  /-- SELF_TEST_RUN: Runs the known-answer and DRBG tests and may end the error state. (R372) -/
  | selfTestRun (dt : Nat) (f : Frame)
  /-- ZEROIZE: Zeroizes the key store and takes the device to Safe. (R384) -/
  | zeroize (dt : Nat) (f : Frame)
  /-- AUDIT_READ: Returns audit records and clears a latched tamper. (R388) -/
  | auditRead (dt : Nat) (f : Frame)
  /-- DEBUG_ENABLE: Zeroizes and enables invasive debug until the next power-up. (R386) -/
  | debugEnable (dt : Nat) (f : Frame)
  /-- FAULT_STATUS_GET: Returns FAULT_STATUS and fault counts of a scope. (R396) -/
  | faultStatusGet (dt : Nat) (f : Frame)
  /-- FAULT_STATUS_CLEAR: Clears status bits whose cause is gone. (R397) -/
  | faultStatusClear (dt : Nat) (f : Frame)
  /-- FAULT_SNAPSHOT_GET: Returns the first-error snapshot of a class. (R398) -/
  | faultSnapshotGet (dt : Nat) (f : Frame)
  /-- FAULT_HISTORY_READ: Returns entries of the fault history ring. (R399) -/
  | faultHistoryRead (dt : Nat) (f : Frame)
  /-- FAULT_REDUNDANCY_GET: Returns the redundancy causes present. (R409) -/
  | faultRedundancyGet (dt : Nat) (f : Frame)
  /-- FAULT_LOG_READ: Returns records of the NV fault log. (R409) -/
  | faultLogRead (dt : Nat) (f : Frame)
  /-- FAULT_COUNT_GET: Returns fault counts by family and class. (R409) -/
  | faultCountGet (dt : Nat) (f : Frame)
  /-- FAULT_INJECT: Injects a fault message into the collector. (R410) -/
  | faultInject (dt : Nat) (f : Frame)
  /-- COUNTER_CONFIG_SET: Sets the configuration and reload of a programmable counter. (R415) -/
  | counterConfigSet (dt : Nat) (f : Frame)
  /-- COUNTER_CONFIG_GET: Returns the configuration and reload of a counter. (R430) -/
  | counterConfigGet (dt : Nat) (f : Frame)
  /-- COUNTER_READ: Reads a list of counters in order with their read times. (R420) -/
  | counterRead (dt : Nat) (f : Frame)
  /-- COUNTER_WRITE: Writes a counter value or clears its overflow bit. (R419) -/
  | counterWrite (dt : Nat) (f : Frame)
  /-- TALLY_READ: Returns the tally of an event. (R411) -/
  | tallyRead (dt : Nat) (f : Frame)
  /-- BW_WINDOW_SET: Sets the bandwidth window size of a link. (R424) -/
  | bwWindowSet (dt : Nat) (f : Frame)
  /-- BW_WINDOW_GET: Returns the last published bandwidth window of a link. (R423) -/
  | bwWindowGet (dt : Nat) (f : Frame)
  /-- SAMPLE_READ: Returns and removes sample records of a tile. (R422) -/
  | sampleRead (dt : Nat) (f : Frame)
  /-- TRACE_SET: Enables trace record types in wrap or stop mode. (R425) -/
  | traceSet (dt : Nat) (f : Frame)
  /-- TRACE_READ: Returns trace records without removing them. (R425) -/
  | traceRead (dt : Nat) (f : Frame)
  /-- TELEMETRY_SET: Sets the telemetry push ring, interval and record types. (R426) -/
  | telemetrySet (dt : Nat) (f : Frame)
  /-- PERCOLATOR_SET: Sets the period of a background task. (R427) -/
  | percolatorSet (dt : Nat) (f : Frame)
  /-- PERCOLATOR_STATUS_GET: Returns the background task entries and shed level. (R427) -/
  | percolatorStatusGet (dt : Nat) (f : Frame)
  /-- TRACE_MARKER: Writes a Marker record with user data to the trace. (R430) -/
  | traceMarker (dt : Nat) (f : Frame)
  /-- SLOT_STATUS_GET: Returns the state, feed and readings of a slot power channel. (R445) -/
  | slotStatusGet (dt : Nat) (f : Frame)
  /-- SLOT_CONFIG_SET: Stages feed preference, current limit, slope and ADC range of channels. (R445) -/
  | slotConfigSet (dt : Nat) (f : Frame)
  /-- SLOT_CONFIG_GET: Returns the active or staged configuration of a channel. (R445) -/
  | slotConfigGet (dt : Nat) (f : Frame)
  /-- SLOT_RESET_LATCH: Clears the latched-off state of a channel and its attempt count. (R438) -/
  | slotResetLatch (dt : Nat) (f : Frame)
  /-- SLOT_FEED_SELECT: Changes a channel over to the named feed. (R440) -/
  | slotFeedSelect (dt : Nat) (f : Frame)
  /-- FEED_STATUS_GET: Returns the voltages, validity and warnings of a feed group. (R445) -/
  | feedStatusGet (dt : Nat) (f : Frame)
  /-- SUPPLY_STATUS_GET: Returns rail readings, AVS set point and package power. (R465) -/
  | supplyStatusGet (dt : Nat) (f : Frame)
  /-- CLOCK_STATUS_GET: Returns the reference clock in use, validity and offsets. (R465) -/
  | clockStatusGet (dt : Nat) (f : Frame)
  /-- CLOCK_SELECT: Switches to the named valid reference clock. (R454) -/
  | clockSelect (dt : Nat) (f : Frame)
  /-- SHELF_ENTER: Flushes the NV log and drives CORE_EN low from Safe. (R452) -/
  | shelfEnter (dt : Nat) (f : Frame)
  /-- IMAGE_STATUS_GET: Returns the validity and sequence of each flash copy. (R503) -/
  | imageStatusGet (dt : Nat) (f : Frame)
  /-- SAVE_IMAGE: Snapshots the active configuration and seals it into the other copy. (R496) -/
  | saveImage (dt : Nat) (f : Frame)
  /-- IMAGE_WRITE: Writes data into the inactive copy of a kind. (R497) -/
  | imageWrite (dt : Nat) (f : Frame)
  /-- IMAGE_FINISH: Verifies or seals the written copy and programs its header. (R497) -/
  | imageFinish (dt : Nat) (f : Frame)
  /-- IMAGE_INVALIDATE: Erases the header of a named copy. (R498) -/
  | imageInvalidate (dt : Nat) (f : Frame)
  /-- SECURITY_VERSION_ADVANCE: Raises the OTP security version counter. (R499) -/
  | securityVersionAdvance (dt : Nat) (f : Frame)
  /-- UNDEFINED_OPCODE: A Bilod request with an undefined or reserved opcode returns UNSUPPORTED with no effect. (R351) -/
  | undefinedOpcode (dt : Nat) (opcode : Nat) (f : Frame)
  /-- FM_API_TUNNEL_FRAME: Serves a Bilod frame carried in FM API opcode 0xC000 with the Operator role. (R366) -/
  | fmApiTunnelFrame (dt : Nat) (src : FmSrc) (opcode : Nat) (f : Frame)
  /-- FM_API_BIND_VPPB: Stages and commits a vPPB binding alone, completing as a background operation. (R293) -/
  | fmApiBindVppb (dt : Nat) (src : FmSrc) (vcs : Nat) (vppb : Nat) (link : Nat) (ld : Nat)
  /-- FM_API_UNBIND_VPPB: Stages and commits a vPPB unbinding alone. (R293) -/
  | fmApiUnbindVppb (dt : Nat) (src : FmSrc) (vcs : Nat) (vppb : Nat) (umode : Nat)
  /-- FM_API_PHYSICAL_PORT_CONTROL: Drives PERST_N or resets the named link. (R292) -/
  | fmApiPhysicalPortControl (dt : Nat) (src : FmSrc) (link : Nat) (act : PortControl)
  /-- FM_API_MLD_PORT_REQUEST: Forwards an LD configuration or memory request to the LD. (R292) -/
  | fmApiMldPortRequest (dt : Nat) (src : FmSrc) (link : Nat) (ld : Nat) (body : List Byte)
  /-- FM_API_TUNNELLED_COMPONENT: Tunnels an MLD Component or dynamic capacity command to the device unchanged. (R292) -/
  | fmApiTunnelledComponent (dt : Nat) (src : FmSrc) (link : Nat) (body : List Byte)
  /-- FM_API_UNSUPPORTED_SET: An FM API command of another set, or from a non-manager CCI, returns Unsupported. (R292) -/
  | fmApiUnsupportedSet (dt : Nat) (src : FmSrc) (opcode : Nat)
  /-- RING: Submits the command in MBX_PAYLOAD and sets busy. (R347) -/
  | ring (dt : Nat) (v : View)
  /-- NEXT: Loads the next segment of a long response. (R348) -/
  | next (dt : Nat) (v : View)
  /-- DROP: Discards the remaining segments of a response. (R348) -/
  | drop (dt : Nat) (v : View)
  /-- CLAIM: Requests the claim of a Reach mailbox. (R346) -/
  | claim (dt : Nat) (v : View)
  /-- RELEASE: Releases the claim held through this view. (R346) -/
  | release (dt : Nat) (v : View)
  /-- REGISTER_WRITE: A write to a Direct Register Page register or payload with no row of its own. (R344) -/
  | registerWrite (dt : Nat) (v : View) (off : Nat) (width : Nat) (value : Nat)
  /-- CLAIM_TIMEOUT: A claim ends after 10 ms without ring, next or drop. (R346) -/
  | claimTimeout (dt : Nat) (r : Nat)
  /-- COMMAND_DONE: A long command completes and posts its final status. (R349) -/
  | commandDone (dt : Nat) (mb : Mbx) (tag : Nat)
  /-- MCTP_BILOD_REQUEST: An out-of-band Bilod request arrives as an MCTP message. (R347) -/
  | mctpBilodRequest (dt : Nat) (opcode : Nat) (f : Frame) (whole : Bool)
  /-- MCTP_CONTROL_MESSAGE: An MCTP control message is served. (R473) -/
  | mctpControlMessage (dt : Nat) (mtype : Nat) (cmd : Nat) (eid : Nat) (pecOk : Bool)
  /-- I3C_ADDRESS_ASSIGN: ENTDAA or SETDASA assigns the dynamic address. (R472) -/
  | i3cAddressAssign (dt : Nat) (addr : Nat) (setdasa : Bool) (staticAddr : Nat)
  /-- I3C_BUS_RESET: A bus reset discards any partly assembled MCTP message. (R474) -/
  | i3cBusReset (dt : Nat)
  /-- SPDM_REQUEST: The SPDM responder serves a request over DOE or MCTP. (R383) -/
  | spdmRequest (dt : Nat) (port : SpdmPort) (req : SpdmReq)
  /-- SPI_READ_PAGE: A complete SPI frame reads the Direct Register Page. (R469) -/
  | spiReadPage (dt : Nat) (off : Nat) (len : Nat) (crcOk : Bool) (extra : Bool)
  /-- SPI_WRITE_PAGE: A complete SPI frame writes the Direct Register Page at SPI_CS_N rising. (R469) -/
  | spiWritePage (dt : Nat) (off : Nat) (data : List Byte) (crcOk : Bool) (extra : Bool)
  /-- SPI_READ_SB_STATUS: A complete SPI frame reads SB_STATUS. (R471) -/
  | spiReadSbStatus (dt : Nat) (crcOk : Bool) (extra : Bool)
  /-- SPI_FORMAT_ERROR: A frame with a reserved command or bad header is discarded. (R470) -/
  | spiFormatError (dt : Nat)
  /-- SPI_PARTIAL_FRAME: SPI_CS_N rises before the final CRC and the frame is discarded. (R470) -/
  | spiPartialFrame (dt : Nat)
  /-- UART_CHARACTER: A character is received, checked for framing and queued or discarded. (R478) -/
  | uartCharacter (dt : Nat) (ch : Byte) (stop : Bool)
  /-- UART_BREAK: The line stays low for 10 bit times and a break is counted. (R479) -/
  | uartBreak (dt : Nat)
  /-- BYPASS: The JTAG BYPASS instruction. (R481) -/
  | bypass (dt : Nat)
  /-- IDCODE: The JTAG IDCODE instruction returns 0xB6410A9B. (R480) -/
  | idcode (dt : Nat)
  /-- SAMPLE_PRELOAD: The JTAG SAMPLE/PRELOAD instruction. (R481) -/
  | samplePreload (dt : Nat)
  /-- EXTEST: The JTAG EXTEST instruction takes scanned pins from their functions. (R481) -/
  | extest (dt : Nat)
  /-- EXTEST_PULSE: The IEEE 1149.6 EXTEST_PULSE instruction on AC-coupled lanes. (R481) -/
  | extestPulse (dt : Nat)
  /-- EXTEST_TRAIN: The IEEE 1149.6 EXTEST_TRAIN instruction on AC-coupled lanes. (R481) -/
  | extestTrain (dt : Nat)
  /-- CLAMP: The JTAG CLAMP instruction. (R481) -/
  | clamp (dt : Nat)
  /-- HIGHZ: The JTAG HIGHZ instruction. (R481) -/
  | highz (dt : Nat)
  /-- PRIVATE_DEBUG_INSTRUCTION: A private debug instruction, decoded only after DEBUG_ENABLE. (R481) -/
  | privateDebugInstruction (dt : Nat) (code : Nat)
  /-- TAP_RESET: TRST_N low or five TMS-high cycles reset the TAP. (R481) -/
  | tapReset (dt : Nat)
  /-- SIDEBAND_SCAN: Every 1 ms the slot chain is loaded, shifted and latched. (R483) -/
  | sidebandScan (dt : Nat) (inputs : BitVec 128) (signature : Byte)
  /-- PRESENCE_INSERTED: An insertion is accepted after 16 equal scans. (R484) -/
  | presenceInserted (dt : Nat) (t : Nat)
  /-- PRESENCE_LOST: A loss of presence is accepted after 4 scans and starts a surprise removal. (R484) -/
  | presenceLost (dt : Nat) (t : Nat)
  /-- ATTENTION_BUTTON_PRESSED: A button press accepted after 16 scans starts a managed removal. (R484) -/
  | attentionButtonPressed (dt : Nat) (t : Nat)
  /-- ATTENTION_BUTTON_RELEASED: A button release is accepted after 16 scans. (R484) -/
  | attentionButtonReleased (dt : Nat) (t : Nat)
  /-- CHAIN_FAULT: The chain signature fails on 3 scans and inputs freeze. (R485) -/
  | chainFault (dt : Nat)
  /-- CHAIN_FAULT_END: The chain fault ends after 16 good signatures. (R485) -/
  | chainFaultEnd (dt : Nat)
  /-- INDICATOR_BLINK: Blinking indicators toggle every 333 ms. (R483) -/
  | indicatorBlink (dt : Nat)
  /-- TAMPER_EVENT: TAMPER_N low or an on-die monitor out of limits zeroizes the device. (R385) -/
  | tamperEvent (dt : Nat) (cause : TamperCause)
  /-- SHELF_TAMPER_SAMPLE: In Shelf the VSTBY monitor samples TAMPER_N every 1 ms and latches a tamper. (R487) -/
  | shelfTamperSample (dt : Nat) (low : Bool)
  /-- STBY_WAKE: STBY_WAKE high for 1 ms releases CORE_EN. (R452) -/
  | stbyWake (dt : Nat) (heldNs : Nat)
  /-- VSTBY_POWER_ON: VSTBY is applied and CORE_EN is released. (R452) -/
  | vstbyPowerOn (dt : Nat)
  /-- VSTBY_LOSS: VSTBY falls below 1.6 V and the key store wrapping key is lost. (R451) -/
  | vstbyLoss (dt : Nat)
  /-- POWER_GOOD: CORE_PWRGD rises and a cold reset enters Cold Boot. (R446) -/
  | powerGood (dt : Nat) (railsBad : List Nat)
  /-- RESET_N_ASSERT: RESET_N low for 1 µs causes a cold reset. (R458) -/
  | resetNAssert (dt : Nat) (heldNs : Nat)
  /-- RAIL_RECOVERED: A core rail out of tolerance at power-good recovers and Cold Boot continues. (R447) -/
  | railRecovered (dt : Nat) (rail : Nat)
  /-- CORE_RAILS_OFF: The core rails are removed and the device enters Shelf. (R447) -/
  | coreRailsOff (dt : Nat)
  /-- SUPPLY_OUT_OF_RANGE: A core rail leaves its tolerance for 10 µs. (R464) -/
  | supplyOutOfRange (dt : Nat) (rail : Nat) (lastedNs : Nat)
  /-- ENTROPY_STARTUP_DONE: The entropy source passes its start-up tests and the DRBG is seeded. (R373) -/
  | entropyStartupDone (dt : Nat) (passed : Bool)
  /-- ENTROPY_TEST_FAIL: A continuous entropy test fails and the source restarts. (R373) -/
  | entropyTestFail (dt : Nat)
  /-- DRBG_RESEED: The DRBG reseeds after 2^20 requests or 60 s. (R373) -/
  | drbgReseed (dt : Nat) (healthOk : Bool)
  /-- SAFE_ENTRY: Cold Boot or a core reset completes and the device reports Safe. (R459) -/
  | safeEntry (dt : Nat) (boot : BootResult)
  /-- IMAGE_LOAD: The loader stages and commits the user image in five passes to enter Configure. (R495) -/
  | imageLoad (dt : Nat)
  /-- TIMEBASE_STEP: The device steps its timebase to an upstream before entering Run. (R457) -/
  | timebaseStep (dt : Nat)
  /-- START_PROFILE_COMMIT: The image's start profile is committed once time is settled. (R457) -/
  | startProfileCommit (dt : Nat)
  /-- CONFIGURE_JOIN_WINDOW_END: Tiles stop joining without a service operation 2 s after Configure. (R461) -/
  | configureJoinWindowEnd (dt : Nat)
  /-- PERST_RELEASE: PERST_N t is released 100 ms after the slot's power-good. (R460) -/
  | perstRelease (dt : Nat) (t : Nat)
  /-- COMMIT_EPOCH: At a commit epoch the hardware applies armed commits and mode changes in the order of R360. (R361) -/
  | commitEpoch (dt : Nat)
  /-- RESYNC_START: Resynchronisation starts 32 ns after the flip. (R85) -/
  | resyncStart (dt : Nat) (set : Nat)
  /-- RESYNC_DONE: Resynchronisation completes and staged commands are accepted again. (R85) -/
  | resyncDone (dt : Nat) (set : Nat)
  /-- CONFIGURE_DRAIN_COMPLETE: Admitted work has drained and the mode reads Configure. (R28) -/
  | configureDrainComplete (dt : Nat)
  /-- DIAGNOSTIC_TRANSITION_DONE: A change between Configure and Diagnostic completes. (R521) -/
  | diagnosticTransitionDone (dt : Nat) (testsOk : Bool)
  /-- SERVICE_OP_COMPLETE: A service operation completes or fails and Service ends at the next epoch. (R39) -/
  | serviceOpComplete (dt : Nat) (ok : Bool)
  /-- INGRESS_ARRIVAL: A message arrives on a link and is placed in the ingress FIFO of its link and class. (R42) -/
  | ingressArrival (dt : Nat) (m : Arrival)
  /-- WEIR_EVALUATE: The Weir evaluates one FIFO head per cycle and admits, holds or faults it. (R45) -/
  | weirEvaluate (dt : Nat) (tile : Nat)
  /-- ART_LOOKUP_ANSWER: The answer of an ART lookup from a bank pair returns to the Weir. (R86) -/
  | artLookupAnswer (dt : Nat) (tile : Nat) (r : Nat) (idx : Nat) (a : EntryRead) (b : EntryRead) (third : Option EntryRead) (link : Nat) (cls : Nat)
  /-- EXPEDITED_DEMOTED: An Expedited request held 2,048 ns is demoted to Standard. (R62) -/
  | expeditedDemoted (dt : Nat) (link : Nat)
  /-- SELF_GENERATED_ADMISSION: A device-generated message is admitted at its source. (R69) -/
  | selfGeneratedAdmission (dt : Nat) (src : Nat)
  /-- PRESSURE_RECOMPUTE: The pressure index is recomputed at each 8 ns multiple. (R59) -/
  | pressureRecompute (dt : Nat)
  /-- QUEUE_STATE_BROADCAST: Each egress broadcasts its queue states every 8 ns. (R135) -/
  | queueStateBroadcast (dt : Nat)
  /-- TILE_PARK: An idle tile is parked after 1 ms in Run-Power-Capped. (R36) -/
  | tilePark (dt : Nat) (t : Nat)
  /-- TILE_UNPARK: A parked tile is woken by an admission request. (R36) -/
  | tileUnpark (dt : Nat) (t : Nat)
  /-- STAGE_TRANSFER: Each cycle each stage of each plane selects and sends one cell per tile. (R98) -/
  | stageTransfer (dt : Nat) (plane : Nat) (stage : Nat)
  /-- CELL_ARRIVAL: A stage transfer is received and checked, acknowledged or discarded. (R101) -/
  | cellArrival (dt : Nat) (id : Nat) (check : XferCheck)
  /-- LOCK_CHAMBER_RELEASE: The Lock chamber releases cells in sequence to the egress queues. (R109) -/
  | lockChamberRelease (dt : Nat) (dest : Nat)
  /-- LOCK_ACK: Lock chambers acknowledge releases every 128 ns. (R108) -/
  | lockAck (dt : Nat) (dest : Nat)
  /-- SEQ_MISSING: A sprayed number waits 2 µs without hold notice and its message is ended. (R110) -/
  | seqMissing (dt : Nat) (src : Nat) (dest : Nat) (space : SeqSpace) (seq : Nat)
  /-- BASIN_RETURN: A held cell returns from the Basin into stage 2. (R137) -/
  | basinReturn (dt : Nat) (link : Nat) (q : Nat)
  /-- BASIN_CELL_LOST: A held cell found uncorrectable has its hold notice withdrawn. (R146) -/
  | basinCellLost (dt : Nat) (id : Nat)
  /-- MCAST_AGGREGATE: All copy responses have arrived and one aggregated response is sent. (R117) -/
  | mcastAggregate (dt : Nat) (tracker : Nat)
  /-- PLANE_LOST: A plane with 16 failed transfers in 1 ms is declared lost. (R121) -/
  | planeLost (dt : Nat) (p : Nat) (builtInTestFailed : Bool)
  /-- PATTERN_EPOCH: Once affected pairs are drained, the pattern changes at a commit epoch. (R123) -/
  | patternEpoch (dt : Nat)
  /-- PATTERN_CHANGE_TIMEOUT: Cells still owed 100 µs after a pattern change request are declared missing. (R125) -/
  | patternChangeTimeout (dt : Nat)
  /-- TRANSMIT_UNIT: The egress scheduler chooses the queue that sends the next transmit unit. (R153) -/
  | transmitUnit (dt : Nat) (link : Nat)
  /-- EGRESS_DEPARTURE: A message departs and its deadline, monitors and queue lines are checked. (R48) -/
  | egressDeparture (dt : Nat) (link : Nat) (id : Nat)
  /-- SHAPER_REFILL: A link's shapers refill every 128 ns at their offset. (R162) -/
  | shaperRefill (dt : Nat) (link : Nat)
  /-- EGRESS_STALL: An egress without transmit credit for 1 µs is declared stalled. (R138) -/
  | egressStall (dt : Nat) (link : Nat)
  /-- BASIN_SLOT: A Basin controller grants one frame slot of HBM command time. (R144) -/
  | basinSlot (dt : Nat) (stack : Nat)
  /-- BASIN_MEMORY_ACCESS: A Basin memory port reads or writes a line. (R141) -/
  | basinMemoryAccess (dt : Nat) (port : Nat) (id : Nat)
  /-- BASIN_ATOMICOP: A Basin memory port executes an AtomicOp on a line. (R185) -/
  | basinAtomicop (dt : Nat) (port : Nat) (id : Nat)
  /-- DREDGER_SCRUB: The Dredger reads and corrects a Basin line. (R145) -/
  | dredgerScrub (dt : Nat) (stack : Nat) (line : Nat) (found : ScrubResult)
  /-- STACK_LOST: A Basin stack is lost and overflow stops. (R147) -/
  | stackLost (dt : Nat) (stack : Nat) (cause : Nat)
  /-- BASIN_GIB_CLEARED: Zeroing of an unbound GiB completes. (R142) -/
  | basinGibCleared (dt : Nat) (g : Nat)
  /-- FABRIC_FLUSH_READ: A zero-length CXL.io read from a host starts a Fabric Flush. (R182) -/
  | fabricFlushRead (dt : Nat) (link : Nat)
  /-- FLUSH_COMPLETE: All earlier writes of the initiator are performed and the flush completes. (R181) -/
  | flushComplete (dt : Nat) (id : Nat)
  /-- FLUSH_TIMEOUT: A flush still waiting after 100 µs completes and treats writes as lost. (R183) -/
  | flushTimeout (dt : Nat) (id : Nat)
  /-- MONITOR_AGE_EXPIRY: A monitor reaches 100,000 ns and is released. (R190) -/
  | monitorAgeExpiry (dt : Nat)
  /-- STATUS_PAGE_READ: A status page read returns and clears the initiator's status record. (R192) -/
  | statusPageRead (dt : Nat) (link : Nat) (window : Nat)
  /-- FLIT_RECEIVED: An Iggevo flit is decoded, checked and its slots accepted or a replay requested. (R206) -/
  | flitReceived (dt : Nat) (link : Nat) (fl : Flit)
  /-- ACK_TIMER: ack advances 200 ns after the first flit accepted since the last advance. (R207) -/
  | ackTimer (dt : Nat) (link : Nat)
  /-- REPLAY_REQUEST_TIMEOUT: An outstanding replay request lapses after 2 µs. (R208) -/
  | replayRequestTimeout (dt : Nat) (link : Nat)
  /-- RETRAIN: A link retrains on RETRAIN_REQ, replay limit, loss of lock or command. (R219) -/
  | retrain (dt : Nat) (link : Nat) (cause : Nat)
  /-- LINK_DOWN: A link goes down and its replay buffer, tracks and entries are ended. (R220) -/
  | linkDown (dt : Nat) (link : Nat) (cause : DownCause)
  /-- LINK_RECORD_RECEIVED: A partner link record during EXCHANGE is taken and counted toward the countdown. (R217) -/
  | linkRecordReceived (dt : Nat) (link : Nat) (rec : List Byte) (rx16 : Nat)
  /-- EXCHANGE_COMPLETE: The EXCHANGE countdown ends and the link enters ACTIVE. (R217) -/
  | exchangeComplete (dt : Nat) (link : Nat)
  /-- EXCHANGE_FAILED: EXCHANGE fails or times out after 100 µs and the link returns to DETECT. (R218) -/
  | exchangeFailed (dt : Nat) (link : Nat)
  /-- TIME_FLIT_SEND: A time flit is sent once per 8,192 ns period. (R222) -/
  | timeFlitSend (dt : Nat) (link : Nat)
  /-- TIME_FLIT_RECEIVED: A time flit yields delay and theta and drives slewing and time-degraded state. (R222) -/
  | timeFlitReceived (dt : Nat) (link : Nat) (rec : List Byte) (rx16 : Nat)
  /-- TIME_FLIT_MISSING: No time flit arrives for 32,768 ns and the link is time-degraded. (R225) -/
  | timeFlitMissing (dt : Nat) (link : Nat)
  /-- UPSTREAM_SELECT: The device chooses its time upstream or enters holdover. (R224) -/
  | upstreamSelect (dt : Nat)
  /-- LANE_CHANGE_ACT: At flit F + c the direction switches to the new lane mask. (R214) -/
  | laneChangeAct (dt : Nat) (link : Nat) (transmit : Bool)
  /-- DETECT_COMPLETE: The receiver's towpath DLL locks and DETECT ends. (R265) -/
  | detectComplete (dt : Nat) (link : Nat) (lane8Los : Bool) (anyData : Bool)
  /-- DETECT_TIMEOUT: DETECT has not completed within 1 ms and restarts. (R265) -/
  | detectTimeout (dt : Nat) (link : Nat)
  /-- PATTERN_COMPLETE: Data lanes are judged and the rx_mask is formed. (R267) -/
  | patternComplete (dt : Nat) (link : Nat) (pass : BitVec 8) (inverted : BitVec 8)
  /-- AM_RECEIVED: An alignment marker is received and used for lock, countdown or substitution. (R266) -/
  | amReceived (dt : Nat) (link : Nat) (lane : Nat) (am : AMark)
  /-- LOCK_COMPLETE: The LOCK countdown ends and the first flit begins. (R266) -/
  | lockComplete (dt : Nat) (link : Nat)
  /-- LOSS_OF_SIGNAL: A lane's loss-of-signal detector asserts or deasserts. (R262) -/
  | lossOfSignal (dt : Nat) (tile : Nat) (lane : Nat) (asserted : Bool)
  /-- TOWPATH_LOCK_LOST: The towpath DLL or 8 discarded flits cause loss of lock and a retrain. (R263) -/
  | towpathLockLost (dt : Nat) (link : Nat)
  /-- LANE_FAILING: A data lane meets a failing condition and is marked failing. (R264) -/
  | laneFailing (dt : Nat) (tile : Nat) (lane : Nat) (row : Nat)
  /-- SUB_READY: The receiver has aligned lane 9 and sets sub_ready. (R269) -/
  | subReady (dt : Nat) (link : Nat)
  /-- SUBSTITUTION_TIMEOUT: sub_ready is not set within 1 ms and a narrowing is requested. (R269) -/
  | substitutionTimeout (dt : Nat) (link : Nat)
  /-- L0P_REQUEST: A partner's L0p width request is accepted. (R256) -/
  | l0pRequest (dt : Nat) (link : Nat) (width : Nat)
  /-- L0P_NARROW: In Run-Power-Capped the device narrows a lightly used link after 100 µs. (R256) -/
  | l0pNarrow (dt : Nat) (link : Nat)
  /-- L0P_WIDEN: The device widens a narrowed link when use reaches three quarters. (R256) -/
  | l0pWiden (dt : Nat) (link : Nat)
  /-- CXL_LINK_TRAINED: A CXL link reaches L0 through the LTSSM. (R254) -/
  | cxlLinkTrained (dt : Nat) (link : Nat) (tr : Trained)
  /-- ADAPTATION_STEP: Each µs the receiver adapts CTLE and DFE taps. (R261) -/
  | adaptationStep (dt : Nat) (tile : Nat) (lane : Nat) (signs : List Int)
  /-- OFFSET_RECAL_STEP: One slicer of a lane is recalibrated in a 2 µs step. (R272) -/
  | offsetRecalStep (dt : Nat) (tile : Nat) (lane : Nat)
  /-- EYE_MONITOR_MEASURE: The auxiliary slicer measures a lane's eye. (R272) -/
  | eyeMonitorMeasure (dt : Nat) (tile : Nat) (lane : Nat) (h : Nat) (w : Nat)
  /-- LANE_MARGIN_REQUEST: A PCIe Lane Margining request is served on the auxiliary slicer. (R273) -/
  | laneMarginRequest (dt : Nat) (link : Nat) (lane : Nat) (timing : Bool) (up : Bool) (steps : Nat)
  /-- EYE_SCAN_DONE: An eye scan completes. (R273) -/
  | eyeScanDone (dt : Nat) (tile : Nat) (lane : Nat) (counts : List Nat)
  /-- CONFIG_REQUEST: A configuration request to the upstream port or a vPPB is served in the tile. (R286) -/
  | configRequest (dt : Nat) (link : Nat) (fn : CfgFn) (off : Nat) (wr : Option Nat)
  /-- HOST_POWER_CONTROL_WRITE: A host writes a vPPB's power controller control, which may start a hot-add or removal. (R294) -/
  | hostPowerControlWrite (dt : Nat) (vcs : Nat) (vppb : Nat) (on : Bool)
  /-- REMOVE_TIMEOUT: remove_timeout expires and the removal proceeds as a surprise. (R295) -/
  | removeTimeout (dt : Nat) (t : Nat)
  /-- HOTPLUG_ADD_FAILED: A hot-add fails on presence loss, latch, power-good or training timeout. (R297) -/
  | hotplugAddFailed (dt : Nat) (t : Nat)
  /-- IDE_ESTABLISHED: IDE is established on a link and the link is unfenced. (R37) -/
  | ideEstablished (dt : Nat) (link : Nat)
  /-- IDE_REFRESH_DUE: A downstream stream's refresh period expires and keys are refreshed. (R302) -/
  | ideRefreshDue (dt : Nat) (link : Nat)
  /-- IDE_REFRESH_FAILED: A refresh has not completed within 1 s and is retried later. (R302) -/
  | ideRefreshFailed (dt : Nat) (link : Nat)
  /-- REACH_RESET_E2: A resetting Reach's work has ended and its configuration is cleared at the next epoch. (R316) -/
  | reachResetE2 (dt : Nat) (r : Nat)
  /-- NOC_REQUEST_TIMEOUT: A network request without response within 10 µs ends as failed. (R328) -/
  | nocRequestTimeout (dt : Nat) (stop : Nat) (art : Option (Nat × Nat))
  /-- NOC_PACKET_LOST: A flit failing CRC twice causes its packet to be discarded. (R328) -/
  | nocPacketLost (dt : Nat) (net : Nat) (dom : Nat) (isFault : Bool)
  /-- SLUICE_FENCE_REQUEST: A domain is fenced for switch-off. (R329) -/
  | sluiceFenceRequest (dt : Nat) (d : Nat) (cause : Nat)
  /-- SLUICE_DRAIN_DONE: The fenced domain has drained and is saved and switched off. (R329) -/
  | sluiceDrainDone (dt : Nat) (d : Nat)
  /-- SLUICE_FORCED: The drain is forced after 100 µs. (R330) -/
  | sluiceForced (dt : Nat) (d : Nat)
  /-- DOMAIN_POWER_ON: A domain is powered on, restored and unfenced. (R331) -/
  | domainPowerOn (dt : Nat) (d : Nat)
  /-- HEARTBEAT: The active MPC writes a heartbeat every 1 ms. (R339) -/
  | heartbeat (dt : Nat)
  /-- MPC_TAKEOVER: Four missed heartbeats or a lockstep mismatch hand service to the standby. (R339) -/
  | mpcTakeover (dt : Nat) (lockstep : Bool)
  /-- MPC_RESTART: The active MPC fails with no standby and restarts from flash. (R340) -/
  | mpcRestart (dt : Nat)
  /-- STANDBY_READY: A restarted MPC passes its self-test and becomes standby. (R339) -/
  | standbyReady (dt : Nat)
  /-- SERVICE_FRAME: A 100 µs frame begins and each Reach receives its command slots. (R362) -/
  | serviceFrame (dt : Nat)
  /-- SHED_LEVEL: The MPC moves one shed level after 10 ms of load measurement. (R363) -/
  | shedLevel (dt : Nat) (busy : Nat)
  /-- STANDBY_IMAGE_VERIFIED: The standby has loaded and verified the new firmware image. (R364) -/
  | standbyImageVerified (dt : Nat) (ok : Bool)
  /-- FIRMWARE_HANDOVER: The pause ends and the new MPC becomes active. (R364) -/
  | firmwareHandover (dt : Nat)
  /-- SESSION_TIMEOUT: A session closes after 15 minutes without a command. (R380) -/
  | sessionTimeout (dt : Nat) (id : Nat)
  /-- CHALLENGE_EXPIRY: A session challenge expires after 10 s. (R379) -/
  | challengeExpiry (dt : Nat) (slot : Nat) (mb : Mbx)
  /-- LOCKOUT_END: A slot's lockout ends. (R381) -/
  | lockoutEnd (dt : Nat) (slot : Nat)
  /-- FAULT_MESSAGE_TAKEN: The collector takes a fault message, records, counts, sets status and posts it. (R395) -/
  | faultMessageTaken (dt : Nat) (m : FaultMsg)
  /-- FATAL_LINE: The fatal line stops admission on every tile within 20 ns. (R394) -/
  | fatalLine (dt : Nat)
  /-- FATAL_FAULT: A fatal message saves the record and resets the core into Safe. (R403) -/
  | fatalFault (dt : Nat)
  /-- FATAL_UNIDENTIFIED: No fatal message arrives 1 µs after the fatal line. (R394) -/
  | fatalUnidentified (dt : Nat)
  /-- SAMPLE_CAPTURE: After a wrap, the tile captures a filtered admitted message. (R422) -/
  | sampleCapture (dt : Nat) (tile : Nat) (id : Nat)
  /-- SAMPLE_CAPTURE_TIMEOUT: A capture that finds no message within 10 µs is abandoned. (R422) -/
  | sampleCaptureTimeout (dt : Nat) (tile : Nat) (ctr : Nat)
  /-- SOURCE_RECORD_HOLDOFF: At the end of 100 µs a source posts records for members that advanced. (R414) -/
  | sourceRecordHoldoff (dt : Nat) (src : Nat)
  /-- BW_WINDOW_BOUNDARY: A bandwidth window is published and counting restarts. (R423) -/
  | bwWindowBoundary (dt : Nat) (link : Nat)
  /-- TELEMETRY_PUSH: The Percolator writes selected records to the telemetry ring. (R426) -/
  | telemetryPush (dt : Nat)
  /-- TABLE_SCRUB: The Dredger scrubs table SRAM entries. (R429) -/
  | tableScrub (dt : Nat) (found : TableScrub)
  /-- WEAR_LEVELLING: Task 4 keeps erased sectors ahead and retires failing sectors. (R501) -/
  | wearLevelling (dt : Nat) (failedSector : Option Nat)
  /-- FLOOR_MISSED: A background task fails to complete a pass within its floor. (R428) -/
  | floorMissed (dt : Nat) (task : Nat)
  /-- LOG_FLUSH: Log entries waiting up to 100 ms are programmed to flash. (R501) -/
  | logFlush (dt : Nat)
  /-- FLASH_OP_COMPLETE: A flash program, erase or read completes. (R476) -/
  | flashOpComplete (dt : Nat) (dev : Nat) (res : FlashRes)
  /-- FEED_VALID: A feed in range for 10 ms becomes valid. (R433) -/
  | feedValid (dt : Nat) (g : Nat) (fd : Nat) (mv : Nat)
  /-- FEED_INVALID: A feed leaves its range and becomes invalid. (R433) -/
  | feedInvalid (dt : Nat) (g : Nat) (fd : Nat) (mv : Nat)
  /-- FEED_WARNING: A feed warning is raised and channels on that feed change over. (R434) -/
  | feedWarning (dt : Nat) (g : Nat) (fd : Nat) (mv : Nat)
  /-- FEED_WARNING_CLEAR: A feed warning clears after 1 ms above threshold. (R434) -/
  | feedWarningClear (dt : Nat) (g : Nat) (fd : Nat) (mv : Nat)
  /-- CHANGEOVER_MAKE: The old gate is below 1 V and the other gate is driven on. (R440) -/
  | changeoverMake (dt : Nat) (t : Nat)
  /-- FEED_REVERT: The preferred feed has been good for 1 s and the channel changes back. (R440) -/
  | feedRevert (dt : Nat) (t : Nat)
  /-- RAMP_START: A channel obtains a ramp slot and ramps its gate. (R436) -/
  | rampStart (dt : Nat) (g : Nat)
  /-- ENHANCEMENT_START: SLOT_VOUT reaches the feed and the gate is fully enhanced. (R435) -/
  | enhancementStart (dt : Nat) (t : Nat) (mv : Nat)
  /-- SLOT_POWER_GOOD: The channel raises power-good. (R435) -/
  | slotPowerGood (dt : Nat) (t : Nat) (mv : Nat)
  /-- ATTEMPT_TIMEOUT: An attempt without power-good after 4 ms fails. (R435) -/
  | attemptTimeout (dt : Nat) (t : Nat)
  /-- FAST_TRIP: A current of 2 × I_lim turns the channel off. (R437) -/
  | fastTrip (dt : Nat) (t : Nat) (ma : Nat)
  /-- BREAKER_TRIP: A current of 1.2 × I_lim for 1 ms turns the channel off. (R437) -/
  | breakerTrip (dt : Nat) (t : Nat) (ma : Nat) (lastedNs : Nat)
  /-- RETRY_START: After 1 s off the channel starts a new attempt. (R438) -/
  | retryStart (dt : Nat) (t : Nat)
  /-- ATTEMPT_COUNT_CLEAR: Power-good held 10 s clears the attempt count. (R438) -/
  | attemptCountClear (dt : Nat) (t : Nat)
  /-- RAMP_RESTART: An abandoned ramp restarts on the other feed after 1 ms. (R441) -/
  | rampRestart (dt : Nat) (t : Nat)
  /-- SLOT_UNDERVOLTAGE: SLOT_VOUT below 9.0 V for 10 µs drops power-good. (R439) -/
  | slotUndervoltage (dt : Nat) (t : Nat) (mv : Nat) (lastedNs : Nat)
  /-- ADC_SAMPLE: Each 10 µs the channel ADC samples current and voltages. (R442) -/
  | adcSample (dt : Nat) (t : Nat) (ma : Nat) (vout : Nat) (feedA : Nat) (feedB : Nat)
  /-- AVS_UPDATE: The VCORE set point is revised over AVSBus. (R448) -/
  | avsUpdate (dt : Nat) (target : Nat) (answered : Bool)
  /-- PMBUS_POLL: Every 1 ms regulators are read and package power summed. (R450) -/
  | pmbusPoll (dt : Nat) (readings : List (Option Nat))
  /-- POWER_CAP_STEP: The fabric moves one state slower or faster under the power cap. (R450) -/
  | powerCapStep (dt : Nat)
  /-- REFCLK_VALID: A reference clock stays within ±300 ppm for 1 s. (R453) -/
  | refclkValid (dt : Nat) (c : Nat) (off10ppm : Int)
  /-- REFCLK_LOST: The clock in use is lost and the device fails over. (R454) -/
  | refclkLost (dt : Nat) (c : Nat)
  /-- REFCLK_BOTH_LOST: Both reference clocks are lost, a fatal fault. (R455) -/
  | refclkBothLost (dt : Nat)
  /-- THERMAL_SAMPLE: Each 100 µs the temperature sensors are read. (R511) -/
  | thermalSample (dt : Nat) (temps : List Int)
  /-- THERMAL_WARNING: A sensor above its threshold for 1 ms raises a warning. (R512) -/
  | thermalWarning (dt : Nat) (sensor : Nat)
  /-- THERMAL_WARNING_CLEAR: All sensors are below their thresholds for 1 ms. (R512) -/
  | thermalWarningClear (dt : Nat)
  /-- THERMAL_SHUTDOWN: A die sensor at 110 °C for 100 µs causes a fatal fault. (R513) -/
  | thermalShutdown (dt : Nat) (sensor : Nat)
  /-- RD: A bridged memory read message is received. (R232) -/
  | rd (dt : Nat) (link : Nat) (msg : List Byte)
  /-- WR: A bridged write message is received. (R235) -/
  | wr (dt : Nat) (link : Nat) (msg : List Byte)
  /-- ATOMIC: A bridged AtomicOp message is received. (R184) -/
  | atomic (dt : Nat) (link : Nat) (msg : List Byte)
  /-- LOCK_RD: A locked read message starts a far lock. (R245) -/
  | lockRd (dt : Nat) (link : Nat) (msg : List Byte)
  /-- UNLOCK: An UNLOCK message releases a far lock entry. (R245) -/
  | unlock (dt : Nat) (link : Nat) (msg : List Byte)
  /-- FLUSH: A FLUSH message starts a far Fabric Flush of the initiator. (R238) -/
  | flush (dt : Nat) (link : Nat) (msg : List Byte)
  /-- SNOOP: A bridged back-invalidate snoop is delivered along its BI route. (R291) -/
  | snoop (dt : Nat) (link : Nat) (msg : List Byte)
  /-- PATH_HOLD: A hop holds cells provisionally for a path and forwards or answers. (R247) -/
  | pathHold (dt : Nat) (link : Nat) (msg : List Byte)
  /-- PATH_ACTIVATE: A hop activates held path cells at the named epoch. (R247) -/
  | pathActivate (dt : Nat) (link : Nat) (msg : List Byte)
  /-- PATH_FREE: A hop frees a path's cells and forwards the message. (R247) -/
  | pathFree (dt : Nat) (link : Nat) (msg : List Byte)
  /-- RD_DATA: Read data arrives for an open bridged entry. (R239) -/
  | rdData (dt : Nat) (link : Nat) (msg : List Byte)
  /-- WR_CMP: A write completion arrives for a bridged write. (R235) -/
  | wrCmp (dt : Nat) (link : Nat) (msg : List Byte)
  /-- ATOMIC_DATA: An AtomicOp result arrives for a bridged entry. (R239) -/
  | atomicData (dt : Nat) (link : Nat) (msg : List Byte)
  /-- LOCK_DATA: Locked read data arrives for the lock owner. (R246) -/
  | lockData (dt : Nat) (link : Nat) (msg : List Byte)
  /-- UNLOCK_CMP: An unlock completion arrives. (R245) -/
  | unlockCmp (dt : Nat) (link : Nat) (msg : List Byte)
  /-- FLUSH_DONE: A far flush answer carries lost writes back. (R238) -/
  | flushDone (dt : Nat) (link : Nat) (msg : List Byte)
  /-- SNOOP_RSP: An aggregated snoop response returns over the bridge. (R291) -/
  | snoopRsp (dt : Nat) (link : Nat) (msg : List Byte)
  /-- ERR: A far error ends a bridged request toward its initiator. (R240) -/
  | err (dt : Nat) (link : Nat) (msg : List Byte)
  /-- PATH_RSP: A path response travels back and confirms or refuses the path. (R247) -/
  | pathRsp (dt : Nat) (link : Nat) (msg : List Byte)
  /-- BRIDGE_TIMEOUT: A near entry's response timeout expires and it is completed and orphaned. (R241) -/
  | bridgeTimeout (dt : Nat) (tag : Nat)
  /-- DISCARD_EXPIRED: An orphaned entry is freed after the discard time. (R243) -/
  | discardExpired (dt : Nat) (tag : Nat)
  /-- LOCK_HOLD_LIMIT: No Unlock within 16 µs forces the release of a near lock. (R246) -/
  | lockHoldLimit (dt : Nat) (r : Nat)
  /-- FAR_LOCK_LIMIT: A far switch releases its lock entry after 32 µs. (R246) -/
  | farLockLimit (dt : Nat) (r : Nat)
  /-- FAR_FLUSH_TIMEOUT: A far flush ends after 100 µs / 2^k. (R238) -/
  | farFlushTimeout (dt : Nat) (id : Nat)
  /-- PATH_HOLD_EXPIRY: Provisional path cells are freed after 40 ms without activation. (R247) -/
  | pathHoldExpiry (dt : Nat) (origin : Nat) (handle : Nat)
  /-- PATH_RESERVE_TIMEOUT: A hop does not answer within 20 ms and PATH_RESERVE aborts. (R66) -/
  | pathReserveTimeout (dt : Nat) (handle : Nat)
  /-- CXL_LINK_DOWN: A CXL link leaves L0 (host PERST# asserted, Hot Reset, link disable or partner loss) and its layers go down. (R296) -/
  | cxlLinkDown (dt : Nat) (link : Nat)
  /-- LANE_LOCK_LOST: A lane's phase tracker loses lock, sending a CXL sub-link into Recovery. (R263) -/
  | laneLockLost (dt : Nat) (tile : Nat) (lane : Nat)
  /-- LANE_9_JUDGEMENT_TIMEOUT: Lane 9 shows no 64 consecutive valid AMs within 100 µs and is judged unusable, so LOCK can proceed. (R267) -/
  | lane9JudgementTimeout (dt : Nat) (link : Nat)
  /-- REFCLK_START_TEST_PASS: After both clocks are lost, a reference clock passes the 100 µs start test and Cold Boot continues. (R455) -/
  | refclkStartTestPass (dt : Nat) (c : Nat)
  /-- STANDBY_FAILED: The standby MPC fails its self-test or heartbeat, setting standby_mpc and leading to Degraded. (R401) -/
  | standbyFailed (dt : Nat)
  /-- MPC_RESTART_COMPLETE: The MPC that restarted from flash with no standby finishes its restart and resumes mailbox service. (R340) -/
  | mpcRestartComplete (dt : Nat)
  /-- SLOT_POWER_OFF: At least 100 µs after PERST_N t goes low in a removal, slot power channel t turns off and the vPPBs report Command Completed. (R295) -/
  | slotPowerOff (dt : Nat) (t : Nat)
deriving DecidableEq, Repr

end Sys2Proof
end

