-- ==== Sys2Proof/Decode.lean ====
section
/-! DEFINITION. Decoding of a word that the opcode table spells. The table of this block gives no row any bits: its
rows are commands of a mailbox, of a bus and of the device's own engines, each presented as a whole. -/

namespace Sys2Proof

/-- The command that a word of `nbits` bits spells by the opcode table: none, since no row has bits. -/
def decodeTableWord (_nbits _w : Nat) : Option Instr := none

end Sys2Proof
end

