-- ==== Sys2Proof/Config.lean ====
section
/-! DEFINITION. What the manual leaves open: values that an implementation or a random source supplies. Each is an
opaque constant with no body, applied to a counter of the state or to the operands it depends on, so that no proof
can know its value. -/

namespace Sys2Proof.Config

/-- The values drawn from the DRBG or otherwise left open, by draw number (R373, R379, R380, R60). -/
opaque freeWord : Nat → BitVec 384

/-- The serial number, unique to each device and held in OTP (R488, IDENTIFY). -/
opaque serial : BitVec 64

/-- The build number of the running firmware (IDENTIFY); the manual gives no value. -/
opaque firmwareBuild : BitVec 32

/-- The firmware interface revision of the factory firmware in on-die ROM: major and minor (R5). -/
opaque romRevision : BitVec 16

/-- The factory Crypto Officer key K of slot 0 and its salt, unique to each device (R378). -/
opaque factoryKey : BitVec 384
/-- The salt of the factory passphrase, held in OTP (R378). -/
opaque factorySalt : BitVec 256

/-- The audit keys in the order of their making: the first, and one more after each zeroization (R384, R387). -/
opaque auditKey : Nat → BitVec 384

/-- HMAC-SHA-384 of a message under a key (R379, R387; FIPS 198-1). -/
opaque hmac384 : Bytes → Bytes → BitVec 384

/-- SHA-384 (FIPS 180-4), for the measurements of Table SEC-4. -/
opaque sha384 : Bytes → BitVec 384

/-- The boot ROM (Table SEC-4, block 1). -/
opaque bootRom : Bytes

/-- PBKDF2-HMAC-SHA-384 with a 48-byte result: passphrase, salt, iterations (R377; SP 800-132). -/
opaque pbkdf2 : Bytes → Bytes → Nat → BitVec 384

/-- Whether a firmware body that IMAGE_WRITE placed passes the digest and both signature checks of R375 and R492. -/
opaque firmwareVerifies : Bytes → Bool

/-- The fused voltage table (R448): the set point in steps of 5 mV above 680 mV for a fabric state and temperature. -/
opaque avsTable : Nat → Nat → BitVec 5

/-- The configuration space of a CXL device as it was copied for a sharer (R283), by draw, link, logical device and offset. -/
opaque deviceConfig : Nat → Nat → Nat → Nat → BitVec 32

/-- What a configuration register of the upstream port, of a vPPB or of the Basin LD that PCIe Base 7.0 or CXL 3.2 gives reads
(R286, R287), by function, offset and what was last written to it. -/
opaque standardConfig : Nat → Nat → Nat → BitVec 32

/-- Where the PCIe Capability of a vPPB and of an upstream port lies in its configuration space (R287 gives no offset). -/
opaque pcieCap : BitVec 6

/-- Where the DPC extended capability of a vPPB lies in its configuration space, in dwords (R287 gives no offset). -/
opaque dpcCap : BitVec 9

/-- The slicers of a lane, each recalibrated in one 2 µs step of a rotation (R272); the manual gives no number. -/
opaque slicers : BitVec 9

end Sys2Proof.Config
end

