-- ==== Sys2Proof/Machine/Bytes.lean ====
section
/-! DEFINITION. Fields of byte strings and of register words: little-endian reads and writes (R350), bit fields
`[hi:lo]`, and association tables with one entry per key. -/

namespace Sys2Proof.Machine

/-- The byte at offset `i`, 0 beyond the end. -/
def byteAt (b : Bytes) (i : Nat) : Nat := (b.getD i 0).toNat

/-- The `n`-byte little-endian field at offset `off` (R350). -/
def leN (b : Bytes) (off : Nat) : Nat → Nat
  | 0 => 0
  | n + 1 => byteAt b off + 256 * leN b (off + 1) n

/-- `v` as `n` little-endian bytes (R350). -/
def nb : Nat → Nat → Bytes
  | 0, _ => []
  | n + 1, v => BitVec.ofNat 8 v :: nb n (v / 256)

/-- `n` zero bytes. -/
def zeros (n : Nat) : Bytes := List.replicate n 0

/-- `b` cut or zero-filled to exactly `n` bytes. -/
def fit (n : Nat) (b : Bytes) : Bytes := b.take n ++ zeros (n - b.length)

/-- `b` with `w` written at offset `off`. -/
def put (b : Bytes) (off : Nat) (w : Bytes) : Bytes :=
  fit off b ++ w ++ b.drop (off + w.length)

/-- The bytes `off` to `off + n - 1` of `b`. -/
def slice (b : Bytes) (off n : Nat) : Bytes := fit n (b.drop off)

/-- Bits `[hi:lo]` of a word. -/
def bits (v hi lo : Nat) : Nat := (v / 2 ^ lo) % 2 ^ (hi + 1 - lo)

/-- 1 for true, 0 for false. -/
def b2n (b : Bool) : Nat := if b then 1 else 0

/-- `v` with bit `k` set. -/
def setBit (v k : Nat) : Nat := if v.testBit k then v else v + 2 ^ k

/-- `v` with bit `k` clear. -/
def clrBit (v k : Nat) : Nat := if v.testBit k then v - 2 ^ k else v

/-- The word whose bit `k` is `p k`, for `k` below `n`. -/
def bitsOf (p : Nat → Bool) : Nat → Nat
  | 0 => 0
  | n + 1 => bitsOf p n + (if p n then 2 ^ n else 0)

/-- The two's complement of an integer in `n` bytes. -/
def intBytes (n : Nat) (v : Int) : Bytes := nb n (v % (256 ^ n : Nat)).toNat

/-- A signed reading of an `n`-bit field. -/
def signed (n v : Nat) : Int := if v % 2 ^ n < 2 ^ (n - 1) then (v % 2 ^ n : Nat) else (v % 2 ^ n : Nat) - (2 ^ n : Nat)

/-- The smallest multiple of `m` at or above `v` (`m` not 0). -/
def ceilTo (v m : Nat) : Nat := ((v + m - 1) / m) * m

/-- Division rounded up. -/
def ceilDiv (v m : Nat) : Nat := (v + m - 1) / m

/-- One bit of the CRC-8 with polynomial x^8 + x^2 + x + 1 (R102, R468). -/
def crc8Bit (c : BitVec 8) : BitVec 8 := if c.getLsbD 7 then (c <<< 1) ^^^ 0x07#8 else c <<< 1

/-- That CRC-8 continued over one byte. -/
def crc8Byte (c b : BitVec 8) : BitVec 8 := (List.range 8).foldl (fun x _ => crc8Bit x) (c ^^^ b)

/-- The CRC-8 of R102 and R468: initial value 0, no reflection, no final XOR. -/
def crc8 (b : Bytes) : Byte := b.foldl crc8Byte 0

/-- A table: a list of keys with their values, in order of first writing. -/
abbrev Tbl (κ α : Type) := List (κ × α)

variable {κ α : Type}

/-- The entry of a key. -/
def Tbl.get? [DecidableEq κ] : Tbl κ α → κ → Option α
  | [], _ => none
  | (k', v) :: t, k => if k' = k then some v else Tbl.get? t k

/-- The entry of a key, or `d`. -/
def Tbl.getD [DecidableEq κ] (t : Tbl κ α) (k : κ) (d : α) : α := (Tbl.get? t k).getD d

/-- The table with the entry of `k` set to `v`. -/
def Tbl.set [DecidableEq κ] : Tbl κ α → κ → α → Tbl κ α
  | [], k, v => [(k, v)]
  | (k', v') :: t, k, v => if k' = k then (k, v) :: t else (k', v') :: Tbl.set t k v

/-- The table without the entry of `k`. -/
def Tbl.erase [DecidableEq κ] (t : Tbl κ α) (k : κ) : Tbl κ α := t.filter fun e => ! decide (e.1 = k)

/-- The table with the entry of `k` (or `d`) changed by `f`. -/
def Tbl.upd [DecidableEq κ] (t : Tbl κ α) (k : κ) (d : α) (f : α → α) : Tbl κ α :=
  t.set k (f (t.getD k d))

/-- The keys of a table. -/
def Tbl.keys (t : Tbl κ α) : List κ := t.map (·.1)

/-- An element placed before the first that it does not come after. -/
def insertBy (le : α → α → Bool) (x : α) : List α → List α
  | [] => [x]
  | y :: t => if le x y then x :: y :: t else y :: insertBy le x t

/-- A list in ascending order; equal elements keep their order. -/
def sortBy (le : α → α → Bool) (l : List α) : List α := l.foldr (insertBy le) []

/-- Numbers in ascending order. -/
def ascending (l : List Nat) : List Nat := sortBy (fun a b => decide (a ≤ b)) l

/-- The first number at or cyclically after `p` below `n` for which `c` holds: the winner of a rotating-priority
arbiter whose pointer is `p` (R520). -/
def rotate (n p : Nat) (c : Nat → Bool) : Option Nat :=
  ((List.range n).map fun i => (p + i) % n).find? c

/-- The members of `0 … n-1` for which `c` holds, in cyclic order upward from `p` (R520). -/
def rotated (n p : Nat) (c : Nat → Bool) : List Nat :=
  ((List.range n).map fun i => (p + i) % n).filter c

end Sys2Proof.Machine
end

