-- ==== Sys2Proof/Machine/Types.lean ====
section
/-! DEFINITION. The parts of the state that the management side of the device holds: modes, clocks, mailboxes and
staging, security, faults, counters, network domains, supplies, slots, sideband and flash. Every field's default is
its value after a cold reset. Times named `t6` count sixths of a nanosecond since power-good; times named `ns` are
values of the 40-bit timebase (R456). -/

namespace Sys2Proof.Machine

/-- The twelve operating modes (Table MODE-1). -/
inductive Mode where
  | shelf | coldBoot | safe | configure
  | runDeterministic | runBalanced | runThroughput | runSecure | runPowerCapped
  | degraded | service | diagnostic
deriving DecidableEq, Repr

/-- The Run profile (Table MODE-3). -/
inductive Profile where
  | none | deterministic | balanced | throughput | secure | powerCapped
deriving DecidableEq, Repr

/-- Status codes of a Bilod response (Table MBX-10). -/
inductive Status where
  | success | inProgress | unsupported | invalidField | accessDenied | busy | entropyPending | stagingConflict
  | resourceExhausted | wrongMode | aborted | integrityFailure | shareExceeded | contractInfeasible
deriving DecidableEq, Repr

/-- What a pending mode change leads to, by the steps of Table MODE-6. -/
inductive Target where
  /-- Step 4: Configure to a Run profile. -/
  | toRun (p : Profile)
  /-- Steps 5 and 14: another profile, or the current one named again. -/
  | newProfile (p : Profile)
  /-- Step 8: Service. -/
  | service
  /-- Step 10: Configure, by stopping admission and draining. -/
  | configure
  /-- Step 3: Configure, by the image load. -/
  | load
  /-- Step 11. -/
  | diagnostic (enter : Bool)
  /-- Step 12 by MODE_SET. -/
  | safe
deriving DecidableEq, Repr

/-- A commanded mode change in progress (R30, R521): its target, the commit epoch at which it acts or begins to
drain, whether that epoch has passed, the cap and the force flag of MODE_SET, and the long command it completes. -/
structure ModePend where
  target : Target
  epoch  : Nat
  begun  : Bool := false
  cap    : Nat := 0
  force  : Bool := false
  long   : Option (Mbx × Nat) := none
deriving DecidableEq, Repr

/-- A service operation (R39): the code of SERVICE_BEGIN, its instance, whether a hot-plug procedure runs it
(R299), its step and when it began, and the epoch at which Service ends once the operation has ended. -/
structure Svc where
  op      : Nat
  inst    : Nat
  hotplug : Bool := false
  begun   : Bool := false
  step    : Nat := 1
  t6      : Nat := 0
  endAt   : Option Nat := none
deriving DecidableEq, Repr

/-- Time and clocks: time since power-good, the timebase in forty-eighths of a nanosecond, the fabric cycle counter
with the sixths of the cycle in progress, the fabric clock, and the slewing still owed, in forty-eighths (R223). -/
structure Clk where
  t6     : Nat := 0
  tb48   : Nat := 0
  cyc    : Nat := 0
  rem6   : Nat := 0
  slow   : Bool := false
  slew   : Int := 0
  slewT  : Nat := 0
deriving DecidableEq, Repr

/-- The mode machinery beside DEV_MODE.mode and DEV_MODE.profile. `auto` is a change into Degraded (`true`) or back
to Run (`false`) with its epoch (steps 6 and 7), `back` the epoch of a return decided before the entry acts; `fenceReply` the links a forced entry into Run-Secure fenced. -/
structure ModeCtl where
  pend       : Option ModePend := none
  auto       : Option (Bool × Nat) := none
  back       : Option Nat := none
  capW       : Nat := 0
  svc        : Option Svc := none
  fenceReply : List Nat := []
  configureT : Nat := 0
  settled    : Bool := false
  startProf  : Profile := .none
  startCap   : Nat := 0
  fatalTimes : List Nat := []
  stayInSafe : Bool := false
  coolUntil  : Option Nat := none
  bothLost   : Bool := false
  romBad     : Bool := false
deriving DecidableEq, Repr

/-- An event record (Table MBX-12). -/
structure EvRec where
  code   : Nat
  opcode : Nat := 0
  tag    : Nat := 0
  status : Nat := 0
  time   : Nat
  reach  : Nat := 0x3F
  detail : Bytes := []
deriving DecidableEq, Repr

/-- A long command in progress (R349), with its final status and payload once its operation has ended. -/
structure Long where
  tag    : Nat
  opcode : Nat
  sid    : Nat := 0
  fin    : Option (Status × Bytes) := none
deriving DecidableEq, Repr

/-- A response in a mailbox: its header fields, the whole payload, and the segment loaded (R348). -/
structure Resp where
  opcode  : Nat
  tag     : Nat
  status  : Status
  sid     : Nat
  payload : Bytes
  seg     : Nat := 0
  dropped : Bool := false
deriving DecidableEq, Repr

/-- A mailbox with its event queue (R341, R345, R346, R349, R355). `wait` is set while a command that answers at a
commit epoch is in service; `perr` lists the views whose protocol_error is set. -/
structure Mailbox where
  area    : Bytes := []
  rung    : Option (Nat × Frame) := none
  wait    : Bool := false
  resp    : Option Resp := none
  claim   : Option Nat := none
  claimT  : Nat := 0
  perr    : List View := []
  mask    : Nat := 0
  evq     : List EvRec := []
  lost    : Bool := false
  longs   : List Long := []
  results : List (Nat × Bytes) := []
deriving DecidableEq, Repr

/-- A response owed at a commit epoch (COMMIT, MODE_SET; R359, R40). -/
structure Owed where
  mbx     : Mbx
  opcode  : Nat
  tag     : Nat
  sid     : Nat
  payload : Bytes
  epoch   : Nat
  /-- The staged set of a COMMIT, or `none` for a MODE_SET. -/
  set     : Option Nat
deriving DecidableEq, Repr

/-- Which MPC state the standby is in (MPC_STATUS_GET). -/
inductive Standby where
  | ready | loading | outOfService
deriving DecidableEq, Repr

/-- The management processors and mailboxes. `slots` counts the command slots each Reach has used in the frame;
`upd` is the step of a live firmware activation or switchover (Table MBX-15), `paused` the pause of R339, R364. -/
structure Mgmt where
  mbxs      : Tbl Mbx Mailbox := []
  active    : Nat := 0
  standby   : Standby := .ready
  shed      : Nat := 0
  busyPct   : Nat := 0
  shedT     : Nat := 0
  handovers : Nat := 0
  served    : Nat := 0
  paused    : Bool := false
  slots     : Tbl Nat Nat := []
  frameT    : Nat := 0
  lastReach : Nat := 0
  heartbeat : Nat := 0
  owed      : List Owed := []
  oobDrop   : Nat := 0
  switching : Option (Mbx × Nat) := none
  verified  : Bool := false
  standbyReady : Bool := false
deriving DecidableEq, Repr

/-- A configuration item: the opcode of the command that sets it and up to three indices of the item. -/
structure CfgKey where
  op : Nat
  a  : Nat := 0
  b  : Nat := 0
  c  : Nat := 0
deriving DecidableEq, Repr

/-- A staged set (R357, R358): its generation, the changed items (`none`: staged back to the default), the epoch of
an armed commit, and resynchronisation. -/
structure Staged where
  gen     : Nat := 0
  changes : Tbl CfgKey (Option Bytes) := []
  armed   : Option Nat := none
  resync  : Bool := false
  /-- The long command that completes at the epoch, if the commit answered IN_PROGRESS. -/
  long    : Option (Mbx × Nat) := none
  /-- The commit waits for an ART bank (R88). -/
  waits   : Bool := false
deriving DecidableEq, Repr

/-- A commit of the set is accepted and has not acted (R359, R88). -/
def Staged.accepted (s : Staged) : Bool := s.armed.isSome || s.waits

/-- The configuration: active items, staged sets (key 32 is the device-wide set), which of the rule sets A and B of
a Reach is active and when it last flipped. -/
structure Conf where
  active  : Tbl CfgKey Bytes := []
  staged  : Tbl Nat Staged := []
  setB    : Tbl Nat Bool := []
  flipT   : Tbl Nat Nat := []
deriving DecidableEq, Repr

/-- A credential slot (R377, R381). -/
structure Cred where
  enabled : Bool := false
  role    : Nat := 1
  method  : Nat := 0
  key     : Bytes := []
  salt    : Bytes := []
  iter    : Nat := 0
  factory : Bool := false
  fails   : Nat := 0
  k       : Nat := 0
  until6  : Option Nat := none
deriving DecidableEq, Repr

/-- An open session (R380). -/
structure Session where
  id      : Nat
  slot    : Nat
  role    : Nat
  mbx     : Mbx
  last6   : Nat
  factory : Bool
deriving DecidableEq, Repr

/-- A challenge (R379). -/
structure Challenge where
  slot  : Nat
  mbx   : Mbx
  nonce : Bytes
  t6    : Nat
deriving DecidableEq, Repr

/-- An audit record without its HMAC (R387). -/
structure Audit where
  seq     : Nat
  time    : Nat
  code    : Nat
  slot    : Nat
  mbx     : Nat
  outcome : Nat
  mac     : Bytes
deriving DecidableEq, Repr

/-- The security subsystem. `keyGen` counts the audit keys made so far; the audit key itself is a free value of it. `chain` is
the HMAC of the last audit record under the key in use. -/
structure Sec where
  slots     : Tbl Nat Cred := []
  sessions  : List Session := []
  challs    : List Challenge := []
  approved  : Bool := false
  errState  : Bool := false
  failed    : Nat := 0
  seeded    : Bool := false
  restarts  : Nat := 0
  drbgReqs  : Nat := 0
  reseedT   : Nat := 0
  secVer    : Nat := 0
  revoked   : Nat := 0
  tamper    : Bool := false
  tamperLog : List Nat := []
  debug     : Bool := false
  audit     : List Audit := []
  auditSeq  : Nat := 0
  auditOver : Nat := 0
  keyGen    : Nat := 0
  chain     : Bytes := []
  storeLost : Bool := false
  spdm      : List (SpdmPort × Nat) := []
  spdmOut   : Option (SpdmPort × Nat × Bytes) := none
deriving DecidableEq, Repr

/-- A history entry of the fault collector (Table FAULT-6). -/
structure Hist where
  msg    : FaultMsg
  flags  : Nat
  index  : Nat
  tTake  : Nat
deriving DecidableEq, Repr

/-- A record of the fault ring (R500): a message as its history entry, or a fatal record of R403 with FAULT_STATUS and its
history entries, presented by its snapshot; the sector that holds it. -/
structure NvRec where
  h      : Hist
  fatal  : Option (Nat × List Hist) := none
  sector : Nat := 0
deriving DecidableEq, Repr

/-- The fault collector. Scope 32 is the device. `causes` are the redundancy causes present in the layout of
FAULT_STATUS [63:32]; `fatal` is the stage of a fatal sequence (R403): the line was driven at `t6`, and whether a
message identified it. -/
structure Flt where
  status  : Nat := 0
  rstat   : Tbl Nat Nat := []
  snaps   : Tbl (Nat × Nat) Hist := []
  hist    : List Hist := []
  next    : Nat := 0
  lost    : Nat := 0
  fam     : Tbl (Nat × Nat) Nat := []
  cnt     : Tbl (Nat × Nat) Nat := []
  seqTx   : Tbl (Nat × Nat) Nat := []
  seqRx   : Tbl (Nat × Nat) Nat := []
  transit : List FaultMsg := []
  line    : Option Nat := none
  fatal   : Bool := false
  retained : Bool := false
  nvWait  : List Hist := []
  nvLog   : List NvRec := []
  nvBase  : Nat := 0
  aer     : Tbl Nat Nat := []
deriving DecidableEq, Repr

/-- A programmable counter (R415, Table TELE-3). -/
structure Counter where
  cfg    : Nat := 0
  reload : Nat := 0
  value  : Nat := 0
  ovf    : Bool := false
deriving DecidableEq, Repr

/-- The hold-off of an event source (R414): when it last posted, and the members that advanced since, each with the
instance counted last and its Reach. -/
structure Source where
  last6 : Nat
  pend  : List (Nat × Nat × Nat) := []
deriving DecidableEq, Repr

/-- The sample buffer of a tile (R422). -/
structure Samples where
  recs    : List Bytes := []
  dropped : Nat := 0
  lostBefore : Bool := false
deriving DecidableEq, Repr

/-- A bandwidth window of a link (R423): the count in progress and the window last published. `newK` is a new size with
the time it was set. -/
structure BwWin where
  k      : Nat := 10
  newK   : Option (Nat × Nat) := none
  start  : Nat := 0
  tx     : Nat := 0
  rx     : Nat := 0
  seq    : Nat := 0
  pTx    : Nat := 0
  pRx    : Nat := 0
  pStart : Nat := 0
  pK     : Nat := 10
  pSeq   : Nat := 0
  pPart  : Bool := false
  fresh  : Bool := false
deriving DecidableEq, Repr

/-- A background task (Table TELE-9). -/
structure Task where
  period : Nat
  t6     : Nat := 0
  passes : Nat := 0
  lastMs : Nat := 0
  missed : Bool := false
deriving DecidableEq, Repr

/-- Counters and telemetry. Tile 64 stands for the device counter block. `capture` holds for a counter with a pending
sample when it wrapped and how many messages it accepted since; `disarm` lists tiles ungated with no event since. -/
structure Tele where
  tally   : Tbl (Nat × Nat) Nat := []
  rtally  : Tbl (Nat × Nat × Nat) Nat := []
  src     : Tbl Nat Source := []
  ctr     : Tbl (Nat × Nat) Counter := []
  samp    : Tbl Nat Samples := []
  capture : Tbl (Nat × Nat) (Nat × Nat) := []
  disarm  : List Nat := []
  bw      : Tbl Nat BwWin := []
  trOn    : Bool := false
  trStop  : Bool := false
  trMask  : Nat := 0
  trRecs  : List Bytes := []
  trBase  : Nat := 0
  trCount : Nat := 0
  trDone  : Bool := false
  trPush  : Nat := 0
  telLink : Nat := 0
  telE    : Nat := 6
  telMask : Nat := 0
  telBase : Nat := 0
  telMs   : Nat := 100
  telSeq  : Nat := 0
  telCarry : List Bytes := []
  telT    : Nat := 0
  telTally : Tbl (Nat × Nat) Nat := []
  tasks   : Tbl Nat Task := []
deriving DecidableEq, Repr

/-- Statistics of a stop on one network (R334). -/
structure NocStat where
  packets : Nat := 0
  flits   : Nat := 0
  latSum  : Nat := 0
  latMax  : Nat := 0
deriving DecidableEq, Repr

/-- Where a domain is in the Sluice (Table NOC-6): fencing since `t6` with a cause, or off since a timebase value. -/
inductive DomSt where
  | fencing (t6 cause : Nat)
  | off (tOff cause : Nat)
deriving DecidableEq, Repr

/-- The internal network. A domain without an entry in `dom` is on. -/
structure Noc where
  stats  : Tbl (Nat × Nat) NocStat := []
  dom    : Tbl Nat DomSt := []
  wakeQ  : List Nat := []
deriving DecidableEq, Repr

/-- Supplies, clocks, temperatures (chapters 20 and 23). -/
structure Pwr where
  railsBad : List Nat := []
  avsMv    : Nat := 750
  avsFault : Bool := false
  avsFails : Nat := 0
  avsT     : Option Nat := none
  pmb      : List Nat := []
  pmbMean  : List Nat := []
  overMs   : Nat := 0
  underMs  : Nat := 0
  pmbQuiet : Bool := false
  coreEn   : Bool := true
  coreEnT  : Nat := 0
  fab      : Nat := 0
  fabNext  : Option (Nat × Nat) := none
  clk      : Nat := 0
  valid    : List Bool := [false, false]
  off      : List Int := [0, 0]
  failovers : Nat := 0
  failT    : Option Nat := none
  perst    : List Nat := []
  temps    : List Int := []
  hot6     : List (Option Nat) := []
  hot110   : List (Option Nat) := []
  cool6    : Option Nat := none
  warn     : Bool := false
  clearT   : Nat := 0
  coldT    : Option Nat := none
deriving DecidableEq, Repr

/-- The states of a slot power channel (SLOT_STATUS_GET). -/
inductive ChanSt where
  | off | waiting | ramping | on | retry | latched | feedLost | changeover
deriving DecidableEq, Repr

/-- A slot power channel (chapter 19). -/
structure Chan where
  st      : ChanSt := .off
  feed    : Option Nat := none
  next    : Option Nat := none
  tries   : Nat := 0
  pg      : Bool := false
  enh     : Bool := false
  t6      : Nat := 0
  pgT     : Nat := 0
  ma      : Nat := 0
  vout    : Nat := 0
  flagged : Bool := false
  range16 : Bool := false
  below   : Nat := 0
  moving  : Bool := false
  abandoned : Option Nat := none
deriving DecidableEq, Repr

/-- One feed of a feed group (R433, R434). -/
structure Feed where
  mv     : Nat := 0
  valid  : Bool := false
  warn   : Bool := false
  good6  : Nat := 0
deriving DecidableEq, Repr

/-- Slot power control: channels by tile, feeds by 2·group + feed. -/
structure Slots where
  ch    : Tbl Nat Chan := []
  feed  : Tbl Nat Feed := []
deriving DecidableEq, Repr

/-- The JTAG instructions (R480, R481). -/
inductive Jtag where
  | bypass | idcode | samplePreload | extest | extestPulse | extestTrain | clamp | highz | privateDebug (code : Nat)
deriving DecidableEq, Repr

/-- The sideband interfaces (chapter 21). `deb` is the debounced value of the 128 input bits, `run` the number of
equal scans of a new value by bit; `jtagDr` what the last JTAG instruction captured; `badSig` and `goodSig` count signatures. -/
structure Side where
  spiPrev   : Nat := 0
  spiOut    : Bytes := []
  spiPart   : Nat := 0
  spiCrc    : Nat := 0
  spiExtra  : Nat := 0
  uFrame    : Nat := 0
  uOver     : Nat := 0
  uBreak    : Nat := 0
  uFifo     : List Byte := []
  pecFail   : Nat := 0
  chFaults  : Nat := 0
  chOk      : Bool := false
  i3cAddr   : Option Nat := none
  eid       : Nat := 0
  ctlOther  : Nat := 0
  partMsg   : Bool := false
  jtag      : Jtag := .idcode
  jtagDr    : Nat := 0
  scanned   : Bool := false
  deb       : Nat := 2 ^ 128 - 1
  last      : Nat := 2 ^ 128 - 1
  run       : Tbl Nat Nat := []
  badSig    : Nat := 0
  goodSig   : Nat := 0
  indOut    : Nat := 0
  indOn     : Nat := 0
  indBlink  : Nat := 0
  blinkOn   : Bool := false
deriving DecidableEq, Repr

/-- A flash copy (Table IMAGE-2): whether it is valid under the checks of R492 that do not depend on the running firmware, its
header fields, a configuration copy's records of type and value, and the bytes of its region. -/
structure FlashCopy where
  valid  : Bool := false
  seq    : Nat := 0
  major  : Nat := 0
  minor  : Nat := 0
  secVer : Nat := 0
  keyPair : Nat := 0xFF
  recs   : List (Nat × Bytes) := []
  data   : Bytes := []
deriving DecidableEq, Repr

/-- The image command in progress (R498): its opcode, mailbox and tag, the copy it writes, what the copy holds once it is done, and
the final payload. -/
structure FlashJob where
  op    : Nat
  mbx   : Mbx
  tag   : Nat
  copy  : Nat
  after : FlashCopy
  reply : Bytes
deriving DecidableEq, Repr

/-- Flash, image and logs (chapter 22). Copies: 0 firmware A, 1 firmware B, 2 configuration A, 3 configuration B. `retired` are the
sectors retired, `fails` the failures of a sector, `logLost` the entries that a ring refused; `settings` is the DEVICE_SETTINGS
record in force, empty where the image holds none. -/
structure Img where
  copy    : Tbl Nat FlashCopy := []
  fwUse   : Option Nat := none
  cfgUse  : Option Nat := none
  major   : Nat := 0
  minor   : Nat := 0
  cmd     : Option FlashJob := none
  retired : List Nat := []
  fails   : Tbl Nat Nat := []
  logLost : Nat := 0
  settings : Bytes := []
deriving DecidableEq, Repr

end Sys2Proof.Machine
end

