-- ==== Sys2Proof/Machine/TypesData.lean ====
section
/-! DEFINITION. The parts of the state that the data path holds: messages at the Weirs, calendars, the tracker, the
cell fabric and its cells, buffers and the Basin, egress scheduling, ordering and reservations, Iggevo links, the
bridge, lanes, CXL ports, virtual switches and Reaches. Every field's default is its value after a cold reset.
Links and Basin memory ports are numbered as Table CELL-2 does: 0–255, 0x100, 0x101. -/

namespace Sys2Proof.Machine

/-- An initiator (R168): an ingress CXL link, the MPC, or the (origin switch id, origin link) pair of R230. -/
inductive Init where
  | link (l : Nat)
  | mpc
  | far (id link : Nat)
deriving DecidableEq, Repr

/-- What the bridge header of an arriving bridged request holds for its answer (R239): the receiving link, tag,
generation and origin. -/
structure FarHdr where
  link   : Nat
  tag    : Nat
  gen    : Nat
  origId : Nat
  origLk : Nat
deriving DecidableEq, Repr

/-- Where a message goes: a link or Basin memory port (with its LD), every member of a multicast group, or a window's
status page. -/
inductive Dest where
  | link (egress ld : Nat)
  | group (g : Nat)
  | statusPage
deriving DecidableEq, Repr

/-- A message: in an ingress FIFO before its admission (R42), or admitted and in flight. Each part of a split request
(R93), each burst of a cut request (R234) and each copy of a multicast (R116) is a message of its own once admitted;
`grp` is the id of the message it came from. `dst` is set for a message that Table CXLP-3 routes without the ART, and
for every admitted message; `off` is the Basin memory offset at a Basin memory port. `rsp` names the tracker entry
that a response answers and `forGrp` the group of the request; `trk` is a request's own entry. `queued` marks a
message that the device generated (R69), whose source is `link`; `cred` the credit class and the slots of a message that arrived on an
Iggevo link and holds its credit (R212); `delta` is Δ of R114 in the profile of its admission; `window` a request inside a vPPB bridge window
(R285); `resv` an access through a reservation alias (R186). -/
structure Msg where
  id       : Nat
  grp      : Nat := 0
  link     : Nat
  kind     : Nat
  cls      : Nat
  reach    : Nat
  init     : Init
  acc      : Acc := .none
  priv     : Bool := false
  addr     : Nat := 0
  off      : Nat := 0
  len      : Nat := 0
  data     : Bytes := []
  rsp      : Option Nat := none
  forGrp   : Nat := 0
  trk      : Option Nat := none
  dst      : Option Dest := none
  ld       : Nat := 0
  window   : Bool := false
  resv     : Bool := false
  device   : Bool := false
  early    : Bool := false
  mcast    : Bool := false
  split    : Bool := false
  tIn      : Nat := 0
  tP       : Nat := 0
  dl       : Nat := 0
  colour   : Nat := 0
  arrCol   : Option Nat := none
  refusals : Nat := 0
  firstT   : Option Nat := none
  evalT    : Option Nat := none
  demoted  : Bool := false
  eaOk     : Bool := false
  far      : Option FarHdr := none
  path     : Option (Nat × Nat) := none
  poison   : Bool := false
  status   : Nat := 0
  be       : Nat := 0xFF
  coh      : Nat := 0
  queued   : Bool := false
  delta    : Nat := 0
  cred     : Option (Nat × Nat) := none
deriving DecidableEq, Repr

/-- A tracker entry (R50): the transaction it holds, its initiator and target. `grp` is the request's group; `done`
holds once the target has answered, with `status` and `buf` what it answered; `performed` as Table ORDER-1 defines it;
`left` the members of a multicast that have not answered, `coh` the strongest state that any reported; `parts` the
entries of a request of several parts; `faulted` a part of the same request that failed, with its status; `rspOut` a
response on its way to the initiator, `limit` the response timeout of R241 under which the request was admitted; `cut` that its
initiator can no longer receive the response (R243). -/
structure Trk where
  grp     : Nat
  reach   : Nat
  cls     : Nat
  strict  : Bool
  init    : Init
  src     : Nat
  dst     : Nat
  ld      : Nat := 0
  kind    : Nat
  acc     : Acc
  addr    : Nat
  off     : Nat := 0
  len     : Nat
  msg     : Nat
  t6      : Nat
  greenRq : Bool := false
  device  : Bool := false
  resv    : Bool := false
  far     : Option FarHdr := none
  gen     : Nat := 0
  orphan  : Option Nat := none
  early   : Bool := false
  done    : Bool := false
  performed : Bool := false
  status  : Nat := 0
  buf     : Bytes := []
  poison  : Bool := false
  group   : Option Nat := none
  left    : List Nat := []
  lost    : List Nat := []
  coh     : Nat := 0
  faulted : Bool := false
  faultSt : Nat := 0
  parts   : Nat := 1
  rspOut  : Bool := false
  limit   : Nat := 0
  cut     : Bool := false
deriving DecidableEq, Repr

/-- A token bucket pair of a policer (R54): committed and peak tokens, in bytes × 6000, and when they were filled. -/
structure Bucket where
  c  : Int
  p  : Int
  t6 : Nat
deriving DecidableEq, Repr

/-- A near path reservation (R64, R66). `stage`: 0 PATH_HOLD sent, 1 confirmed and PATH_ACTIVATE sent, 2 that answered; `t6` when the
last of the two was sent. -/
structure Path where
  reach  : Nat
  egress : Nat
  rate   : Nat
  burst  : Nat
  q      : Nat
  hops   : List Bytes
  t6     : Nat
  stage  : Nat := 0
  phase  : Nat := 0
  epoch  : Option Nat := none
  active : Bool := false
  suspended : Bool := false
  freeing : Bool := false
  late   : List Nat := []
  long   : Option (Mbx × Nat) := none
deriving DecidableEq, Repr

/-- Path cells held for another switch (R247). -/
structure FarPath where
  link   : Nat
  egress : Nat
  reach  : Nat
  q      : Nat
  phase  : Nat
  hop    : Nat
  hops   : Nat
  record : Bytes
  t6     : Nat
  epoch  : Option Nat := none
  active : Bool := false
  suspended : Bool := false
deriving DecidableEq, Repr

/-- The message that a tile's Weir admitted last, as a sample record would show it (Table TELE-6). -/
structure Adm where
  id     : Nat
  reach  : Nat
  cls    : Nat
  link   : Nat
  egress : Nat
  body   : Bytes
deriving DecidableEq, Repr

/-- The Weirs, calendars and tracker. `cal` holds the cells taken by (egress, absolute slot, taker): 0–31 the reserved
cells of a Reach, 32 unreserved, 33 the floor cell. The pressure snapshot (R59) keeps the components as they stood at
the last 8 ns multiple, and `busyL` the egress links that were not idle then (R114). `calU` is the payload rate from which the calendar
of a link derives whose width changed since the last commit epoch (R216). `fly` holds the messages admitted
and not yet departed, by id. -/
structure Weir where
  q       : List Msg := []
  fly     : Tbl Nat Msg := []
  nextMsg : Nat := 1
  busyL   : List Nat := []
  cal     : Tbl (Nat × Nat × Nat) Nat := []
  trk     : Tbl Nat Trk := []
  bucket  : Tbl (Nat × Nat × Nat) Bucket := []
  bulkCap : Tbl (Nat × Nat) (Int × Nat) := []
  lfsr    : Tbl Nat Nat := []
  pQueue  : Tbl (Nat × Nat) Nat := []
  pCentral : Nat := 0
  pBasin  : Tbl Nat Nat := []
  pTrk    : Tbl (Nat × Nat) Nat := []
  stopped : Bool := false
  paths   : Tbl Nat Path := []
  nextPath : Nat := 1
  gateUnc : List Nat := []
  lastAdm : Tbl Nat Nat := []
  recent  : Tbl Nat Adm := []
  calU    : Tbl Nat Nat := []
deriving DecidableEq, Repr

/-- The address rule banks: which of the four are in service, and votes lost. -/
structure Art where
  up      : List Bool := [true, true, true, true]
deriving DecidableEq, Repr

/-- Where a cell is. -/
inductive Loc where
  /-- In an input FIFO of a source tile: pinned toward an intermediate tile, or sprayed. -/
  | input (tile : Nat) (pinTo : Option Nat)
  /-- On its way from a tile to a tile, in stage 1 or 2. -/
  | flight (stage src tile plane : Nat)
  /-- In a FIFO of an intermediate tile. -/
  | inter (tile : Nat)
  /-- Set aside at an intermediate after a refusal (R112). -/
  | aside (tile : Nat)
  /-- Waiting in a Lock chamber. -/
  | lock
  /-- In queue `q` of an egress link. -/
  | egress (q : Nat)
  /-- At a Basin memory port. -/
  | port
  /-- Held in the Basin, on a stack. -/
  | basin (stack : Nat)
  /-- Sent on the link, its message not yet departed. -/
  | sent
  /-- Discarded after it had taken a sequence number, its message not yet ended. -/
  | lost
deriving DecidableEq, Repr

/-- A cell: the header fields of Table CELL-1, its payload, and where it is. `elig` is the cycle from which it may
move on (R98), `ord` its place in the order of its FIFO, `resent` that a transfer of it failed (R101), `numbered` that
it entered stage 1 and took its sequence number. A hold notice (kind 0xB) carries the number it announces. -/
structure Cell where
  id     : Nat
  msg    : Nat
  dst    : Nat
  src    : Nat
  cls    : Nat
  reach  : Nat
  plane  : Nat := 0
  pin    : Bool
  mcast  : Bool := false
  colour : Nat := 0
  epoch  : Bool := false
  seq    : Nat := 0
  dl     : Nat := 0
  trk    : Nat := 0
  kind   : Nat
  sop    : Bool := true
  eop    : Bool := true
  len    : Nat := 0
  bsn    : Bool := false
  ct     : Bool := false
  q      : Nat := 0
  data   : Bytes := []
  loc    : Loc
  elig   : Nat := 0
  resent : Bool := false
  numbered : Bool := false
  ord    : Nat := 0
deriving DecidableEq, Repr

/-- The key of a sequence space: source (link, port or tile), destination, space, epoch parity. -/
structure SpaceKey where
  src : Nat
  dst : Nat
  sp  : SeqSpace
  par : Bool
deriving DecidableEq, Repr

/-- The state of a queue of Q3–Q7 (Table BASIN-3). -/
inductive QSt where
  | direct | overflow | saturated
deriving DecidableEq, Repr

/-- A pattern change that is pending (R123, R461): the tiles that leave or join, and when it was requested. -/
structure Repat where
  tiles : List Nat
  join  : Bool
  t6    : Nat
deriving DecidableEq, Repr

/-- A REPLICATE_WRITE in progress (R129): its long command, group, parts not yet ended, members that did not take it, and
whether a part failed its rules. -/
structure Repl where
  long    : Mbx × Nat
  group   : Nat
  parts   : Nat
  lost    : List Nat := []
  faulted : Bool := false
deriving DecidableEq, Repr

/-- The cell fabric and the Lock chambers. `fails` holds, by plane, when its transfers failed; `seqNext` the next number
of a space, `relNext` the next to be released, `acked` the releases acknowledged; `holds` the numbers under hold
notice, `gone` those declared missing, `dead` the messages ended by that;
`closing` the old spaces whose epoch close cell is not yet released; `bcast` the queue states that the intermediates
last received. -/
structure Fab where
  inSvc   : List Nat := []
  planes  : List Bool := [true, true]
  fails   : Tbl Nat (List Nat) := []
  parity  : Bool := false
  count   : Nat := 0
  repat   : Option Repat := none
  seqNext : Tbl SpaceKey Nat := []
  relNext : Tbl SpaceKey Nat := []
  acked   : Tbl SpaceKey Nat := []
  holds   : List (SpaceKey × Nat) := []
  gone    : List (SpaceKey × Nat) := []
  dead    : List Nat := []
  closing : List SpaceKey := []
  cells   : List Cell := []
  nextId  : Nat := 1
  nextOrd : Nat := 1
  alt     : Tbl Nat Bool := []
  bcast   : Tbl (Nat × Nat) QSt := []
  removed : List Nat := []
  repl    : Tbl Nat Repl := []
deriving DecidableEq, Repr

/-- The state of a Basin stack (BASIN_STATUS_GET). -/
inductive StackSt where
  | inService | lost | returning
deriving DecidableEq, Repr

/-- Buffers and the Basin (its memory is a field of the state of its own). `next` is the stack of the next diverted
cell of a queue; `errs` when uncorrectable lines were seen in a stack; `frame` the slot number within the controller's frame, `grant`
the requester that its last slot went to, `scrubAt` the next line that the Dredger reads; `rateU` the payload rates from which the hold
limits derive, as they stood at the last commit epoch (R133). -/
structure Bas where
  qst     : Tbl (Nat × Nat) QSt := []
  stack   : List StackSt := [.inService, .inService]
  clearing : List Nat := []
  next    : Tbl (Nat × Nat) Nat := []
  errs    : Tbl Nat (List Nat) := []
  frame   : Tbl Nat Nat := []
  grant   : Tbl Nat Nat := []
  scrubAt : Tbl Nat Nat := []
  rateU   : Tbl Nat Nat := []
  stopOvf : Bool := false
deriving DecidableEq, Repr

/-- A token-bucket shaper (R161) as it acts: tokens in 1/256 bytes. -/
structure Shaper where
  on    : Bool := false
  rate  : Nat := 0
  burst : Nat := 0
  tok   : Int := 0
deriving DecidableEq, Repr

/-- Egress scheduling: shapers by link and target (3–7 the queues, 8 the port); deficits by link, Reach and queue, and by
link and Reach; the queue visited last by link and Reach, the Reach served last by link; messages with the override
of R160; messages that have begun to depart, with the timebase of their first bit; stalled links; messages that
cross cut-through. -/
structure Egr where
  shp     : Tbl (Nat × Nat) Shaper := []
  def_    : Tbl (Nat × Nat × Nat) Int := []
  turn    : Tbl (Nat × Nat) Nat := []
  rTurn   : Tbl Nat Nat := []
  rDef    : Tbl (Nat × Nat) Int := []
  overMsg : List Nat := []
  begun   : Tbl Nat Nat := []
  stall   : List Nat := []
  cutMsgs : List Nat := []
deriving DecidableEq, Repr

/-- A line of an early-ack write queue (R176). `trk` is the id of its message, `setT` the flip time of the rule set under which
it was admitted (R178), `done` that the write is performed. -/
structure EaLine where
  link  : Nat
  init  : Init
  line  : Nat
  data  : Bytes
  trk   : Nat
  setT  : Nat
  reach : Nat
  done  : Bool := false
deriving DecidableEq, Repr

/-- A Fabric Flush in progress (R181): the tracker entry or long command to answer, the writes it waits for, the
links whose FLUSH_DONE it awaits with their early-acknowledged counts. `host` is the tracker entry of a host's flush,
`waits` the ids of the messages it waits for. -/
structure Flush where
  id    : Nat
  init  : Init
  reach : Nat
  t6    : Nat
  waits : List Nat
  far   : List (Nat × Nat) := []
  host  : Option Nat := none
  hdr   : Option FarHdr := none
  long  : Option (Mbx × Nat) := none
  hop   : Nat := 0
  limit : Nat := 600000
  sum   : Nat := 0
deriving DecidableEq, Repr

/-- A reservation monitor (R188). -/
structure Mon where
  init  : Init
  gran  : Nat
  size  : Nat
  reach : Nat
  t6    : Nat
  dst   : Nat
deriving DecidableEq, Repr

/-- A status record of an initiator (Table ORDER-6). -/
structure Srec where
  outcome : Nat := 0
  cause   : Nat := 0
  time    : Nat := 0
deriving DecidableEq, Repr

/-- Ordering, write queues, reservations. -/
structure Ord where
  ea     : List EaLine := []
  lost   : Tbl Init Nat := []
  flush  : List Flush := []
  nextF  : Nat := 1
  mons   : List Mon := []
  srec   : Tbl Init Srec := []
  losses : Tbl (Nat × Nat) Nat := []
  flushed : Tbl (Mbx × Nat) (Nat × Nat) := []
deriving DecidableEq, Repr

/-- States of an Iggevo link (Table LINK-11). -/
inductive IgSt where
  | down | detect | pattern | lock | exchange | active | retrain
deriving DecidableEq, Repr

/-- A sequenced flit held for replay (R206): its seq and its slots (descriptor and bytes). -/
structure Held where
  seq   : Nat
  slots : List (Nat × Bytes)
deriving DecidableEq, Repr

/-- A flit as its header and slots left (R196, R198): its CRC and parity follow from these. -/
structure SentFlit where
  hdr   : BitVec 128
  slots : List Bytes
deriving DecidableEq, Repr

/-- An Iggevo link: the link layer of chapter 9 and the bring-up of R265–R269. Times of link records are in
sixteenths of a nanosecond. `rx` lists the whole messages received, each with its credit class and t_in; `tracks` the
open tracks of the receiver, `txTrk` those of the transmitter by the message that each carries. `out` is the last flit that a command
sent, `lastSeq` the seq of the last sequenced one (R197), `exMask` the transmit mask of EXCHANGE, which time flits repeat. -/
structure Ig where
  st      : IgSt := .down
  seq     : Nat := 0
  sentAny : Bool := false
  e       : Nat := 0
  gotAny  : Bool := false
  ack     : Nat := 0xFFF
  since   : Nat := 0
  ackT    : Option Nat := none
  rr      : Nat := 0
  rrActed : Nat := 0
  outst   : Option Nat := none
  replay  : List Held := []
  resend  : List Held := []
  rcount  : Nat := 0
  rfirst  : Nat := 0
  build   : List (Nat × Bytes) := []
  req     : Option Nat := none
  txMask  : Nat := 0
  rxMask  : Nat := 0
  trained : Nat := 0
  cd      : Option (Nat × Nat) := none
  cdRx    : Option (Nat × Nat) := none
  widthLong : Option (Mbx × Nat) := none
  trainLong : Option (Mbx × Nat) := none
  pVer    : Nat := 0
  pFlags  : Nat := 0
  pId     : Nat := 0
  pRoot   : Nat := 0
  pHops   : Nat := 255
  pPool   : Nat := 0
  pMin    : List Nat := []
  pMax    : List Nat := []
  pRec    : Option Bytes := none
  seen    : Bool := false
  pSeen   : Bool := false
  exCd    : Nat := 0
  pCd     : Nat := 0
  resume  : Bool := false
  pResume : Nat := 0xFFFF
  tCable  : Int := 0
  thetas  : List Int := []
  tdOwn   : Bool := false
  tdBad   : Nat := 0
  tdGood  : Nat := 0
  conflict : Bool := false
  moved   : Bool := false
  tfSent  : Option Nat := none
  tfT     : Nat := 0
  echoTx  : Option Nat := none
  echoRx  : Option Nat := none
  lastTx  : Option Nat := none
  u       : List Nat := [0, 0, 0, 0, 0, 0]
  crLast  : List Nat := [0, 0, 0, 0, 0, 0]
  f       : List Nat := [0, 0, 0, 0, 0, 0]
  txN     : Nat := 0
  out     : Option SentFlit := none
  lastSeq : Nat := 0xFFF
  exMask  : Nat := 0
  tracks  : Tbl Nat (Nat × List Bytes) := []
  rx      : List (Bytes × Nat × Nat) := []
  txTrk   : Tbl Nat Nat := []
  gen     : Nat := 0
  limitHit : Bool := false
  t6      : Nat := 0
  stageT  : Nat := 0
  bad8    : Nat := 0
  width0  : Nat := 0
  -- bring-up and spare
  clkOn9  : Bool := false
  pOn9    : Bool := false
  pass    : Nat := 0
  am9     : Nat := 0
  judged  : Bool := false
  lane9   : Bool := false
  sub     : Nat := 0xF
  subTx   : Nat := 0xF
  lockCnt : Tbl Nat Nat := []
  locked  : Bool := false
  pLocked : Option AMark := none
  pTwice  : Bool := false
  subT    : Option Nat := none
  subReady : Bool := false
  mirror  : Option Nat := none
  pend    : List Nat := []
  subbed  : Option Nat := none
  subbedTx : Option Nat := none
  endSub  : Bool := false
  subLong : Option (Mbx × Nat) := none
  lastAm  : Option AMark := none
deriving DecidableEq, Repr

/-- The time part of the link layer (R224). -/
structure Tim where
  root  : Nat := 0
  hops  : Nat := 0
  up    : Option Nat := none
  hold  : Bool := false
  id    : Nat := 0
  stepped : Bool := false
deriving DecidableEq, Repr

/-- The Lock-keeper's entry of a Reach on the near switch (R245, R246). -/
inductive LockSt where
  | held | releasing | broken
deriving DecidableEq, Repr

/-- A near lock. -/
structure NearLock where
  st    : LockSt
  owner : Nat
  link  : Nat
  reach : Nat
  t6    : Nat
  trk   : Nat
  cause : Nat := 0
  long  : Option (Mbx × Nat) := none
deriving DecidableEq, Repr

/-- A far lock (R245), keyed by far Reach. -/
structure FarLock where
  owner : Init
  link  : Nat
  dst   : Nat
  t6    : Nat
deriving DecidableEq, Repr

/-- The bridge. `ea` counts early-acknowledged writes by initiator and link (R238); `out` lists the messages the
bridge hands to an Iggevo egress without cells of their own (path and lock messages, flushes). -/
structure Brg where
  near   : Tbl Nat NearLock := []
  far    : Tbl Nat FarLock := []
  ea     : Tbl (Init × Nat) Nat := []
  paths  : Tbl (Nat × Nat) FarPath := []
  out    : List (Nat × Bytes) := []
deriving DecidableEq, Repr

/-- A lane (Table LANE-11). -/
structure Lane where
  st      : Nat := 0
  rate    : Nat := 0xFF
  inv     : Bool := false
  los     : Bool := false
  lol     : Bool := false
  rev     : Bool := false
  ctle    : Nat := 0
  dfe     : List Int := []
  eyeH    : Nat := 0
  eyeW    : Nat := 0
  cal     : Nat := 0
  calStep : Nat := 0
  lowEye  : Nat := 0
  spared  : Bool := false
  spareT  : Nat := 0
  recT    : Option Nat := none
  losT    : Nat := 0
deriving DecidableEq, Repr

/-- The eye scans of a lane (LANE_EYE_SCAN): the one that runs with its timing and voltage steps, symbols per point and long
command, and the result of the last completed. -/
structure Scan where
  run   : Option (Nat × Nat × Nat × Mbx × Nat) := none
  res   : Option (Nat × Nat × List Nat) := none
deriving DecidableEq, Repr

/-- A test function (LANE_TEST_SET). -/
structure Test where
  rate : Nat
  mask : Nat
  fn   : Nat
  pat  : Nat
deriving DecidableEq, Repr

/-- The physical layer. A running scan holds its lane's auxiliary slicer (R271); `margin` is the margining request last served on
it. -/
structure Phy where
  lane  : Tbl (Nat × Nat) Lane := []
  scan  : Tbl (Nat × Nat) Scan := []
  test  : Tbl Nat Test := []
  margin : Tbl (Nat × Nat) Nat := []
deriving DecidableEq, Repr

/-- An IDE stream pair of a link (IDE_STATUS_GET: 0 none, 1 setting up, 2 secure, 3 insecure). -/
structure Ide where
  cxl   : Nat := 0
  io    : Nat := 0
  set   : Nat := 0
  time  : Nat := 0
  t6    : Nat := 0
  busy  : Option Nat := none
  retry : Option Nat := none
  longs : List (Mbx × Nat) := []
deriving DecidableEq, Repr

/-- A CXL link. `up` is L0 or L0p; `role` and `mgr` are those in force since its bring-up (R279). -/
structure Port where
  up      : Bool := false
  role    : Nat := 0
  mgr     : Bool := false
  ltssm   : Nat := 0
  rate    : Nat := 0xFF
  width   : Nat := 0
  full    : Nat := 0
  flit256 : Bool := true
  devType : Nat := 0
  lds     : Nat := 0
  hdmdb   : Bool := false
  cacheDev : Bool := false
  partnerIde : Bool := false
  fenced  : Bool := false
deriving DecidableEq, Repr

/-- What a vPPB shows its host and the controls the host writes (R294). `slot` holds the slot status bits: 0 attention
button pressed, 1 presence detect changed, 2 data link layer state changed, 3 command completed; `attn` and `pind` the
indicator controls (1 on, 2 blinking, 3 off); `wait` the mode of an unbind that waits since `waitT` (R284); `gen` the draw from
which a sharer's copy of configuration space was loaded (R283). -/
structure Vppb where
  power : Bool := false
  attn  : Nat := 3
  pind  : Nat := 3
  slot  : Nat := 0
  dpc   : Bool := false
  wait  : Option Nat := none
  waitT : Nat := 0
  gen   : Nat := 0
  waitLong : Option (Mbx × Nat) := none
deriving DecidableEq, Repr

/-- A hot-plug operation (R295–R298). -/
structure Hot where
  tile   : Nat
  add    : Bool
  surprise : Bool := false
  step   : Nat := 0
  t6     : Nat := 0
  long   : Option (Mbx × Nat) := none
deriving DecidableEq, Repr

/-- CXL ports and virtual switches. `order` lists bound vPPBs in binding order, for CacheIDs and BI-IDs; `own` the owner of each bound
link and LD (R283);
`space` is the configuration space written by hosts, and sharers' copies; `cfgOut` the last completion of a configuration request
(link, 0 or 1 for Unsupported Request, data); `fwd` the last request handed to a device (link, LD, bytes); `addHold` the tiles
with a HOTPLUG_REQUEST add in force; `dec` the HDM decoders of a VCS, and at 256 + r those of the Basin LD of a Reach, as
base and size; `fmOut` the last FM API response (return code, payload), and `fmBack` the Reach whose commit an FM API background
operation waits for. -/
structure Cxl where
  tileCfg : Tbl Nat Nat := []
  port    : Tbl Nat Port := []
  vppb    : Tbl (Nat × Nat) Vppb := []
  order   : List (Nat × Nat) := []
  own     : Tbl (Nat × Nat) (Nat × Nat) := []
  space   : Tbl (Nat × Nat × Nat) Nat := []
  cfgOut  : Option (Nat × Nat × Nat) := none
  fwd     : Option (Nat × Nat × Bytes) := none
  ide     : Tbl Nat Ide := []
  hot     : List Hot := []
  addHold : List Nat := []
  dec     : Tbl Nat (List (Nat × Nat)) := []
  fmOut   : Option (Nat × Bytes) := none
  fmBack  : Option Nat := none
deriving DecidableEq, Repr

/-- A Reach being reset (R316): the epoch E1, whether it has passed, the unbind flag and the long command. -/
structure RReset where
  epoch  : Nat
  e1     : Bool := false
  unbind : Bool
  long   : Option (Mbx × Nat)
deriving DecidableEq, Repr

/-- The Basin memory: bytes listed in canonical form (addresses strictly rising, no byte equal to 0, what an unlisted
byte reads as), and the poisoned lines. Addresses are Basin memory offsets (R141). -/
structure Mem where
  cells  : List Host.Cell := []
  poison : List Nat := []
deriving DecidableEq, Repr

end Sys2Proof.Machine
end

