-- ==== Sys2Proof/Machine/State.lean ====
section
/-! DEFINITION. The state of the block: the waiting commands, DEV_MODE.mode and DEV_MODE.profile, the Basin memory,
and every other register, table, queue and counter of the device, chapter by chapter. -/

namespace Sys2Proof.Machine

/-- Everything but the mode, the profile, the Basin memory and the waiting commands. `free` is the model's own: a
counter from which every value that the manual leaves open is drawn (assumption 5). -/
structure Dev where
  clk   : Clk := {}
  ctl   : ModeCtl := {}
  mgmt  : Mgmt := {}
  conf  : Conf := {}
  sec   : Sec := {}
  flt   : Flt := {}
  tele  : Tele := {}
  noc   : Noc := {}
  pwr   : Pwr := {}
  slots : Slots := {}
  side  : Side := {}
  img   : Img := {}
  weir  : Weir := {}
  art   : Art := {}
  fab   : Fab := {}
  bas   : Bas := {}
  egr   : Egr := {}
  ord   : Ord := {}
  ig    : Tbl Nat Ig := []
  tim   : Tim := {}
  brg   : Brg := {}
  phy   : Phy := {}
  cxl   : Cxl := {}
  reset : Tbl Nat RReset := []
  free  : Nat := 0
deriving DecidableEq, Repr

/-- The state of the machine. `pending` holds the commands that wait, first in, first out. -/
structure State where
  pending : List Instr
  mode    : Mode
  profile : Profile
  mem     : Mem
  dev     : Dev
deriving DecidableEq, Repr

/-- Why a step stops with a fault. No meaning of this model stops with one; the type is kept for the interface. -/
inductive Fault where
  /-- Raised by no command: the manual gives every command of the opcode table an effect (safe). -/
  | unreachable
deriving DecidableEq, Repr

/-- Why a command is refused. -/
inductive Refusal where
  /-- A row of the opcode table that has no meaning yet, by its mnemonic (safe: the run stops). -/
  | notModelled (mnemonic : String)
  /-- A private debug instruction after DEBUG_ENABLE: the manual names these instructions and does not say what
  they do (R481, R386). Raised by PRIVATE_DEBUG_INSTRUCTION (safe: the run stops). -/
  | privateDebugUndefined (code : Nat)
deriving DecidableEq, Repr

/-- The machine right after a cold reset (Table PWR-4, R459): Cold Boot, no profile, timebase 0, nothing listed in
the Basin memory, every table at the default its field names. -/
def State.reset : State where
  pending := []
  mode    := .coldBoot
  profile := .none
  mem     := {}
  dev     := {}

/-- The state with the device changed by `f`. -/
def State.onDev (s : State) (f : Dev → Dev) : State := { s with dev := f s.dev }

variable (d : Dev)

/-- The device with its clocks changed. -/
def Dev.onClk (f : Clk → Clk) : Dev := { d with clk := f d.clk }
/-- The device with its mode machinery changed. -/
def Dev.onCtl (f : ModeCtl → ModeCtl) : Dev := { d with ctl := f d.ctl }
/-- The device with its management processors and mailboxes changed. -/
def Dev.onMgmt (f : Mgmt → Mgmt) : Dev := { d with mgmt := f d.mgmt }
/-- The device with its configuration changed. -/
def Dev.onConf (f : Conf → Conf) : Dev := { d with conf := f d.conf }
/-- The device with its security subsystem changed. -/
def Dev.onSec (f : Sec → Sec) : Dev := { d with sec := f d.sec }
/-- The device with its fault collector changed. -/
def Dev.onFlt (f : Flt → Flt) : Dev := { d with flt := f d.flt }
/-- The device with its counters and telemetry changed. -/
def Dev.onTele (f : Tele → Tele) : Dev := { d with tele := f d.tele }
/-- The device with its internal network changed. -/
def Dev.onNoc (f : Noc → Noc) : Dev := { d with noc := f d.noc }
/-- The device with its supplies, reference clocks and temperatures changed. -/
def Dev.onPwr (f : Pwr → Pwr) : Dev := { d with pwr := f d.pwr }
/-- The device with its slot power control changed. -/
def Dev.onSlots (f : Slots → Slots) : Dev := { d with slots := f d.slots }
/-- The device with its sideband interfaces changed. -/
def Dev.onSide (f : Side → Side) : Dev := { d with side := f d.side }
/-- The device with its flash and image state changed. -/
def Dev.onImg (f : Img → Img) : Dev := { d with img := f d.img }
/-- The device with its Weirs and tracker changed. -/
def Dev.onWeir (f : Weir → Weir) : Dev := { d with weir := f d.weir }
/-- The device with its rule banks changed. -/
def Dev.onArt (f : Art → Art) : Dev := { d with art := f d.art }
/-- The device with its cell fabric changed. -/
def Dev.onFab (f : Fab → Fab) : Dev := { d with fab := f d.fab }
/-- The device with its buffers and Basin controllers changed. -/
def Dev.onBas (f : Bas → Bas) : Dev := { d with bas := f d.bas }
/-- The device with its egress schedulers changed. -/
def Dev.onEgr (f : Egr → Egr) : Dev := { d with egr := f d.egr }
/-- The device with its ordering machinery changed. -/
def Dev.onOrd (f : Ord → Ord) : Dev := { d with ord := f d.ord }
/-- The device with one Iggevo link changed. -/
def Dev.onIg (l : Nat) (f : Ig → Ig) : Dev := { d with ig := d.ig.upd l {} f }
/-- The device with its time distribution changed. -/
def Dev.onTim (f : Tim → Tim) : Dev := { d with tim := f d.tim }
/-- The device with its bridge changed. -/
def Dev.onBrg (f : Brg → Brg) : Dev := { d with brg := f d.brg }
/-- The device with its physical layer changed. -/
def Dev.onPhy (f : Phy → Phy) : Dev := { d with phy := f d.phy }
/-- The device with its CXL ports and virtual switches changed. -/
def Dev.onCxl (f : Cxl → Cxl) : Dev := { d with cxl := f d.cxl }

end Sys2Proof.Machine
end

