-- ==== Sys2Proof/Machine/Ops.lean ====
section
/-! DEFINITION. The named operations that every family of commands shares: time and commit epochs, DEV_MODE, the
mailboxes and their event queues, tallies, counters and event sources, and sending a fault message. -/

namespace Sys2Proof.Machine

/-! ### Time -/

/-- One microsecond, one millisecond and one second in sixths of a nanosecond. -/
def us6 : Nat := 6000
/-- One millisecond in sixths of a nanosecond. -/
def ms6 : Nat := 6000000
/-- One second in sixths of a nanosecond. -/
def s6 : Nat := 6000000000

/-- The slewing done in `dt` sixths: at most 1 ns per µs (R223), in forty-eighths of a nanosecond, and what is left. -/
def Clk.slewBy (c : Clk) (dt : Nat) : Int :=
  let room : Nat := (c.slewT + dt) / 125
  if c.slew ≥ 0 then min c.slew (room : Int) else max c.slew (-(room : Int))

/-- Time passes: `dt` sixths of a nanosecond on the device's own clock, the timebase with its slewing (R223, R456),
and the fabric cycle counter at 3.0 or 2.0 GHz (R98, R323). -/
def Clk.elapse (dt : Nat) (c : Clk) : Clk :=
  let per := if c.slow then 3 else 2
  let sl := c.slewBy dt
  { c with
    t6 := c.t6 + dt
    tb48 := ((c.tb48 + 8 * dt + 2 ^ 40 * 48 : Nat) + sl).toNat % (2 ^ 40 * 48)
    cyc := c.cyc + (c.rem6 + dt) / per
    rem6 := (c.rem6 + dt) % per
    slew := c.slew - sl
    slewT := if c.slew = 0 then 0 else (c.slewT + dt) % 125 }

/-- The timebase in nanoseconds, 40 bits (R456). -/
def Dev.now (d : Dev) : Nat := d.clk.tb48 / 48 % 2 ^ 40

/-- The timebase in sixteenths of a nanosecond (R221). -/
def Dev.now16 (d : Dev) : Nat := d.clk.tb48 / 3

/-- `a` is at or after `b` on the 40-bit timebase: it lies less than 2^39 ns ahead (R456). -/
def tGe (a b : Nat) : Bool := decide ((a + 2 ^ 40 - b % 2 ^ 40) % 2 ^ 40 < 2 ^ 39)

/-- The first commit epoch at least 2,000 ns after `t` (R359). -/
def epochAfter (t : Nat) : Nat := ceilTo (t + 2000) 1024 % 2 ^ 40

/-- Sixths of a nanosecond since the instant `t`. -/
def Dev.since (d : Dev) (t : Nat) : Nat := d.clk.t6 - t

/-! ### Modes -/

/-- DEV_MODE.mode (Table MODE-1). -/
def Mode.code : Mode → Nat
  | .shelf => 0 | .coldBoot => 1 | .safe => 2 | .configure => 3 | .runDeterministic => 4 | .runBalanced => 5
  | .runThroughput => 6 | .runSecure => 7 | .runPowerCapped => 8 | .degraded => 9 | .service => 10
  | .diagnostic => 11

/-- DEV_MODE.profile (Table MODE-3). -/
def Profile.code : Profile → Nat
  | .none => 0 | .deterministic => 4 | .balanced => 5 | .throughput => 6 | .secure => 7 | .powerCapped => 8

/-- The Run mode of a profile (Table MODE-3); the profile 0x0 has none, and Configure stands for it. -/
def Profile.mode : Profile → Mode
  | .none => .configure | .deterministic => .runDeterministic | .balanced => .runBalanced
  | .throughput => .runThroughput | .secure => .runSecure | .powerCapped => .runPowerCapped

/-- The profile of a mode code 0x4–0x8. -/
def Profile.ofCode : Nat → Profile
  | 4 => .deterministic | 5 => .balanced | 6 => .throughput | 7 => .secure | 8 => .powerCapped | _ => .none

/-- The five Run modes. -/
def Mode.isRun : Mode → Bool
  | .runDeterministic | .runBalanced | .runThroughput | .runSecure | .runPowerCapped => true
  | _ => false

/-- The modes in which tenant traffic is admitted (R21). -/
def Mode.tenant : Mode → Bool
  | .degraded | .service => true
  | m => m.isRun

/-- The modes with the core rails on and firmware running: a mailbox is served in them (Table MODE-1). -/
def Mode.adminServed : Mode → Bool
  | .shelf | .coldBoot => false
  | _ => true

/-- The modes in which the Reach mailboxes and the tunnel are served (Table MODE-1, R342). -/
def Mode.allServed : Mode → Bool
  | .configure => true
  | m => m.tenant

/-- DEV_MODE.transition (R521). -/
def Dev.transition (d : Dev) : Bool :=
  d.ctl.pend.isSome || d.ctl.auto.isSome || (d.ctl.svc.bind (·.endAt)).isSome

/-- DEV_MODE (Table MODE-2). -/
def devMode (m : Mode) (p : Profile) (d : Dev) : Nat :=
  m.code + 16 * p.code + 256 * b2n d.sec.approved + 512 * b2n d.transition

/-- The bounds and measures of Run-Secure hold (R522). -/
def Profile.isSecure (p : Profile) : Bool := p == .secure

/-! ### Configuration reads -/

/-- The active value of a configuration item, if it differs from its default. -/
def Dev.cfg (d : Dev) (k : CfgKey) : Option Bytes := d.conf.active.get? k

/-- The staged set `i` (0–31 Reaches, 32 device-wide). -/
def Dev.set (d : Dev) (i : Nat) : Staged := d.conf.staged.getD i {}

/-- The value an item will have after the commit of set `i` (the staged view). -/
def Dev.staged (d : Dev) (i : Nat) (k : CfgKey) : Option Bytes :=
  match (d.set i).changes.get? k with
  | some v => v
  | none => d.cfg k

/-- The active or the staged value of an item. -/
def Dev.view (d : Dev) (stg : Bool) (i : Nat) (k : CfgKey) : Option Bytes :=
  if stg then d.staged i k else d.cfg k

/-- The Reach count N (R306); the factory image sets 1. -/
def Dev.nReach (d : Dev) : Nat := byteAt ((d.cfg { op := 0x4040 }).getD [1]) 0

/-- The configuration code of a tile (Table CXLP-2); the factory image sets 0x0. -/
def Dev.tileCode (d : Dev) (t : Nat) : Nat := d.cxl.tileCfg.getD t 0

/-- The sub-links that a tile configuration has (Table GLANCE-2). -/
def subLinks : Nat → Nat
  | 1 => 2 | 2 => 4 | _ => 1

/-- Data lanes per link of a tile configuration (Table GLANCE-2). -/
def lanesPer : Nat → Nat
  | 1 => 4 | 2 => 2 | _ => 8

/-- A number names a link: its sub-link exists in the tile's configuration (R14). -/
def Dev.isLink (d : Dev) (l : Nat) : Bool := decide (l < 256) && decide (l % 4 < subLinks (d.tileCode (l / 4)))

/-- A number names an Iggevo link: 4t for an Iggevo tile t (R228). -/
def Dev.isIggevo (d : Dev) (l : Nat) : Bool := decide (l < 256) && l % 4 == 0 && d.tileCode (l / 4) == 3

/-- A number names a CXL link. -/
def Dev.isCxl (d : Dev) (l : Nat) : Bool := d.isLink l && ! d.isIggevo l

/-- The links of a tile. -/
def Dev.tileLinks (d : Dev) (t : Nat) : List Nat := (List.range (subLinks (d.tileCode t))).map (4 * t + ·)

/-- Every link number that names a link. -/
def Dev.links (d : Dev) : List Nat := (List.range 256).filter d.isLink

/-- The CXL link state of a link. -/
def Dev.port (d : Dev) (l : Nat) : Port := d.cxl.port.getD l {}

/-- The Iggevo link state of a link. -/
def Dev.igg (d : Dev) (l : Nat) : Ig := d.ig.getD l {}

/-- The Reach that owns a link, or an LD of it; the factory image assigns every link to Reach 0 (R308). -/
def Dev.ownerIn (d : Dev) (stg : Bool) (l ld : Nat) : Option Nat :=
  let one (k : CfgKey) : Option Nat := (d.view stg 32 k).map fun b => byteAt b 3
  let r := (one { op := 0x4042, a := l, b := ld }).getD ((one { op := 0x4042, a := l, b := 0xFF }).getD 0)
  if d.isIggevo l || r == 0xFF then none else some r

/-- The Reach that owns a link or LD in the active configuration. -/
def Dev.owner (d : Dev) (l ld : Nat) : Option Nat := d.ownerIn false l ld

/-- A tile is in service: the pattern includes it (R15, R123). -/
def Dev.tileIn (d : Dev) (t : Nat) : Bool := d.fab.inSvc.contains t

/-- VCS `v` exists: upstream link `v` is in service (R281). -/
def Dev.vcsUp (d : Dev) (v : Nat) : Bool := d.isCxl v && (d.port v).role == 1 && d.tileIn (v / 4)

/-- The mailbox of a view (Table MBX-2, R313). -/
def Dev.viewMbx (d : Dev) : View → Option Mbx
  | .admin => some .admin
  | .vcs v => if d.vcsUp v then (d.owner v 0xFF).map Mbx.reach else none

/-- The VCSs of a Reach. -/
def Dev.vcssOf (d : Dev) (r : Nat) : List Nat :=
  (List.range 256).filter fun v => d.vcsUp v && d.owner v 0xFF == some r

/-- The link is one of a multi-logical device: it has trained with more than one LD. -/
def Dev.isMld (d : Dev) (l : Nat) : Bool := decide ((d.port l).lds > 1)

/-- A Reach owns the link wholly or in part. -/
def Dev.ownsPart (d : Dev) (r l : Nat) : Bool :=
  if d.isMld l then (List.range 16).any fun ld => d.owner l ld == some r else d.owner l 0xFF == some r

/-- The Reaches that own some part of a link. -/
def Dev.reachesOf (d : Dev) (l : Nat) : List Nat := (List.range d.nReach).filter fun r => d.ownsPart r l

/-! ### Mailboxes and event queues -/

/-- A mailbox. -/
def Dev.mbx (d : Dev) (m : Mbx) : Mailbox := d.mgmt.mbxs.getD m {}

/-- The device with one mailbox changed. -/
def Dev.onMbx (d : Dev) (m : Mbx) (f : Mailbox → Mailbox) : Dev :=
  d.onMgmt fun g => { g with mbxs := g.mbxs.upd m {} f }

/-- The mailbox category bit of a record code (Tables MBX-7 and MBX-13); COMMAND_DONE has none. -/
def maskBit (code : Nat) : Option Nat :=
  if code < 0x400 then some 1 else if code < 0x500 then some 2 else
  match code with
  | 0x501 => some 0 | 0x502 => some 3 | 0x503 => some 4 | 0x504 => some 3 | _ => none

/-- A record joins an event queue: 16 of the 256 places are kept for COMMAND_DONE, which is never lost; any other
record that finds the 240 places full is lost (R355). -/
def Mailbox.enqueue (r : EvRec) (b : Mailbox) : Mailbox :=
  if r.code = 0x500 then { b with evq := b.evq ++ [r] }
  else if (b.evq.filter fun x => decide (x.code ≠ 0x500)).length < 240 then { b with evq := b.evq ++ [r] }
  else { b with lost := true }

/-- The event mask that holds for a mailbox's queue: its own; the tunnel queue receives what the admin mailbox
receives (R355), and the out-of-band mailbox has no page (Table MBX-2). -/
def Dev.maskOf (d : Dev) : Mbx → Nat
  | .tunnel => (d.mbx .admin).mask
  | .oob => 0
  | m => (d.mbx m).mask

/-- A record is posted to one mailbox, unless its category is masked there (Table MBX-7). -/
def Dev.postTo (d : Dev) (m : Mbx) (r : EvRec) : Dev :=
  match maskBit r.code with
  | some k => if (d.maskOf m).testBit k then d else d.onMbx m (Mailbox.enqueue r)
  | none => d.onMbx m (Mailbox.enqueue r)

/-- The mailboxes that see a record of Reach `r` (0x3F: device-wide), by Table REACH-2 and R355. -/
def Dev.viewers (d : Dev) (r : Nat) : List Mbx :=
  (if r < d.nReach then [Mbx.reach r] else []) ++ [.admin, .oob, .tunnel]

/-- A record is posted to every mailbox that sees it (R315, R355). -/
def Dev.post (d : Dev) (r : EvRec) : Dev := (d.viewers r.reach).foldl (fun d m => d.postTo m r) d

/-- A trace record is appended when its type is enabled and the trace runs (R424, R425). -/
def Dev.traceRec (d : Dev) (type b1 b23 : Nat) (tail : Bytes) : Dev :=
  if d.tele.trOn && ! d.tele.trDone && (d.tele.trMask.testBit (type - 1) || type == 0x7F) then
    d.onTele fun t =>
      let recs := t.trRecs ++ [nb 1 type ++ nb 1 b1 ++ nb 2 b23 ++ nb 5 d.now ++ fit 7 tail]
      let excess := recs.length - 65536
      { t with
        trRecs := if t.trStop then recs else recs.drop excess
        trBase := if t.trStop then t.trBase else t.trBase + excess
        trCount := t.trCount + 1
        trDone := t.trStop && decide (t.trCount + 1 ≥ 65536) }
  else d

/-- MODE_NOTICE to every mailbox, and the Mode trace record. -/
def Dev.modeNotice (m : Mode) (p : Profile) (d : Dev) : Dev :=
  let r : EvRec := { code := 0x502, time := d.now, detail := nb 4 (devMode m p d) }
  let all : List Mbx := (List.range d.nReach).map Mbx.reach ++ [Mbx.admin, Mbx.oob, Mbx.tunnel]
  let d := all.foldl (fun (d : Dev) (m : Mbx) => d.postTo m r) d
  d.traceRec 0x02 0xFF 0 (nb 4 (devMode m p d))

/-! ### Tallies, counters and event sources -/

/-- Event select codes that are counted in the device counter block (Tables TELE-4 and TELE-5). Codes from 0x1000
are the model's own numbers for device tallies that have no select code (Table SLOT-3). -/
def deviceSel (sel : Nat) : Bool := decide (sel ≥ 0x200) || (decide (0x123 ≤ sel) && decide (sel ≤ 0x126))

/-- The tally of an event in a tile, or in the device block (64). -/
def Dev.tally (d : Dev) (tile sel : Nat) : Nat := d.tele.tally.getD (tile, sel) 0

/-- A programmable counter accepts an occurrence (R415, R417, R418): enabled, edge mode, and every filter passes. -/
def Counter.accepts (c : Counter) (sel reach cls inst : Nat) : Bool :=
  c.cfg.testBit 47 && ! c.cfg.testBit 46 && bits c.cfg 43 32 == sel
  && (c.cfg.testBit 28 || bits c.cfg 27 19 == inst)
  && (c.cfg.testBit 18 || bits c.cfg 17 15 == cls)
  && (c.cfg.testBit 14 || bits c.cfg 13 9 == reach)

/-- A counter counts `n` (R419): past 2^48 − 1 it wraps, sets its overflow bit, and holds the excess plus, with
sample_arm, the reload value. -/
def Counter.add (c : Counter) (n : Nat) : Counter :=
  if c.value + n < 2 ^ 48 then { c with value := c.value + n }
  else { c with
    value := ((c.value + n) % 2 ^ 48 + (if c.cfg.testBit 49 then c.reload else 0)) % 2 ^ 48
    ovf := true }

/-- The counter wraps on a count of `n`. -/
def Counter.wraps (c : Counter) (n : Nat) : Bool := decide (c.value + n ≥ 2 ^ 48)

/-- A source posts a record, or defers it to the end of its 100 µs (R414). -/
def Dev.sourceRec (d : Dev) (code member inst reach tile sel : Nat) (extra : Bytes) : Dev :=
  let field := if code < 0x400 then member * 4096 + inst % 4096 else inst
  let rec_ : EvRec := { code := code, time := d.now, reach := reach,
                        detail := nb 2 field ++ nb 6 (d.tally tile sel) ++ extra }
  match d.tele.src.get? code with
  | some s =>
    if d.since s.last6 < 100 * us6 then
      let pend := s.pend.filter (fun x => decide (x.1 ≠ sel)) ++ [(sel, inst, reach)]
      d.onTele fun t => { t with src := t.src.set code { s with pend := pend } }
    else (d.onTele fun t => { t with src := t.src.set code { last6 := d.clk.t6 } }).post rec_
  | none => (d.onTele fun t => { t with src := t.src.set code { last6 := d.clk.t6 } }).post rec_

/-- Everything but the programmable counters that an occurrence of an event does: the tallies (R411) and the event
source's record (R412, R413, R414). `reach` is 0x3F where the event has none. -/
def Dev.countBase (d : Dev) (sel tile reach inst n : Nat) (extra : Bytes) : Dev :=
  let blk := if deviceSel sel then 64 else tile
  let d := d.onTele fun t => { t with
    tally := t.tally.upd (blk, sel) 0 (fun v => (v + n) % 2 ^ 48)
    rtally := if reach < 32 then t.rtally.upd (blk, sel, reach) 0 (fun v => (v + n) % 2 ^ 48) else t.rtally }
  if sel < 0x100 then d.sourceRec (16 * tile + sel / 16) (sel % 16) inst reach blk sel extra
  else if 0x200 ≤ sel ∧ sel < 0x300 then d.sourceRec (0x200 + sel) 0 inst reach blk sel extra
  else d

/-- An occurrence of an event, with the programmable counters that it moves; a counter's wrap is itself an event
(COUNTER_WRAP, DEV_COUNTER_WRAP) and may arm a sample (R419, R422). `fuel` bounds the chain of wraps, which no more
than the 40 counters of a tile and the device can extend. -/
def Dev.countFuel : Nat → Dev → Nat → Nat → Nat → Nat → Nat → Nat → Bytes → Dev
  | 0, d, sel, tile, reach, _, inst, n, extra => d.countBase sel tile reach inst n extra
  | fuel + 1, d, sel, tile, reach, cls, inst, n, extra =>
    let d := d.countBase sel tile reach inst n extra
    let hit (e : (Nat × Nat) × Counter) : Bool :=
      (e.1.1 == 64 || (e.1.1 == tile && ! deviceSel sel)) && e.2.accepts sel reach cls inst
    let wr := (d.tele.ctr.filter fun e => hit e && e.2.wraps n)
    let armed := ! d.tele.disarm.contains tile
    let d := d.onTele fun t => { t with disarm := t.disarm.filter (fun x => decide (x ≠ tile)) }
    let d := d.onTele fun t => { t with ctr := t.ctr.map fun e => if hit e then (e.1, e.2.add n) else e }
    wr.foldl (fun d e =>
      let d := if e.1.1 < 64 && e.2.cfg.testBit 49 && armed && (d.tele.capture.get? e.1).isNone then
          d.onTele fun t => { t with capture := t.capture.set e.1 (d.clk.t6, 0) }
        else d
      if e.2.cfg.testBit 48 then
        if e.1.1 < 64 then Dev.countFuel fuel d 0xF0 e.1.1 0x3F 7 e.1.2 1 []
        else Dev.countFuel fuel d 0x20C 64 0x3F 7 e.1.2 1 []
      else d) d

/-- The power domain is off (Table NOC-6, step 5). -/
def Dev.domOff (d : Dev) (k : Nat) : Bool :=
  match d.noc.dom.get? k with
  | some (.off _ _) => true
  | _ => false

/-- An occurrence of `n` of an event (select code `sel`) in a tile, for a Reach, class and instance. Nothing counts
in a tile whose domain is off (R332). -/
def Dev.countX (d : Dev) (sel tile reach cls inst n : Nat) (extra : Bytes) : Dev :=
  if tile < 64 && ! deviceSel sel && d.domOff tile then d else Dev.countFuel 41 d sel tile reach cls inst n extra

/-- The same with no bytes of its own in the source's record. -/
def Dev.countN (d : Dev) (sel tile reach cls inst n : Nat) : Dev := d.countX sel tile reach cls inst n []

/-- One occurrence of an event, for a Reach (0x3F: none) and instance. -/
def Dev.count (d : Dev) (sel tile : Nat) (reach : Nat := 0x3F) (inst : Nat := 0xFFF) (cls : Nat := 7) : Dev :=
  d.countN sel tile reach cls inst 1

/-- One occurrence of a device-wide event (Table TELE-2: select code 0x200 plus the source's number). -/
def Dev.countDev (d : Dev) (sel : Nat) (inst : Nat := 0xFFFF) (reach : Nat := 0x3F) : Dev :=
  d.countN sel 64 reach 7 inst 1

/-- A level-mode counter's condition holds for an instance that its filters accept (R418): a FIFO head held (0x105), a
queue in Overflow or Saturated (0x106), an egress stalled (0x107). -/
def Dev.levelHolds (d : Dev) (tile : Nat) (c : Counter) : Bool :=
  let sel := bits c.cfg 43 32
  let inst (l : Nat) : Bool := (tile == 64 || l / 4 == tile) && (c.cfg.testBit 28 || bits c.cfg 27 19 == l)
  let cls (k : Nat) : Bool := c.cfg.testBit 18 || bits c.cfg 17 15 == k
  let reach (r : Nat) : Bool := c.cfg.testBit 14 || bits c.cfg 13 9 == r
  if sel == 0x105 then d.weir.q.any fun x => decide (x.refusals > 0) && inst x.link && cls x.cls && reach x.reach
  else if sel == 0x106 then d.bas.qst.any fun e => e.2 != .direct && inst e.1.1
  else if sel == 0x107 then d.egr.stall.any fun e => inst e
  else false

/-- A counter of a tile (or 64, the device block) counts `n`; a wrap may arm a sample and may itself be an event
(R419, R422). -/
def Dev.bumpCounter (d : Dev) (key : Nat × Nat) (n : Nat) : Dev :=
  let c := d.tele.ctr.getD key {}
  let d := d.onTele fun t => { t with ctr := t.ctr.set key (c.add n) }
  if c.wraps n then
    let d := if key.1 < 64 && c.cfg.testBit 49 && (d.tele.capture.get? key).isNone then
        d.onTele fun t => { t with capture := t.capture.set key (d.clk.t6, 0) }
      else d
    if c.cfg.testBit 48 then
      if key.1 < 64 then d.count 0xF0 key.1 0x3F key.2 else d.countDev 0x20C key.2
    else d
  else d

/-- Level-mode counters over `n` fabric cycles in which nothing else happened (R418). -/
def Dev.levelTick (d : Dev) (n : Nat) : Dev :=
  d.tele.ctr.foldl (fun d e =>
    if e.2.cfg.testBit 47 && e.2.cfg.testBit 46 && d.levelHolds e.1.1 e.2 then d.bumpCounter e.1 n else d) d

/-- The device after `dt` sixths of a nanosecond in which nothing but the passing of time happened. -/
def Dev.elapse (dt : Nat) (d : Dev) : Dev :=
  let d' := d.onClk (Clk.elapse dt)
  d'.levelTick (d'.clk.cyc - d.clk.cyc)

/-- The state after `dt` sixths of a nanosecond. -/
def State.elapse (dt : Nat) (s : State) : State := s.onDev (Dev.elapse dt)

/-! ### Free values -/

/-- A draw of a free value: 48 bytes from the DRBG or any other open source. -/
def Dev.draw (d : Dev) : BitVec 384 × Dev := (Sys2Proof.Config.freeWord d.free, { d with free := d.free + 1 })

/-- A free number below `n` (0 for `n` = 0). -/
def Dev.drawNat (d : Dev) (n : Nat) : Nat × Dev := ((Sys2Proof.Config.freeWord d.free).toNat % n, { d with free := d.free + 1 })

/-! ### Internal network -/

/-- The largest packet of each network in flits (Table NOC-4). -/
def nocFlits : Nat → Nat
  | 0 | 1 => 4 | 2 => 2 | _ => 33

/-- A stop sends a packet on a network (R334): the manual gives neither its flits within the largest packet nor its
latency, so both are free (assumption 12). The counts saturate at 64 bits. -/
def Dev.nocSend (d : Dev) (stop net : Nat) : Dev :=
  let (fl, d) := d.drawNat (nocFlits net)
  let (lat, d) := d.drawNat (2 ^ 16)
  let sat (v : Nat) : Nat := min v (2 ^ 64 - 1)
  d.onNoc fun x => { x with stats := x.stats.upd (stop, net) {} fun s =>
    { packets := sat (s.packets + 1), flits := sat (s.flits + fl + 1), latSum := sat (s.latSum + lat), latMax := max s.latMax lat } }

/-! ### Fault messages -/

/-- The stop from which a block sends (Tables FAULT-3 and NOC-1). -/
def faultStop (block inst kind : Nat) : Nat :=
  match block with
  | 0 | 4 | 5 | 6 | 7 | 13 => inst
  | 1 => if kind ≥ 0x10 then 74 + inst else inst
  | 2 => if kind ≥ 0x10 then 72 + inst else inst
  | 3 => 78 + inst
  | 8 => inst / 4
  | 9 => inst
  | 10 => 80 + inst
  | 11 => 83
  | 12 => 90
  | _ => 95

/-- A block sends a fault message (R389, R393): seq counts per source modulo 64; a message that finds four of its
source's messages unsent is not sent, and seq still advances. A fatal kind also drives the fatal line (R394). -/
def Dev.sendFault (d : Dev) (block inst kind cls reach detail : Nat) : Dev :=
  (d.nocSend (faultStop block inst kind) 0).onFlt fun f =>
    let key := (block, inst)
    let sq := f.seqTx.getD key 0
    let m : FaultMsg := { block, inst, kind, cls, reach, detail := detail % 2 ^ 52, time := d.now, seq := sq }
    { f with
      seqTx := f.seqTx.set key ((sq + 1) % 64)
      transit := if (f.transit.filter fun x => x.block == block && x.inst == inst).length < 4
                 then f.transit ++ [m] else f.transit
      line := if cls == 2 && f.line.isNone then some d.clk.t6 else f.line }

/-! ### Identity and messages -/

/-- The switch id of the device, 0 if unset (R228). -/
def Dev.switchId (d : Dev) : Nat :=
  match d.cfg { op := 0x7010 } with
  | some b => leN b 0 4
  | none => 0

/-- A message joins the ingress FIFOs, or the queue of its source, with a fresh id. -/
def Dev.enqueue (d : Dev) (m : Msg) : Dev :=
  let id := d.weir.nextMsg
  d.onWeir fun w => { w with
    nextMsg := id + 1
    q := w.q ++ [{ m with id := id, grp := if m.grp = 0 then id else m.grp }] }

/-! ### Basin memory

The memory is a list of (offset, byte) in canonical form (assumption 4): offsets strictly rising, no byte 0. -/

/-- The byte at an address of a canonical list. -/
def memGet : List Host.Cell → Nat → Byte
  | [], _ => 0
  | (x, v) :: t, a => if x = a then v else memGet t a

/-- The list with one byte written; a byte 0 is not listed. -/
def memPut : List Host.Cell → Nat → Byte → List Host.Cell
  | [], a, b => if b = 0 then [] else [(a, b)]
  | (x, v) :: t, a, b =>
    if a < x then (if b = 0 then (x, v) :: t else (a, b) :: (x, v) :: t)
    else if a = x then (if b = 0 then t else (a, b) :: t)
    else (x, v) :: memPut t a b

/-- The memory keeps its canonical form. -/
abbrev Mem.wf (m : Mem) : Prop := m.cells.Pairwise (fun a b => a.1 < b.1) ∧ ∀ c ∈ m.cells, c.2 ≠ 0

/-- One byte of Basin memory. -/
def Mem.byte (m : Mem) (a : Nat) : Byte := memGet m.cells a

/-- `n` bytes from an offset. -/
def Mem.read (m : Mem) (off n : Nat) : Bytes := (List.range n).map fun i => m.byte (off + i)

/-- Bytes written at their offsets. -/
def Mem.putAll (m : Mem) (l : List Host.Cell) : Mem := { m with cells := l.foldl (fun t c => memPut t c.1 c.2) m.cells }

/-- Bytes from an offset, with their offsets. -/
def cellsAt (off : Nat) (b : Bytes) : List Host.Cell := b.zipIdx.map fun x => (off + x.2, x.1)

/-- Some line that `n` bytes at an offset touch is poisoned. -/
def Mem.poisoned (m : Mem) (off n : Nat) : Bool := m.poison.any fun l => decide (off < l + 64) && decide (l < off + n)

/-- Every line that `n` bytes at an offset cover whole loses its mark (R145). -/
def Mem.unpoison (m : Mem) (off n : Nat) : Mem :=
  { m with poison := m.poison.filter fun l => ! (decide (off ≤ l) && decide (l + 64 ≤ off + n)) }

/-- Every line for which `q` holds loses its mark. -/
def Mem.unmark (m : Mem) (q : Nat → Bool) : Mem := { m with poison := m.poison.filter fun l => ! q l }

/-- A line is marked poisoned. -/
def Mem.mark (m : Mem) (line : Nat) : Mem := { m with poison := if m.poison.contains line then m.poison else m.poison ++ [line] }

/-- A range reads 0 again, with no line of it poisoned. -/
def Mem.clear (m : Mem) (off n : Nat) : Mem :=
  { cells := m.cells.filter fun c => decide (c.1 < off) || decide (off + n ≤ c.1)
    poison := m.poison.filter fun l => decide (l < off) || decide (off + n ≤ l) }

/-! ### Audit log -/

/-- What the audit log records (R387). The manual gives the list and no codes: the codes are the model's (assumption
13). -/
inductive AuditEv where
  | opened | openFailed | lockout | closed | credential | zeroized | tamper | imageLoad | imageRejected
  | imageActivated | testFailed | testRecovered | diagEnter | diagExit | debugEnable
deriving DecidableEq, Repr

/-- The code of an audit record. -/
def AuditEv.code : AuditEv → Nat
  | .opened => 1 | .openFailed => 2 | .lockout => 3 | .closed => 4 | .credential => 5 | .zeroized => 6 | .tamper => 7
  | .imageLoad => 8 | .imageRejected => 9 | .imageActivated => 10 | .testFailed => 11 | .testRecovered => 12
  | .diagEnter => 13 | .diagExit => 14 | .debugEnable => 15

/-- The mailbox byte of an audit record (R379): 0x00 admin, 0x01 out-of-band, 0xFF none. -/
def auditMbx : Option Mbx → Nat
  | some .admin => 0
  | some .oob => 1
  | _ => 0xFF

/-- The 16 bytes of a record before its HMAC; their layout is the model's (assumption 13). -/
def Audit.head (a : Audit) : Bytes :=
  nb 6 a.seq ++ nb 5 a.time ++ nb 1 a.code ++ nb 1 a.slot ++ nb 1 a.mbx ++ nb 2 a.outcome

/-- A record joins the audit log (R387): its HMAC covers the record and the previous record's HMAC; beyond 16,384
records the oldest is overwritten and counted. A ring with fewer than 8 live sectors refuses the record (R501). -/
def Dev.audit (d : Dev) (ev : AuditEv) (slot : Nat) (m : Option Mbx) (outcome : Nat) : Dev :=
  if (d.img.retired.filter fun s => decide (s < 48)).length > 40 then d.onImg fun i => { i with logLost := i.logLost + 1 }
  else d.onSec fun x =>
    let a : Audit := { seq := x.auditSeq, time := d.now, code := ev.code, slot := slot, mbx := auditMbx m, outcome := outcome, mac := [] }
    let mac := nb 48 (Sys2Proof.Config.hmac384 (nb 48 (Sys2Proof.Config.auditKey x.keyGen).toNat) (a.head ++ x.chain)).toNat
    let log := x.audit ++ [{ a with mac := mac }]
    { x with audit := log.drop (log.length - 16384), chain := mac, auditSeq := x.auditSeq + 1, auditOver := x.auditOver + (log.length - 16384) }

/-- Bytes of a word, lowest first. -/
def wordBytes {w : Nat} (n : Nat) (v : BitVec w) : Bytes := nb n v.toNat

end Sys2Proof.Machine
end

