-- ==== Sys2Proof/Machine/Operands.lean ====
section
/-! DEFINITION. The operand form that every Bilod command shares: its frame, the fields of its payload, the checks of
R351 in their order, and the response that serving it writes (R347–R354). -/

namespace Sys2Proof.Machine

/-- What a command is checked against: the mode and profile, the device, and the frame in service. -/
structure Ctx where
  m : Mode
  p : Profile
  d : Dev
  f : Frame

/-- The byte at payload offset `o`. -/
def Ctx.u8 (c : Ctx) (o : Nat) : Nat := byteAt c.f.payload o
/-- The 16-bit field at payload offset `o`. -/
def Ctx.u16 (c : Ctx) (o : Nat) : Nat := leN c.f.payload o 2
/-- The 32-bit field at payload offset `o`. -/
def Ctx.u32 (c : Ctx) (o : Nat) : Nat := leN c.f.payload o 4
/-- The 40-bit field at payload offset `o`. -/
def Ctx.u40 (c : Ctx) (o : Nat) : Nat := leN c.f.payload o 5
/-- The 64-bit field at payload offset `o`. -/
def Ctx.u64 (c : Ctx) (o : Nat) : Nat := leN c.f.payload o 8

/-- A failing status with its payload (Table MBX-11). -/
abbrev Fail := Status × Bytes

/-- A check of a request: `none` if it passes. -/
abbrev Check := Ctx → Option Fail

/-- INVALID_FIELD for a field at a payload offset (basis 0x00). -/
def invalid (off : Nat) : Fail := (.invalidField, nb 4 off ++ zeros 8)

/-- INVALID_FIELD for a field of the Bilod header (basis 0x01). -/
def invalidHeader (off : Nat) : Fail := (.invalidField, nb 4 off ++ nb 4 1 ++ zeros 4)

/-- INVALID_FIELD for a field at offset `off` of a record that starts at payload offset `start` (basis 0x02). -/
def invalidRecord (off start : Nat) : Fail := (.invalidField, nb 4 off ++ nb 4 2 ++ nb 4 start)

/-- A failing status with an empty payload. -/
def plain (s : Status) : Fail := (s, [])

/-- The status codes of Table MBX-10. -/
def Status.code : Status → Nat
  | .success => 0 | .inProgress => 1 | .unsupported => 2 | .invalidField => 3 | .accessDenied => 4 | .busy => 5
  | .entropyPending => 6 | .stagingConflict => 7 | .resourceExhausted => 8 | .wrongMode => 9 | .aborted => 10
  | .integrityFailure => 11 | .shareExceeded => 12 | .contractInfeasible => 13

/-- Fails with INVALID_FIELD at `off` unless `ok`. -/
def need (off : Nat) (ok : Ctx → Bool) : Check := fun c => if ok c then none else some (invalid off)

/-- A reserved field of `n` bytes at `off` must be 0 (R351). -/
def rsvd (off n : Nat) : Check := need off fun c => leN c.f.payload off n == 0

/-- Bits `[hi:lo]` of the little-endian field at `off` are reserved and must be 0; the offset reported is that of the
byte with the field's lowest bit (R354). -/
def rsvdBits (off hi lo : Nat) : Check := need (off + lo / 8) fun c => bits (leN c.f.payload off (hi / 8 + 1)) hi lo == 0

/-- The byte at `off` is at most `max`. -/
def atMost (off max : Nat) : Check := need off fun c => decide (c.u8 off ≤ max)

/-- Fails with a status and an empty payload unless `ok`. -/
def require (s : Status) (ok : Ctx → Bool) : Check := fun c => if ok c then none else some (plain s)

/-- A Reach field: below N, and on a Reach mailbox that Reach's own (R351). -/
def reachAt (off : Nat) : Check := fun c =>
  if c.u8 off ≥ c.d.nReach then some (invalid off)
  else match c.f.mbx with
    | .reach r => if c.u8 off = r then none else some (plain .accessDenied)
    | _ => none

/-- The first check of a list that fails. -/
def firstFail (l : List Check) (c : Ctx) : Option Fail := l.findSome? fun k => k c

/-- Who sends a request: a host of a Reach, a caller with a role, a caller with no session, or a caller whose session is
unknown, expired or another mailbox's (R351, R376, R380). -/
inductive Who where
  | host (r : Nat)
  | role (n : Nat) (factory : Bool)
  | anonymous
  | nobody
deriving DecidableEq, Repr

/-- Fifteen minutes in sixths of a nanosecond (R380). -/
def sessionIdle6 : Nat := 900 * s6

/-- The open session with an id. -/
def Dev.session (d : Dev) (id : Nat) : Option Session := d.sec.sessions.find? fun s => decide (s.id = id)

/-- Who sends the frame in service. -/
def Ctx.who (c : Ctx) : Who :=
  match c.f.mbx with
  | .reach r => .host r
  | .tunnel => .role 2 false
  | m =>
    if c.f.sid = 0 then .anonymous
    else match c.d.session c.f.sid with
      | some s => if s.mbx = m ∧ c.d.since s.last6 < sessionIdle6 then .role s.role s.factory else .nobody
      | none => .nobody

/-- Which sources may issue a command: hosts over their Reach mailbox, the tunnel, sessions of a lowest role, callers
with no session. -/
structure Src where
  hosts  : Bool := false
  tunnel : Bool := false
  role   : Option Nat := none
  open_  : Bool := false

/-- The check of source and role (R351 step 3, R352, R366, R376, R378). A session opened with the factory credential
may issue only CREDENTIAL_SET for slot 0, CLOSE_SESSION and SECURITY_STATUS_GET. -/
def Src.ok (s : Src) (op : Nat) (c : Ctx) : Bool :=
  match c.f.mbx, c.who with
  | .tunnel, _ => s.tunnel && decide (op / 4096 ≠ 13)
  | _, .host _ => s.hosts
  | _, .anonymous => s.open_
  | _, .role n factory =>
    (match s.role with
     | some k => decide (k ≤ n)
     | none => false)
    && (! factory || op == 0x1003 || op == 0x1000 || (op == 0x1004 && c.u8 0 == 0))
  | _, .nobody => false

/-- Observer or above, over a session or the tunnel. -/
def Src.observer : Src := { tunnel := true, role := some 1 }
/-- Operator or above, over a session or the tunnel. -/
def Src.operator : Src := { tunnel := true, role := some 2 }
/-- Administrator or above, over a session. -/
def Src.admin : Src := { role := some 3 }
/-- Crypto Officer, over a session. -/
def Src.officer : Src := { role := some 4 }

/-- What serving an accepted command answers: a final response, a failing status that only the operation itself finds,
IN_PROGRESS (for an operation still running, or one that has ended already, with its final status), or nothing until
a commit epoch. -/
inductive Reply where
  | done (b : Bytes)
  | fail (f : Fail)
  | started (b : Bytes)
  | ended (s : Status) (b : Bytes)
  | atEpoch
deriving DecidableEq, Repr

/-- A Bilod command: its opcode, fixed payload, the payload its fields define beyond that, its sources and modes, its
field checks in ascending offset, whether it is a long command, its state checks in the order of its chapter, and its
effect with its reply. -/
structure Cmd where
  op     : Nat
  len    : Nat := 0
  ext    : Ctx → Nat := fun _ => 0
  src    : Src := {}
  mode   : Mode → Bool := fun _ => true
  fields : List Check := []
  long   : Bool := false
  state  : List Check := []
  body   : Ctx → Dev × Reply

/-- The header checks (R351 step 1). -/
def headerCheck (len : Nat) : Check := fun c =>
  if c.f.flags ≠ 0 then some (invalidHeader 2)
  else if c.f.status ≠ 0 then some (invalidHeader 6)
  else if c.f.payload.length > 4080 ∨ c.f.payload.length < len then some (invalidHeader 8)
  else match c.f.mbx with
    | .reach _ | .tunnel => if c.f.sid ≠ 0 then some (invalidHeader 12) else none
    | _ => none

/-- Payload bytes beyond the defined payload must be 0 (R351 step 5). -/
def trailing (n : Nat) : Check := fun c =>
  ((List.range c.f.payload.length).find? fun i => decide (i ≥ n) && byteAt c.f.payload i != 0).map invalid

/-- A long command's tag differs from that of every long command in progress on the mailbox (R349). -/
def tagFree : Check := fun c =>
  if (c.d.mbx c.f.mbx).longs.any (fun l => decide (l.tag = c.f.tag)) then some (invalidHeader 4) else none

/-- A mailbox has at most 16 long commands in progress (R349). -/
def longFree : Check := require .busy fun c => decide ((c.d.mbx c.f.mbx).longs.length < 16)

/-- The checks of R351 in their order: the first that fails decides. -/
def Cmd.verdict (k : Cmd) (c : Ctx) : Option Fail :=
  firstFail
    ([headerCheck k.len, require .accessDenied (k.src.ok k.op), require .wrongMode fun c => k.mode c.m]
      ++ (if k.long then [tagFree] else []) ++ k.fields ++ [fun c => trailing (k.len + k.ext c) c]
      ++ (if k.long then [longFree] else []) ++ k.state) c

/-- The mailbox is served in a mode (Table MODE-1, R342). -/
def servedIn (m : Mode) (d : Dev) : Mbx → Bool
  | .reach r => m.allServed && decide (r < d.nReach)
  | .tunnel => m.allServed
  | .admin | .oob => m.adminServed

/-- Command slots of a Reach in a service frame (R362). -/
def Dev.frameSlots (d : Dev) : Nat := 32 / max 1 d.nReach

/-- The Reach of a mailbox has a command slot left in the frame (R362). -/
def Dev.slotLeft (d : Dev) : Mbx → Bool
  | .reach r => decide (d.mgmt.slots.getD r 0 < d.frameSlots)
  | _ => true

/-- The frame can be served now: its mailbox is served and not paused, no earlier command of it waits for an epoch, its
Reach has a slot left, and a frame that was rung is this one. -/
def Ctx.servable (c : Ctx) (op : Nat) : Bool :=
  servedIn c.m c.d c.f.mbx && ! c.d.mgmt.paused && ! (c.d.mbx c.f.mbx).wait && c.d.slotLeft c.f.mbx
  && match (c.d.mbx c.f.mbx).rung with
     | some (o, g) => o == op && g == c.f
     | none => true

/-- Further segments of a response remain (R348). -/
def Resp.more (r : Resp) : Bool := ! r.dropped && decide ((r.seg + 1) * 4080 < r.payload.length)

/-- The Bilod header and payload of the segment loaded (Table MBX-8, R348). -/
def Resp.frame (r : Resp) : Bytes :=
  nb 2 r.opcode ++ nb 1 (1 + 2 * b2n r.more) ++ nb 1 r.seg ++ nb 2 r.tag ++ nb 2 r.status.code
    ++ nb 4 r.payload.length ++ nb 4 r.sid ++ (r.payload.drop (4080 * r.seg)).take 4080

/-- A response is written over the request: busy clears and done is set (R347). -/
def Dev.respond (d : Dev) (f : Frame) (op : Nat) (s : Status) (b : Bytes) : Dev :=
  let r : Resp := { opcode := op, tag := f.tag, status := s, sid := f.sid, payload := b }
  d.onMbx f.mbx fun x => { x with
    rung := none, wait := false, claimT := d.clk.t6, resp := some r, area := put x.area 0 r.frame }

/-- The slot that serving a command uses, the count of commands served, and the time of its session's last command
(R362, Table MBX-16, R380). -/
def Dev.served (d : Dev) (f : Frame) : Dev :=
  let d := d.onMgmt fun g => { g with
    served := g.served + 1
    slots := match f.mbx with
      | .reach r => g.slots.upd r 0 (· + 1)
      | _ => g.slots
    lastReach := match f.mbx with
      | .reach r => r
      | _ => g.lastReach }
  if f.sid = 0 then d else d.onSec fun x => { x with
    sessions := x.sessions.map fun s => if s.id = f.sid ∧ s.mbx = f.mbx then { s with last6 := d.clk.t6 } else s }

/-- A long command joins the mailbox's list (R349). -/
def Dev.startLong (d : Dev) (f : Frame) (op : Nat) : Dev :=
  d.onMbx f.mbx fun x => { x with longs := x.longs ++ [{ tag := f.tag, opcode := op, sid := f.sid }] }

/-- The operation of a long command has ended: COMMAND_DONE follows with this status and payload. -/
def Dev.finLong (d : Dev) (k : Mbx × Nat) (s : Status) (b : Bytes) : Dev :=
  d.onMbx k.1 fun x => { x with
    longs := x.longs.map fun l => if l.tag = k.2 ∧ l.fin.isNone then { l with fin := some (s, b) } else l }

/-- The same for a long command that an operation may carry or not. -/
def Dev.finLong? (d : Dev) (k : Option (Mbx × Nat)) (s : Status) (b : Bytes) : Dev :=
  match k with
  | some k => d.finLong k s b
  | none => d

/-- The reply of an accepted command is written. -/
def Dev.reply (d : Dev) (f : Frame) (op : Nat) : Reply → Dev
  | .done b => d.respond f op .success b
  | .fail (s, b) => d.respond f op s b
  | .started b => (d.startLong f op).respond f op .inProgress b
  | .ended s b => (((d.startLong f op).finLong (f.mbx, f.tag) s b).respond f op .inProgress [])
  | .atEpoch => d.onMbx f.mbx fun x => { x with rung := none, wait := true, resp := none }

/-- A frame is served: refused with the first failing check, or its command acts and replies (R351). -/
def Cmd.serve (k : Cmd) (f : Frame) (m : Mode) (p : Profile) (d : Dev) : Dev :=
  let c : Ctx := { m, p, d, f }
  if c.servable k.op then
    let c : Ctx := { c with d := d.served f }
    match k.verdict c with
    | some (s, b) => c.d.respond f k.op s b
    | none => ((k.body c).1).reply f k.op (k.body c).2
  else d

/-- The frame is served and no check of it fails. -/
def Cmd.accepts (k : Cmd) (f : Frame) (m : Mode) (p : Profile) (d : Dev) : Bool :=
  let c : Ctx := { m, p, d, f }
  c.servable k.op && (k.verdict { c with d := d.served f }).isNone

/-- The effect of a Bilod command row: `dt` passes and its frame is served. -/
def bilod (k : Cmd) (dt : Nat) (f : Frame) (s : State) : Host.Outcome State Fault Refusal :=
  .next ((s.elapse dt).onDev (k.serve f s.mode s.profile))

/-- The effect of an event on the device alone: `dt` passes and `g` acts, given the mode and the profile. -/
def event (dt : Nat) (s : State) (g : Mode → Profile → Dev → Dev) : Host.Outcome State Fault Refusal :=
  .next ((s.elapse dt).onDev (g s.mode s.profile))

/-- The effect of an event on the device and the Basin memory. -/
def memEvent (dt : Nat) (s : State) (g : Mode → Profile → Dev → Mem → Dev × Mem) : Host.Outcome State Fault Refusal :=
  let t := s.elapse dt
  let r := g t.mode t.profile t.dev t.mem
  .next { t with dev := r.1, mem := r.2 }

/-- A body that only reads. -/
def reads (r : Ctx → Bytes) : Ctx → Dev × Reply := fun c => (c.d, .done (r c))

/-- A body that changes the device and answers with an empty payload. -/
def changes (g : Ctx → Dev) : Ctx → Dev × Reply := fun c => (g c, .done [])

end Sys2Proof.Machine
end

