-- ==== Sys2Proof/Machine/Flags.lean ====
section
/-! DEFINITION. Every status flag that the fault collector computes: the kinds of Table FAULT-4, the class and
redundancy bits of FAULT_STATUS, what taking a message does (R391–R400, R402, R405), and clearing (R397). -/

namespace Sys2Proof.Machine

/-- The 128-bit fault message (Table FAULT-1). -/
def faultWord (m : FaultMsg) : Nat :=
  m.seq % 64 + 2 ^ 6 * (m.time % 2 ^ 40) + 2 ^ 46 * (m.detail % 2 ^ 52) + 2 ^ 98 * (m.reach % 64)
    + 2 ^ 104 * (m.cls % 4) + 2 ^ 106 * (m.kind % 1024) + 2 ^ 116 * (m.inst % 256) + 2 ^ 124 * (m.block % 16)

/-- The fault message that a 128-bit word spells. -/
def faultOfWord (w : Nat) : FaultMsg :=
  { seq := bits w 5 0, time := bits w 45 6, detail := bits w 97 46, reach := bits w 103 98, cls := bits w 105 104,
    kind := bits w 115 106, inst := bits w 123 116, block := bits w 127 124 }

/-- The kinds of Table FAULT-4: block, kind, class. -/
def faultKinds : List (Nat × Nat × Nat) :=
  [(0, 1, 0), (1, 1, 1), (1, 2, 1), (1, 3, 1), (1, 0x10, 0), (1, 0x11, 0), (1, 0x12, 1), (1, 0x13, 2),
   (2, 1, 1), (2, 2, 1), (2, 3, 0), (2, 4, 1), (2, 5, 1), (2, 0x10, 0), (2, 0x11, 2),
   (3, 1, 0), (3, 2, 1), (3, 3, 1), (3, 4, 1), (4, 1, 1), (4, 2, 1), (5, 1, 0), (5, 2, 1), (5, 3, 0)] ++
  [(6, 1, 1), (6, 0x11, 1), (6, 0x12, 1), (6, 0x13, 1), (6, 0x14, 1), (6, 0x15, 1), (6, 0x16, 1), (6, 0x17, 1),
   (6, 0x18, 1), (6, 0x20, 1), (7, 1, 0), (7, 2, 0), (8, 1, 1), (8, 2, 1), (8, 3, 1), (8, 4, 1), (9, 1, 1), (9, 2, 1),
   (10, 1, 1), (10, 2, 0), (10, 3, 1), (11, 1, 1), (11, 2, 1), (12, 1, 0), (12, 2, 2), (12, 3, 2), (13, 1, 1),
   (13, 2, 0), (14, 1, 2), (14, 2, 2), (14, 3, 2)]

/-- A message is malformed (R391). -/
def malformed (n : Nat) (m : FaultMsg) : Bool :=
  m.block == 15 || ! faultKinds.any (fun k => k.1 == m.block && k.2.1 == m.kind) || m.cls == 3
  || (m.reach ≥ n && m.reach != 0x3F)

/-- The redundancy bit of FAULT_STATUS that a kind sets (Tables FAULT-4 and FAULT-5). -/
def redundancyBit (m : FaultMsg) : Option Nat :=
  match m.block, m.kind with
  | 1, 0x11 => some (36 + m.inst % 4)
  | 2, 0x10 => some (32 + m.inst % 2)
  | 3, 4 => some (34 + m.inst % 2)
  | 7, 2 => some 43
  | 10, 1 | 10, 2 => some 40
  | 12, 1 => some (41 + m.inst % 2)
  | _, _ => none

/-- Bits [63:32] of a FAULT_STATUS. -/
def redundancyOf (st : Nat) : Nat := st / 2 ^ 32

/-- The tile uses lane 9, for data or for the forwarded clock, in some direction (Table FAULT-7). -/
def Dev.spareUsed (d : Dev) (t : Nat) : Bool :=
  let g := d.igg (4 * t)
  if d.tileCode t == 3 then g.clkOn9 || g.pOn9 || g.subbed.isSome || g.subbedTx.isSome
  else (List.range 8).any fun n => (d.phy.lane.getD (t, n) {}).spared

/-- The redundancy causes present, in the layout of FAULT_STATUS (Table FAULT-7, FAULT_REDUNDANCY_GET). -/
def Dev.causes (d : Dev) : Nat :=
  bitsOf (fun k =>
    if k == 32 || k == 33 then ! d.fab.planes.getD (k - 32) true
    else if k == 34 || k == 35 then d.bas.stack.getD (k - 34) .inService != .inService
    else if 36 ≤ k && k ≤ 39 then ! d.art.up.getD (k - 36) true
    else if k == 40 then d.mgmt.standby != .ready
    else if k == 41 || k == 42 then ! d.pwr.valid.getD (k - 41) false
    else if k == 43 then (List.range 64).any d.spareUsed
    else false) 44

/-- A history entry (Table FAULT-6). -/
def Hist.bytes (h : Hist) : Bytes :=
  nb 16 (faultWord h.msg) ++ nb 4 h.flags ++ nb 4 h.index ++ nb 8 h.tTake

/-- A FAULT_RECORD of a message (Table MBX-13). -/
def Dev.faultRecord (d : Dev) (m : FaultMsg) : EvRec :=
  { code := 0x501, time := d.now, reach := if m.reach < 32 then m.reach else 0x3F, detail := nb 16 (faultWord m) }

/-- The AER bits (PRESUMED, PCIe Base 7.0) that this model keeps: 5 Surprise Down, 15 Completer Abort, 20 Unsupported
Request, 22 Uncorrectable Internal Error, 28 IDE Check Failed. -/
def Dev.aerSet (d : Dev) (link bit : Nat) : Dev :=
  d.onFlt fun f => { f with aer := f.aer.upd link 0 (fun v => setBit v bit) }

/-- A fault that ends a request is reported by that request's own completion (Table FAULT-8). -/
def endsRequest (m : FaultMsg) : Bool :=
  (m.block == 1 && (m.kind ≤ 3 || m.kind == 0x12)) || (m.block == 2 && (m.kind == 4 || m.kind == 5))
  || (m.block == 6 && m.kind ≥ 0x11)

/-- In-band reporting of a contained fault (Table FAULT-8). EARLY_ACK_WRITE_LOST is reported at the initiator's own
upstream port by the command that loses the write. -/
def Dev.reportInBand (d : Dev) (m : FaultMsg) : Dev :=
  if m.block == 8 && m.kind == 4 then d.aerSet m.inst 28
  else if m.block == 8 && (m.kind == 2 || m.kind == 3) then d.aerSet m.inst 5
  else if endsRequest m || (m.block == 4 && m.kind == 1) then d
  else if m.reach < d.nReach then (d.vcssOf m.reach).foldl (fun d v => d.aerSet v 22) d
  else d

/-- An automatic entry into Degraded is decided (R402, R31): in a Run mode, at the epoch of a pending commanded change
that acts at an epoch, or else at the first commit epoch at least 2 µs away. A return to Run that is pending is
cancelled. -/
def Dev.decideDegraded (m : Mode) (d : Dev) : Dev :=
  if m.isRun then
    let e := match d.ctl.pend with
      | some x => if x.begun then epochAfter d.now else x.epoch
      | none => epochAfter d.now
    d.onCtl fun c => { c with auto := some (c.auto.getD (true, e)), back := none }
  else if m = .degraded then d.onCtl fun c => { c with auto := none }
  else d

/-- The collector sets a redundancy bit; the first one moves a Run mode toward Degraded (R402). -/
def Dev.setRedundancy (m : Mode) (bit : Nat) (d : Dev) : Dev :=
  if d.flt.status.testBit bit then d
  else
    let d := d.onFlt fun f => { f with status := setBit f.status bit }
    let d := d.countDev 0x208 bit
    let d := d.traceRec 0x03 0xFF 0 (nb 1 bit)
    d.decideDegraded m

/-- A message joins the 64-entry ring; a full ring sets `wrapped` (R399). -/
def Flt.push (f : Flt) (h : Hist) : Flt :=
  { f with
    hist := (f.hist ++ [h]).drop (f.hist.length + 1 - 64)
    next := (f.next + 1) % 2 ^ 32
    status := if f.hist.length ≥ 64 then setBit f.status 5 else f.status }

/-- The class in which the collector records a message: class 0b11 as fatal (R391). -/
def recordedClass (m : FaultMsg) : Nat := if m.cls ≥ 2 then 2 else m.cls

/-- The collector takes a message (R395): the gap in its source's sequence (R393), the history entry, the counts, class
bits and snapshots, the redundancy bit, and the posting (R400). An injected message sets no redundancy bit and its seq
is ignored (R410). A fatal class stops admission and starts the sequence of R403. -/
def Dev.takeFault (mode : Mode) (m : FaultMsg) (injected : Bool) (d : Dev) : Dev :=
  let bad := malformed d.nReach m
  let cls := recordedClass m
  let key := (m.block, m.inst)
  let gap := if injected then 0 else (m.seq + 64 - d.flt.seqRx.getD key 0) % 64
  let d := if injected then d else d.onFlt fun f => { f with seqRx := f.seqRx.set key ((m.seq + 1) % 64) }
  let d := if gap = 0 then d
    else (d.onFlt fun f => { f with lost := (f.lost + gap) % 2 ^ 48, status := setBit f.status 3 }).countDev 0x20A
  let d := if bad then (d.onFlt fun f => { f with status := setBit f.status 4 }).count 0x126 64 else d
  let snapDev := ! d.flt.status.testBit cls
  let inReach := decide (m.reach < d.nReach)
  let snapReach := inReach && ! (d.flt.rstat.getD m.reach 0).testBit cls
  let rbit := if bad || injected then none else redundancyBit m
  let newBit := match rbit with
    | some b => ! d.flt.status.testBit b
    | none => false
  let posted := decide (cls ≥ 1) || snapDev || snapReach || newBit
  let flags := b2n bad + 2 * b2n (decide (gap ≠ 0)) + 4 * b2n (snapDev || snapReach) + 8 * b2n posted
    + 16 * b2n injected
  let h : Hist := { msg := m, index := d.flt.next, tTake := d.now, flags := flags }
  let d := d.onFlt fun f => f.push h
  let d := d.onFlt fun f => { f with
    fam := f.fam.upd (m.block, cls) 0 (fun v => (v + 1) % 2 ^ 48)
    cnt := if inReach then f.cnt.upd (m.reach, cls) 0 (fun v => (v + 1) % 2 ^ 48) else f.cnt
    status := setBit f.status cls
    rstat := if inReach then f.rstat.upd m.reach 0 (fun v => setBit v cls) else f.rstat
    snaps :=
      let s := if snapDev then f.snaps.set (32, cls) h else f.snaps
      if snapReach then s.set (m.reach, cls) h else s
    nvWait := if cls ≥ 1 then f.nvWait ++ [h] else f.nvWait }
  let d := match rbit with
    | some b => d.setRedundancy mode b
    | none => d
  let d := if cls = 1 then d.countDev 0x207 else d
  let d := if cls ≥ 1 then d.traceRec 0x03 0xFF (m.block + 256 * (m.kind % 256))
      (nb 1 m.cls ++ nb 1 m.inst ++ nb 1 m.reach) else d
  let d := if ! posted then d
    else if bad then
      (((d.postTo .admin (d.faultRecord m)).postTo .oob (d.faultRecord m)).postTo .tunnel (d.faultRecord m))
    else d.post (d.faultRecord m)
  let d := if cls = 1 && ! bad && ! injected then d.reportInBand m else d
  if cls = 2 then
    { d with flt := { d.flt with fatal := true }, weir := { d.weir with stopped := true } }
  else d

/-- FAULT_STATUS of a scope: 32 the device, 0–31 a Reach, of which bits [63:3] read 0 (R396). -/
def Dev.faultStatus (d : Dev) (scope : Nat) : Nat :=
  if scope ≥ 32 then d.flt.status else d.flt.rstat.getD scope 0 % 8

/-- `v` without the bits of `mask`. -/
def maskOff (v mask n : Nat) : Nat := bitsOf (fun k => v.testBit k && ! mask.testBit k) n

/-- A clear (R397): the message bits clear with their snapshots, and a redundancy bit clears only when its cause is
gone. A clear that leaves no redundancy bit counts REDUNDANCY_RESTORED and decides the return (R402): in Degraded, or before a pending
entry, which a return at the same epoch cancels. -/
def Dev.clearFault (mode : Mode) (scope mask : Nat) (d : Dev) : Dev :=
  let drop (f : Flt) (sc : Nat) : Tbl (Nat × Nat) Hist :=
    f.snaps.filter fun e => ! (e.1.1 == sc && mask.testBit e.1.2)
  if scope < 32 then
    d.onFlt fun f => { f with rstat := f.rstat.upd scope 0 (fun v => maskOff v (mask % 8) 3), snaps := drop f scope }
  else
    let before := redundancyOf d.flt.status
    let c := d.causes
    let st := bitsOf (fun k => d.flt.status.testBit k && (! mask.testBit k || (decide (k ≥ 32) && c.testBit k))) 44
    let d := d.onFlt fun f => { f with status := st, snaps := drop f 32 }
    if before ≠ 0 ∧ redundancyOf st = 0 then
      let d := (d.countDev 0x209).traceRec 0x03 0xFF 0 (nb 1 0x20)
      let b := epochAfter d.now
      if mode = .degraded then d.onCtl fun x => { x with auto := some (false, b) }
      else match d.ctl.auto with
        | some (true, e) => if tGe e b then d.onCtl fun x => { x with auto := none } else d.onCtl fun x => { x with back := some b }
        | _ => d
    else d

end Sys2Proof.Machine
end

