-- ==== Sys2Proof/Machine/Faults.lean ====
section
/-! DEFINITION. Faults, containment and availability (chapter 17): the fault commands of Table FAULT-12 and the
collector's own events. -/

namespace Sys2Proof.Machine

/-- The scope and reach fields at `o` and `o + 1`: `reachCode` names the Reach scope, the other of 0 and 1 the device
scope, in which the reach byte must be 0. A Reach mailbox may name only its own Reach (R351). -/
def scopeChecks (o reachCode : Nat) : List Check :=
  [fun c => if c.u8 o > 1 then some (invalid o)
     else match c.f.mbx with
       | .reach _ => if c.u8 o = reachCode then none else some (plain .accessDenied)
       | _ => none,
   fun c => if c.u8 o = reachCode then reachAt (o + 1) c else if c.u8 (o + 1) = 0 then none else some (invalid (o + 1))]

/-- Commands that hosts may read for their own Reach and an Observer or above for any (R409). -/
def Src.watch : Src := { hosts := true, tunnel := true, role := some 1 }

/-- The collector's scope that a fault command names: 32 for the device. -/
def Ctx.faultScope (c : Ctx) : Nat := if c.u8 0 = 1 then c.u8 1 else 32

/-- The count of messages of a class in a scope (FAULT_STATUS_GET); the device's is the sum over block families. -/
def Dev.faultCount (d : Dev) (scope cls : Nat) : Nat :=
  if scope ≥ 32 then ((List.range 16).map fun b => d.flt.fam.getD (b, cls) 0).sum % 2 ^ 48
  else d.flt.cnt.getD (scope, cls) 0

/-- FAULT_STATUS_GET (R396, Table FAULT-12). -/
def cmdFaultStatusGet : Cmd where
  op := 0x9000
  len := 4
  src := Src.watch
  fields := scopeChecks 0 1 ++ [rsvd 2 2]
  body := reads fun c =>
    let s := c.faultScope
    nb 8 (c.d.faultStatus s) ++ nb 8 (c.d.faultCount s 0) ++ nb 8 (c.d.faultCount s 1) ++ nb 8 (c.d.faultCount s 2)
      ++ nb 8 (if s = 32 then c.d.flt.lost else 0)

def execFaultStatusGet (dt : Nat) (f : Frame) (s : State) : Host.Outcome State Fault Refusal :=
  bilod cmdFaultStatusGet dt f s

/-- FAULT_STATUS_CLEAR (R397): scope 1 from a Reach mailbox for its own Reach, scope 0 from the sources of R72, and no
other use (R409). -/
def cmdFaultStatusClear : Cmd where
  op := 0x9001
  len := 16
  src := { Src.operator with hosts := true }
  fields := scopeChecks 0 1 ++
    [fun c => match c.f.mbx with
       | .reach _ => none
       | _ => if c.u8 0 = 0 then none else some (plain .accessDenied),
     rsvd 2 2, rsvd 4 4, need 8 fun c => c.u8 0 == 0 || bits (c.u64 8) 63 3 == 0]
  body := fun c =>
    let d := c.d.clearFault c.m c.faultScope (c.u64 8)
    (d, .done (nb 8 (d.faultStatus c.faultScope)))

def execFaultStatusClear (dt : Nat) (f : Frame) (s : State) : Host.Outcome State Fault Refusal :=
  bilod cmdFaultStatusClear dt f s

/-- FAULT_SNAPSHOT_GET (R398): all 0 when no snapshot is held. -/
def cmdFaultSnapshotGet : Cmd where
  op := 0x9002
  len := 4
  src := Src.watch
  fields := scopeChecks 0 1 ++ [atMost 2 2, rsvd 3 1]
  body := reads fun c =>
    match c.d.flt.snaps.get? (c.faultScope, c.u8 2) with
    | some h => h.bytes
    | none => zeros 32

def execFaultSnapshotGet (dt : Nat) (f : Frame) (s : State) : Host.Outcome State Fault Refusal :=
  bilod cmdFaultSnapshotGet dt f s

/-- FAULT_HISTORY_READ (R399): the entries held from an index on. -/
def cmdFaultHistoryRead : Cmd where
  op := 0x9003
  len := 8
  src := Src.observer
  fields := [need 4 fun c => decide (1 ≤ c.u8 4) && decide (c.u8 4 ≤ 64), rsvd 5 3]
  body := reads fun c =>
    let h := c.d.flt.hist
    let from_ := h.filter fun e => decide ((e.index + 2 ^ 32 - c.u32 0) % 2 ^ 32 < 2 ^ 31)
    nb 4 ((h.head?.map (·.index)).getD c.d.flt.next) ++ nb 4 c.d.flt.next
      ++ ((from_.take (c.u8 4)).map Hist.bytes).flatten

def execFaultHistoryRead (dt : Nat) (f : Frame) (s : State) : Host.Outcome State Fault Refusal :=
  bilod cmdFaultHistoryRead dt f s

/-- FAULT_REDUNDANCY_GET (R409). -/
def cmdFaultRedundancyGet : Cmd where
  op := 0x9004
  src := Src.observer
  body := reads fun c => nb 8 c.d.causes ++ nb 8 (bitsOf c.d.spareUsed 64)

def execFaultRedundancyGet (dt : Nat) (f : Frame) (s : State) : Host.Outcome State Fault Refusal :=
  bilod cmdFaultRedundancyGet dt f s

/-- FAULT_LOG_READ (R409): records of the NV log, numbered from the oldest held. -/
def cmdFaultLogRead : Cmd where
  op := 0x9005
  len := 8
  src := Src.observer
  fields := [need 4 fun c => decide (1 ≤ c.u8 4) && decide (c.u8 4 ≤ 64), rsvd 5 3]
  body := reads fun c =>
    nb 4 c.d.flt.nvBase ++ (((c.d.flt.nvLog.drop (c.u32 0 - c.d.flt.nvBase)).take (c.u8 4)).map fun x => x.h.bytes).flatten

def execFaultLogRead (dt : Nat) (f : Frame) (s : State) : Host.Outcome State Fault Refusal :=
  bilod cmdFaultLogRead dt f s

/-- FAULT_COUNT_GET (R409): counts by block family and class, family-major. -/
def cmdFaultCountGet : Cmd where
  op := 0x9006
  src := Src.observer
  body := reads fun c =>
    ((List.range 48).map fun i => nb 8 (c.d.flt.fam.getD (i / 3, i % 3) 0)).flatten

def execFaultCountGet (dt : Nat) (f : Frame) (s : State) : Host.Outcome State Fault Refusal :=
  bilod cmdFaultCountGet dt f s

/-- FAULT_INJECT (R410): handled as a taken message with the injected flag; class 0b10 only in Diagnostic. -/
def cmdFaultInject : Cmd where
  op := 0x9007
  len := 16
  src := Src.admin
  fields := [need 13 fun c => bits (leN c.f.payload 0 16) 105 104 != 3]
  state := [require .wrongMode fun c => bits (leN c.f.payload 0 16) 105 104 != 2 || c.m == .diagnostic]
  body := changes fun c => c.d.takeFault c.m (faultOfWord (leN c.f.payload 0 16)) true

def execFaultInject (dt : Nat) (f : Frame) (s : State) : Host.Outcome State Fault Refusal :=
  bilod cmdFaultInject dt f s

/-- The collector runs while the core rails are on (chapter 17). -/
def collectorOn (m : Mode) : Bool := m != .shelf

/-- The collector takes a fault message (R395); a message in transit leaves the network. -/
def execFaultMessageTaken (dt : Nat) (m : FaultMsg) (s : State) : Host.Outcome State Fault Refusal :=
  event dt s fun mode _ d =>
    if collectorOn mode then
      Dev.takeFault mode m false (d.onFlt fun f => { f with transit := f.transit.erase m })
    else d

/-- The fatal line is driven: admission stops on every tile (R394). -/
def execFatalLine (dt : Nat) (s : State) : Host.Outcome State Fault Refusal :=
  event dt s fun mode _ d =>
    if collectorOn mode then
      { d with flt := { d.flt with line := some (d.flt.line.getD d.clk.t6) }, weir := { d.weir with stopped := true } }
    else d

/-- No fatal message arrives within 1 µs of the fatal line: the collector records FATAL_UNIDENTIFIED (R394). -/
def execFatalUnidentified (dt : Nat) (s : State) : Host.Outcome State Fault Refusal :=
  event dt s fun mode _ d =>
    match d.flt.line with
    | some t =>
      if collectorOn mode && ! d.flt.fatal && decide (d.since t ≥ us6) then
        let sq := d.flt.seqRx.getD (14, 0) 0
        let d := d.onFlt fun f => { f with seqTx := f.seqTx.upd (14, 0) 0 (fun v => (v + 1) % 64) }
        Dev.takeFault mode
          { block := 14, inst := 0, kind := 3, cls := 2, reach := 0x3F, detail := 0, time := d.now, seq := sq }
          false d
      else d
    | none => d

end Sys2Proof.Machine
end

