-- ==== Sys2Proof/Machine/Noc.lean ====
section
/-! DEFINITION. Internal network and clock islands (chapter 14): statistics, the Sluice that fences and switches off
power domains, lost packets and failed requests. -/

namespace Sys2Proof.Machine

/-- A domain of Table NOC-1 that the device may switch off (0–82). -/
def gatable (k : Nat) : Bool := decide (k ≤ 82)

/-- A domain with a stop: every one but the four networks (R321). -/
def hasStop (k : Nat) : Bool := decide (k < 96) && ! (86 ≤ k && k ≤ 89)

/-- The window of a link in progress closes and is published, marked partial if it is shorter than its size (R423,
R424). -/
def BwWin.close (w : BwWin) (now : Nat) : BwWin :=
  let len := (now + 2 ^ 40 - w.start) % 2 ^ 40
  { w with
    start := now, tx := 0, rx := 0, seq := (w.seq + 1) % 2 ^ 32
    pTx := w.tx, pRx := w.rx, pStart := w.start, pK := w.k, pSeq := w.seq
    pPart := decide (len < 2 ^ w.k * 1000), fresh := true }

/-- A domain is fenced for switch-off (R329); a request for a domain that is fencing or off has no effect (R330). -/
def Dev.fence (d : Dev) (k cause : Nat) : Dev :=
  match d.noc.dom.get? k with
  | some _ => d
  | none => if gatable k then d.onNoc fun x => { x with dom := x.dom.set k (.fencing d.clk.t6 cause) } else d

/-- Steps 4 and 5 of Table NOC-6: a tile's bandwidth windows are closed and published (R332), the domain is off, and
DOMAIN_GATED is counted. Its counters keep their values: the retention store holds them. -/
def Dev.gate (d : Dev) (k cause : Nat) : Dev :=
  let d := if k < 64 then
      d.onTele fun t => { t with
        bw := t.bw.map fun e => if e.1 / 4 = k then (e.1, e.2.close d.now) else e
        capture := t.capture.filter fun e => decide (e.1.1 ≠ k) }
    else d
  (d.onNoc fun x => { x with dom := x.dom.set k (.off d.now cause) }).count 0x125 64 0x3F k

/-- The refusal LFSR of a tile is seeded from the DRBG with a value that is not 0 when the tile powers up (R60). -/
def Dev.seedLfsr (d : Dev) (tile : Nat) : Dev :=
  let (v, d) := d.drawNat (2 ^ 16 - 1)
  d.onWeir fun w => { w with lfsr := w.lfsr.set tile (v + 1) }

/-- The trace gap record of a gated interval of a tile domain (Table NOC-7). -/
def Dev.gapRecord (d : Dev) (k cause tOff tOn : Nat) : Dev :=
  if d.tele.trOn && ! d.tele.trDone then
    d.onTele fun t =>
      let recs := t.trRecs ++ [nb 1 0x7F ++ nb 1 k ++ nb 2 cause ++ nb 5 tOff ++ nb 5 tOn ++ zeros 2]
      let excess := recs.length - 65536
      { t with
        trRecs := if t.trStop then recs else recs.drop excess
        trBase := if t.trStop then t.trBase else t.trBase + excess
        trCount := t.trCount + 1 }
  else d

/-- A domain is powered on, restored and unfenced (R331); a request while it is fencing waits (R330). A tile receives
its gap record, its windows start again, its LFSR is seeded, and sampling stays disarmed until its first event. -/
def Dev.powerOn (d : Dev) (k : Nat) : Dev :=
  match d.noc.dom.get? k with
  | some (.off tOff cause) =>
    let d := d.onNoc fun x => { x with dom := x.dom.erase k, wakeQ := x.wakeQ.filter (fun y => decide (y ≠ k)) }
    if k < 64 then
      let d := d.gapRecord k cause tOff d.now
      let d := d.onTele fun t => { t with
        disarm := k :: t.disarm.filter (fun y => decide (y ≠ k))
        bw := t.bw.map fun e => if e.1 / 4 = k then (e.1, { e.2 with start := d.now, tx := 0, rx := 0 }) else e }
      d.seedLfsr k
    else d
  | some (.fencing _ _) =>
    d.onNoc fun x => { x with wakeQ := if x.wakeQ.contains k then x.wakeQ else x.wakeQ ++ [k] }
  | none => d

/-- A domain is switched off, and a request to power it on that waited for this acts (R330). -/
def Dev.switchOff (d : Dev) (k cause : Nat) : Dev :=
  let d := d.gate k cause
  if d.noc.wakeQ.contains k then d.powerOn k else d

def execSluiceFenceRequest (dt d cause : Nat) (s : State) : Host.Outcome State Fault Refusal :=
  event dt s fun _ _ v => v.fence d cause

/-- The drain of a fenced domain is complete: it is saved and switched off (R329). -/
def execSluiceDrainDone (dt d : Nat) (s : State) : Host.Outcome State Fault Refusal :=
  event dt s fun _ _ v =>
    match v.noc.dom.get? d with
    | some (.fencing _ cause) => v.switchOff d cause
    | _ => v

/-- The drain is forced after 100 µs (R330). The number of requests forced is free (assumption 12). -/
def execSluiceForced (dt d : Nat) (s : State) : Host.Outcome State Fault Refusal :=
  event dt s fun _ _ v =>
    match v.noc.dom.get? d with
    | some (.fencing t _) =>
      if v.since t ≥ 100 * us6 then
        let (n, v) := v.drawNat (2 ^ 16)
        ((v.countDev 0x206 d).sendFault 9 d 2 1 0x3F n).switchOff d 3
      else v
    | _ => v

def execDomainPowerOn (dt d : Nat) (s : State) : Host.Outcome State Fault Refusal :=
  event dt s fun _ _ v => v.powerOn d

/-- A flit fails its CRC twice: its packet is discarded (R328). A lost fault message shows as a gap in its source's
sequence (R393). -/
def execNocPacketLost (dt net dom : Nat) (isFault : Bool) (s : State) : Host.Outcome State Fault Refusal :=
  event dt s fun _ _ d =>
    let d := if isFault then d.onFlt fun f => { f with transit := f.transit.drop 1 } else d
    ((d.count 0x124 64 0x3F net).countDev 0x205 net).sendFault 9 dom 1 1 0x3F net

/-- NOC_STATS_GET (R334, Table NOC-9). -/
def cmdNocStatsGet : Cmd where
  op := 0x8F00
  len := 4
  src := { role := some 1 }
  fields := [need 0 fun c => hasStop (c.u8 0), atMost 1 3, rsvd 2 2]
  body := reads fun c =>
    let s := c.d.noc.stats.getD (c.u8 0, c.u8 1) {}
    nb 8 s.packets ++ nb 8 s.flits ++ nb 8 s.latSum ++ nb 4 s.latMax ++ zeros 4

def execNocStatsGet (dt : Nat) (f : Frame) (s : State) : Host.Outcome State Fault Refusal :=
  bilod cmdNocStatsGet dt f s

/-- NOC_STATS_CLEAR (R336): the statistics of one stop, or of all. -/
def cmdNocStatsClear : Cmd where
  op := 0x8F01
  len := 4
  src := { role := some 2 }
  fields := [need 0 fun c => hasStop (c.u8 0) || c.u8 0 == 0xFF, rsvd 1 3]
  body := changes fun c => c.d.onNoc fun x => { x with
    stats := x.stats.filter fun e => ! (c.u8 0 == 0xFF || e.1.1 == c.u8 0) }

def execNocStatsClear (dt : Nat) (f : Frame) (s : State) : Host.Outcome State Fault Refusal :=
  bilod cmdNocStatsClear dt f s

/-- DOMAIN_STATUS_GET (R336): domains on, domains fenced, and the DOMAIN_GATED total. -/
def cmdDomainStatusGet : Cmd where
  op := 0x8F02
  src := { role := some 1 }
  body := reads fun c =>
    nb 12 (bitsOf (fun k => ! c.d.domOff k) 96) ++ nb 12 (bitsOf (fun k => (c.d.noc.dom.get? k).isSome) 96)
      ++ nb 8 (c.d.tally 64 0x125)

def execDomainStatusGet (dt : Nat) (f : Frame) (s : State) : Host.Outcome State Fault Refusal :=
  bilod cmdDomainStatusGet dt f s

end Sys2Proof.Machine
end

