-- ==== Sys2Proof/Machine/Counters.lean ====
section
/-! DEFINITION. Counters, telemetry and background work (chapter 18). -/

namespace Sys2Proof.Machine

/-- An event select code names an event (Tables TELE-1, TELE-2, TELE-4, TELE-5; R464, R518, chapters 19 and 22). -/
def selDefined (sel : Nat) : Bool :=
  if sel < 0x100 then decide (sel % 16 < [1, 1, 1, 4, 1, 3, 2, 1, 2, 4, 3, 3, 3, 1, 2, 2].getD (sel / 16) 0)
  else if sel < 0x128 then true
  else if sel < 0x200 then false
  else sel < 0x210 || (0x240 ≤ sel && sel < 0x244) || sel == 0x250 || sel == 0x251
    || (0x260 ≤ sel && sel < 0x264) || (0x280 ≤ sel && sel < 0x2C8)

/-- The event has a Reach dimension (the "Counted per" columns; R417). -/
def selReach (sel : Nat) : Bool :=
  [0x000, 0x020, 0x051, 0x052, 0x070, 0x080, 0x0B1, 0x0B2, 0x108, 0x109, 0x10A, 0x113, 0x11B, 0x204].contains sel
  || (0x100 ≤ sel && sel ≤ 0x107)

/-- The event has a class dimension. -/
def selClass (sel : Nat) : Bool :=
  [0x000, 0x010, 0x109, 0x10A].contains sel || (0x100 ≤ sel && sel ≤ 0x107)

/-- The event has an instance dimension: a link, an egress, or another instance. -/
def selInst (sel : Nat) : Bool :=
  ! [0x020, 0x052, 0x0B2, 0x108, 0x109, 0x10A, 0x11B, 0x126, 0x200, 0x201, 0x203, 0x204, 0x207, 0x208, 0x209, 0x20A,
     0x20B, 0x20D, 0x20F, 0x240, 0x241, 0x242, 0x243, 0x250, 0x251].contains sel

/-- The counters of a scope: 8 per tile, 32 in the device block. -/
def Ctx.ctrs (c : Ctx) : Nat := if c.u8 0 = 1 then 32 else 8

/-- The block a counter command names: a tile, or 64 for the device block. -/
def Ctx.blk (c : Ctx) : Nat := if c.u8 0 = 1 then 64 else c.u8 1

/-- Device counters of a Reach's share (Table REACH-1). -/
def Dev.ownCounter (d : Dev) (r k : Nat) : Bool := k / (32 / max 1 d.nReach) == r

/-- Scope and tile of a counter command; a Reach mailbox has device counters only (R430). -/
def ctrScope : List Check :=
  [fun c => if c.u8 0 > 1 then some (invalid 0)
     else match c.f.mbx with
       | .reach _ => if c.u8 0 = 1 then none else some (plain .accessDenied)
       | _ => none,
   need 1 fun c => if c.u8 0 = 1 then c.u8 1 == 0 else decide (c.u8 1 < 64)]

/-- The counter number at offset 2, of the Reach's share on a Reach mailbox (R421). -/
def ctrNumber : Check := fun c =>
  if c.u8 2 ≥ c.ctrs then some (invalid 2)
  else match c.f.mbx with
    | .reach r => if c.d.ownCounter r (c.u8 2) then none else some (plain .accessDenied)
    | _ => none

/-- Set and write commands of measurement: the sources of R72 and, for its own share, a Reach mailbox (R430). -/
def Src.measure : Src := { Src.operator with hosts := true }

/-- The configuration word of COUNTER_CONFIG_SET, its fields in ascending byte offset (Table TELE-3, R416–R418, R421). -/
def ctrWord : List Check :=
  let w (c : Ctx) : Nat := c.u64 4
  let ev (c : Ctx) : Nat := bits (w c) 43 32
  [need 4 fun c => bits (w c) 8 0 == 0,
   fun c => match c.f.mbx with
     | .reach r => if (w c).testBit 14 || bits (w c) 13 9 != r then some (plain .accessDenied) else none
     | _ => none,
   need 5 fun c => decide (bits (w c) 13 9 < c.d.nReach) && ((w c).testBit 14 || selReach (ev c) || ! selDefined (ev c)),
   need 5 fun c => decide (bits (w c) 17 15 < 6) && ((w c).testBit 18 || selClass (ev c) || ! selDefined (ev c)),
   need 6 fun c => (w c).testBit 28 || selInst (ev c) || ! selDefined (ev c),
   need 7 fun c => bits (w c) 31 29 == 0,
   need 8 fun c => selDefined (ev c) && (c.u8 0 == 1 || ! deviceSel (ev c)),
   need 9 fun c => bits (w c) 45 44 == 0,
   need 9 fun c => ! (w c).testBit 46 || (0x105 ≤ ev c && ev c ≤ 0x107),
   need 10 fun c => c.u8 0 == 0 || ! (w c).testBit 49,
   need 10 fun c => bits (w c) 63 50 == 0]

/-- COUNTER_CONFIG_SET (R415): a configuration change does not alter the value (R419). -/
def cmdCounterConfigSet : Cmd where
  op := 0x8000
  len := 20
  src := Src.measure
  fields := ctrScope ++ [ctrNumber, rsvd 3 1] ++ ctrWord ++ [rsvd 18 2]
  body := changes fun c => c.d.onTele fun t => { t with
    ctr := t.ctr.upd (c.blk, c.u8 2) {} fun x => { x with cfg := c.u64 4, reload := leN c.f.payload 12 6 } }

def execCounterConfigSet (dt : Nat) (f : Frame) (s : State) : Host.Outcome State Fault Refusal :=
  bilod cmdCounterConfigSet dt f s

/-- COUNTER_CONFIG_GET. -/
def cmdCounterConfigGet : Cmd where
  op := 0x8001
  len := 4
  src := Src.watch
  fields := ctrScope ++ [ctrNumber, rsvd 3 1]
  body := reads fun c =>
    let x := c.d.tele.ctr.getD (c.blk, c.u8 2) {}
    nb 8 x.cfg ++ nb 6 x.reload

def execCounterConfigGet (dt : Nat) (f : Frame) (s : State) : Host.Outcome State Fault Refusal :=
  bilod cmdCounterConfigGet dt f s

/-- COUNTER_READ (R420): values in list order. The last read follows the first by at most 200 ns a counter; the time
within that bound is free (assumption 12). -/
def cmdCounterRead : Cmd where
  op := 0x8002
  len := 4
  src := Src.watch
  fields := ctrScope ++
    [ctrNumber,
     fun c =>
       if c.u8 3 = 0 ∨ c.u8 2 + c.u8 3 > c.ctrs then some (invalid 3)
       else match c.f.mbx with
         | .reach r => if c.d.ownCounter r (c.u8 2 + c.u8 3 - 1) then none else some (plain .accessDenied)
         | _ => none]
  body := fun c =>
    let n := c.u8 3
    let (lag, d) := c.d.drawNat ((n - 1) * 200 + 1)
    let v (i : Nat) : Counter := d.tele.ctr.getD (c.blk, c.u8 2 + i) {}
    (d, .done (nb 5 d.now ++ nb 5 (d.now + lag) ++ nb 4 (bitsOf (fun i => (v i).ovf) n) ++ zeros 2
      ++ ((List.range n).map fun i => nb 8 (v i).value).flatten))

def execCounterRead (dt : Nat) (f : Frame) (s : State) : Host.Outcome State Fault Refusal :=
  bilod cmdCounterRead dt f s

/-- COUNTER_WRITE (R419): writes the value, clears the overflow bit, or both. -/
def cmdCounterWrite : Cmd where
  op := 0x8003
  len := 12
  src := Src.measure
  fields := ctrScope ++ [ctrNumber, rsvdBits 3 7 2, rsvd 10 2]
  body := fun c =>
    let g (x : Counter) : Counter :=
      let x := if (c.u8 3).testBit 0 then { x with value := leN c.f.payload 4 6 } else x
      if (c.u8 3).testBit 1 then { x with ovf := false } else x
    let d := c.d.onTele fun t => { t with ctr := t.ctr.upd (c.blk, c.u8 2) {} g }
    (d, .done (nb 1 (b2n (d.tele.ctr.getD (c.blk, c.u8 2) {}).ovf)))

def execCounterWrite (dt : Nat) (f : Frame) (s : State) : Host.Outcome State Fault Refusal :=
  bilod cmdCounterWrite dt f s

/-- The tally that TALLY_READ names: of a tile, or in device scope the device event or the sum over every tile. -/
def Dev.tallyRead (d : Dev) (blk sel reach : Nat) : Nat :=
  let one (b : Nat) : Nat := if reach < 32 then d.tele.rtally.getD (b, sel, reach) 0 else d.tally b sel
  if blk < 64 || deviceSel sel then one blk else ((List.range 64).map one).sum % 2 ^ 48

/-- TALLY_READ (R411). -/
def cmdTallyRead : Cmd where
  op := 0x8004
  len := 8
  src := Src.watch
  fields :=
    [atMost 0 1, need 1 fun c => if c.u8 0 = 1 then c.u8 1 == 0 else decide (c.u8 1 < 64),
     need 2 fun c => selDefined (c.u16 2) && (c.u8 0 == 1 || ! deviceSel (c.u16 2)),
     fun c => match c.f.mbx with
       | .reach r => if c.u8 4 = r then none else some (plain .accessDenied)
       | _ => none,
     need 4 fun c => c.u8 4 == 0xFF || (decide (c.u8 4 < c.d.nReach) && selReach (c.u16 2)),
     rsvd 5 3]
  body := reads fun c => nb 8 (c.d.tallyRead c.blk (c.u16 2) (c.u8 4)) ++ nb 5 c.d.now

def execTallyRead (dt : Nat) (f : Frame) (s : State) : Host.Outcome State Fault Refusal :=
  bilod cmdTallyRead dt f s

/-- The 16-bit link number at `o` names a link (R14). -/
def linkAt (o : Nat) : Check := need o fun c => c.d.isLink (c.u16 o)

/-- On a Reach mailbox the link at `o` is one of its own (R351). -/
def ownLinkAt (o : Nat) : Check := fun c =>
  match c.f.mbx with
  | .reach r => if c.d.ownsPart r (c.u16 o) then none else some (plain .accessDenied)
  | _ => none

/-- BW_WINDOW_SET (R424): the new size acts at its first boundary. -/
def cmdBwWindowSet : Cmd where
  op := 0x8005
  len := 4
  src := Src.operator
  fields := [linkAt 0, atMost 2 20, rsvd 3 1]
  body := changes fun c => c.d.onTele fun t => { t with
    bw := t.bw.upd (c.u16 0) {} fun w => { w with newK := some (c.u8 2, c.d.now) } }

def execBwWindowSet (dt : Nat) (f : Frame) (s : State) : Host.Outcome State Fault Refusal :=
  bilod cmdBwWindowSet dt f s

/-- BW_WINDOW_GET (R423): the window last published. -/
def cmdBwWindowGet : Cmd where
  op := 0x8006
  len := 4
  src := Src.watch
  fields := [linkAt 0, ownLinkAt 0, rsvd 2 2]
  body := reads fun c =>
    let w := c.d.tele.bw.getD (c.u16 0) {}
    nb 6 w.pTx ++ nb 6 w.pRx ++ nb 5 w.pStart ++ nb 1 w.pK ++ nb 1 (b2n w.pPart) ++ zeros 1 ++ nb 4 w.pSeq

def execBwWindowGet (dt : Nat) (f : Frame) (s : State) : Host.Outcome State Fault Refusal :=
  bilod cmdBwWindowGet dt f s

/-- A bandwidth window ends (R423, R424): at a boundary of its size, or of a new size set before that boundary. -/
def execBwWindowBoundary (dt link : Nat) (s : State) : Host.Outcome State Fault Refusal :=
  event dt s fun _ _ d =>
    let w := d.tele.bw.getD link {}
    let bound (k : Nat) : Nat := d.now / (2 ^ k * 1000) * (2 ^ k * 1000)
    let put (w : BwWin) : Dev := d.onTele fun t => { t with bw := t.bw.set link w }
    match w.newK with
    | some (k, t0) =>
      if bound k ≥ t0 ∧ bound k > w.start then put { w.close (bound k) with k := k, newK := none }
      else if bound w.k > w.start then put (w.close (bound w.k)) else d
    | none => if bound w.k > w.start then put (w.close (bound w.k)) else d

/-- SAMPLE_READ (R422): returns and removes records; the count of dropped captures saturates. -/
def cmdSampleRead : Cmd where
  op := 0x8007
  len := 4
  src := Src.observer
  fields := [atMost 0 63, need 1 fun c => decide (1 ≤ c.u8 1) && decide (c.u8 1 ≤ 16), rsvd 2 2]
  body := fun c =>
    let x := c.d.tele.samp.getD (c.u8 0) {}
    let out := x.recs.take (c.u8 1)
    let d := c.d.onTele fun t => { t with samp := t.samp.set (c.u8 0) { x with recs := x.recs.drop (c.u8 1) } }
    (d, .done (nb 1 out.length ++ nb 1 (x.recs.length - out.length) ++ nb 2 (min x.dropped 0xFFFF) ++ zeros 4
      ++ out.flatten))

def execSampleRead (dt : Nat) (f : Frame) (s : State) : Host.Outcome State Fault Refusal :=
  bilod cmdSampleRead dt f s

/-- A counter's filters accept an admitted message (R422): its Reach, class and instance, which is the egress for
events counted at an egress and the ingress link for others. -/
def Counter.samples (c : Counter) (a : Adm) : Bool :=
  let ev := bits c.cfg 43 32
  let inst := if [0x102, 0x103, 0x106, 0x107].contains ev then a.egress else a.link
  (c.cfg.testBit 28 || bits c.cfg 27 19 == inst) && (c.cfg.testBit 18 || bits c.cfg 17 15 == a.cls)
  && (c.cfg.testBit 14 || bits c.cfg 13 9 == a.reach)

/-- A message was admitted: a sample of it may be captured, and every pending capture whose filters accept it counts
it toward its skid (R422). -/
def Dev.noteAdmitted (d : Dev) (tile : Nat) (a : Adm) : Dev :=
  let t := d.tele
  { d with
    weir := { d.weir with recent := d.weir.recent.set tile a }
    tele := { t with capture := t.capture.map fun e =>
      if e.1.1 = tile ∧ (t.ctr.getD e.1 {}).samples a then (e.1, (e.2.1, e.2.2 + 1)) else e } }

/-- A capture takes the message that the tile admitted last (R422): at most 7 others that the counter accepts came
between, no more than 10 µs passed, and a full record store drops it. -/
def execSampleCapture (dt tile id : Nat) (s : State) : Host.Outcome State Fault Refusal :=
  event dt s fun _ _ d =>
    match d.weir.recent.get? tile with
    | some a =>
      let ok (e : (Nat × Nat) × (Nat × Nat)) : Bool :=
        e.1.1 == tile && decide (1 ≤ e.2.2) && decide (e.2.2 ≤ 8) && decide (d.since e.2.1 < 10 * us6)
        && (d.tele.ctr.getD e.1 {}).samples a
      if a.id ≠ id then d
      else match d.tele.capture.find? ok with
        | some e =>
          let x := d.tele.samp.getD tile {}
          let full := decide (x.recs.length ≥ 16)
          let y : Samples := if full then { x with dropped := x.dropped + 1, lostBefore := true }
            else { x with recs := x.recs ++ [nb 1 e.1.2 ++ nb 1 (b2n x.lostBefore + 2 * byteAt a.body 0) ++ a.body.drop 1]
                          lostBefore := false }
          let d := d.onTele fun t => { t with capture := t.capture.erase e.1, samp := t.samp.set tile y }
          if full then d
          else
            let d := d.traceRec 0x04 tile e.1.2 (slice a.body 9 2)
            if x.recs.isEmpty then d.count 0xF1 tile 0x3F e.1.2 else d
        | none => d
    | none => d

/-- A capture that found no message within 10 µs is abandoned (R422). -/
def execSampleCaptureTimeout (dt tile ctr : Nat) (s : State) : Host.Outcome State Fault Refusal :=
  event dt s fun _ _ d =>
    match d.tele.capture.get? (tile, ctr) with
    | some (t6, _) =>
      if d.since t6 ≥ 10 * us6 then d.onTele fun t => { t with capture := t.capture.erase (tile, ctr) } else d
    | none => d

/-- The 100 µs of a source end: one record for each member that advanced since its last record (R414). -/
def execSourceRecordHoldoff (dt src : Nat) (s : State) : Host.Outcome State Fault Refusal :=
  event dt s fun _ _ d =>
    match d.tele.src.get? src with
    | some x =>
      if d.since x.last6 ≥ 100 * us6 ∧ ! x.pend.isEmpty then
        let d := d.onTele fun t => { t with src := t.src.set src { last6 := d.clk.t6, pend := [] } }
        x.pend.foldl (fun d e =>
          let field := if src < 0x400 then e.1 % 16 * 4096 + e.2.1 % 4096 else e.2.1
          let blk := if src < 0x400 then src / 16 else 64
          let detail := nb 2 field ++ nb 6 (d.tally blk e.1)
          d.post { code := src, time := d.now, reach := e.2.2, detail := detail }) d
      else d
    | none => d

/-- TRACE_SET (R425): an enable starts the count of records anew. A stop writes the gap record of every tile that was
removed and not added again (R333). -/
def cmdTraceSet : Cmd where
  op := 0x8008
  len := 4
  src := Src.operator
  fields := [rsvdBits 0 7 2, rsvdBits 1 7 6, rsvd 2 2]
  body := changes fun c =>
    let d := c.d
    let on := (c.u8 0).testBit 0
    let d := if d.tele.trOn && ! on then
        d.noc.dom.foldl (fun d e =>
          match e.2 with
          | .off tOff cause => if e.1 < 64 && cause == 2 then d.gapRecord e.1 cause tOff (2 ^ 40 - 1) else d
          | _ => d) d
      else d
    d.onTele fun t => { t with
      trOn := on, trStop := (c.u8 0).testBit 1, trMask := c.u8 1
      trCount := if on then 0 else t.trCount, trDone := if on then false else t.trDone }

def execTraceSet (dt : Nat) (f : Frame) (s : State) : Host.Outcome State Fault Refusal :=
  bilod cmdTraceSet dt f s

/-- TRACE_READ (R425): reading does not remove records. -/
def cmdTraceRead : Cmd where
  op := 0x8009
  len := 8
  src := Src.observer
  fields := [need 4 fun c => decide (1 ≤ c.u8 4) && decide (c.u8 4 ≤ 250), rsvd 5 3]
  body := reads fun c =>
    let t := c.d.tele
    nb 4 t.trBase ++ nb 4 (t.trBase + t.trRecs.length) ++ nb 1 (b2n (t.trDone || ! t.trOn)) ++ zeros 7
      ++ ((t.trRecs.drop (c.u32 0 - t.trBase)).take (c.u8 4)).flatten

def execTraceRead (dt : Nat) (f : Frame) (s : State) : Host.Outcome State Fault Refusal :=
  bilod cmdTraceRead dt f s

/-- TRACE_MARKER (R430): a Marker record with eight user bytes. -/
def cmdTraceMarker : Cmd where
  op := 0xC000
  len := 8
  src := Src.operator
  body := changes fun c => c.d.traceRec 0x06 0xFF (c.u8 0) (slice c.f.payload 1 7)

def execTraceMarker (dt : Nat) (f : Frame) (s : State) : Host.Outcome State Fault Refusal :=
  bilod cmdTraceMarker dt f s

/-- Default periods of the tasks in ms (Table TELE-9). -/
def taskPeriod0 (k : Nat) : Nat := [14400000, 1000, 100, 200, 10000, 100].getD k 0
/-- Floors of the tasks in ms. -/
def taskFloor (k : Nat) : Nat := [86400000, 10000, 1000, 1000, 60000, 1000].getD k 0
/-- The shortest period of a task in ms; the longest is its floor. -/
def taskMin (k : Nat) : Nat := [3600000, 100, 10, 10, 1000, 10].getD k 0

/-- A task's entry. -/
def Dev.task (d : Dev) (k : Nat) : Task := d.tele.tasks.getD k { period := taskPeriod0 k }

/-- The period in force in ms: the push doubles at shed level 1, and tasks 4 and 5 run at their floors from level 2
(R428). -/
def Dev.taskPeriod (d : Dev) (k : Nat) : Nat :=
  let p := (d.task k).period
  if d.mgmt.shed ≥ 2 ∧ k ≥ 4 then taskFloor k
  else if d.mgmt.shed = 1 ∧ k = 5 then min (2 * p) (taskFloor k) else p

/-- A pass of a task ends; the manual does not give its duration, which is free (assumption 12). -/
def Dev.taskPass (d : Dev) (k : Nat) : Dev :=
  let (ms, d) := d.drawNat (2 ^ 24)
  let x : Task := { d.task k with passes := ((d.task k).passes + 1) % 2 ^ 32, lastMs := ms, t6 := d.clk.t6, missed := false }
  d.onTele fun t => { t with tasks := t.tasks.set k x }

/-- A PERCOLATOR task entry (R427). -/
def Dev.taskEntry (d : Dev) (k : Nat) : Bytes :=
  let t := d.task k
  nb 4 t.passes ++ nb 3 t.lastMs ++ nb 1 (b2n (decide (d.taskPeriod k = taskFloor k)) + 2 * b2n t.missed)

/-- TELEMETRY_SET (R426): a mask of 0 disables the push. -/
def cmdTelemetrySet : Cmd where
  op := 0x800A
  len := 16
  src := Src.operator
  fields :=
    [need 0 fun c => c.d.isCxl (c.u16 0) && (c.d.port (c.u16 0)).role == 1 && (c.d.port (c.u16 0)).mgr,
     need 2 fun c => decide (6 ≤ c.u8 2) && decide (c.u8 2 ≤ 16), rsvdBits 3 7 5,
     need 4 fun c => c.u64 4 % (64 * 2 ^ c.u8 2) == 0,
     need 12 fun c => decide (10 ≤ c.u16 12) && decide (c.u16 12 ≤ 1000), rsvd 14 2]
  body := changes fun c => c.d.onTele fun t => { t with
    telLink := c.u16 0, telE := c.u8 2, telMask := c.u8 3, telBase := c.u64 4, telMs := c.u16 12
    tasks := t.tasks.set 5 { c.d.task 5 with period := c.u16 12 } }

def execTelemetrySet (dt : Nat) (f : Frame) (s : State) : Host.Outcome State Fault Refusal :=
  bilod cmdTelemetrySet dt f s

/-- PERCOLATOR_SET (R427). -/
def cmdPercolatorSet : Cmd where
  op := 0x800B
  len := 12
  src := Src.operator
  fields :=
    [atMost 0 5, rsvd 1 3,
     need 4 fun c => decide (taskMin (c.u8 0) ≤ c.u64 4) && decide (c.u64 4 ≤ taskFloor (c.u8 0))]
  body := changes fun c => c.d.onTele fun t => { t with
    tasks := t.tasks.set (c.u8 0) { c.d.task (c.u8 0) with period := c.u64 4 }
    telMs := if c.u8 0 = 5 then c.u64 4 else t.telMs }

def execPercolatorSet (dt : Nat) (f : Frame) (s : State) : Host.Outcome State Fault Refusal :=
  bilod cmdPercolatorSet dt f s

/-- PERCOLATOR_STATUS_GET (R427). -/
def cmdPercolatorStatusGet : Cmd where
  op := 0x800C
  src := Src.observer
  body := reads fun c => ((List.range 6).map c.d.taskEntry).flatten ++ nb 1 c.d.mgmt.shed

def execPercolatorStatusGet (dt : Nat) (f : Frame) (s : State) : Host.Outcome State Fault Refusal :=
  bilod cmdPercolatorStatusGet dt f s

/-- A telemetry record before its sequence and time are known: type, flags, instance, body (Table TELE-8). -/
abbrev TelBody := Nat × Nat × Nat × Bytes

/-- The members of a tile source. -/
def sourceMembers (s : Nat) : Nat := [1, 1, 1, 4, 1, 3, 2, 1, 2, 4, 3, 3, 3, 1, 2, 2].getD s 0

/-- Records cut into threes. -/
def threes : Nat → List Bytes → List (List Bytes)
  | 0, _ => []
  | _, [] => []
  | n + 1, l => l.take 3 :: threes n (l.drop 3)

/-- The records of one push (R426), of the types the mask selects. -/
def Dev.telRecords (d : Dev) : List TelBody :=
  let t := d.tele
  let bw := (t.bw.filter fun e => e.2.fresh).map fun e =>
    (1, b2n e.2.pPart, e.1, nb 6 e.2.pTx ++ nb 6 e.2.pRx ++ nb 5 e.2.pStart ++ nb 1 e.2.pK ++ nb 4 e.2.pSeq)
  let tal := ((List.range 1024).filter fun i =>
      (List.range (sourceMembers (i % 16))).any fun m =>
        d.tally (i / 16) (16 * (i % 16) + m) != t.telTally.getD (i / 16, 16 * (i % 16) + m) 0).map fun i =>
    (2, 0, i / 16, nb 2 i ++ zeros 6 ++ ((List.range 4).map fun m => nb 8 (d.tally (i / 16) (16 * (i % 16) + m))).flatten)
  let grp (blk n : Nat) : List TelBody :=
    ((List.range n).filter fun g => (List.range 4).any fun i => (t.ctr.getD (blk, 4 * g + i) {}).cfg.testBit 47).map
      fun g =>
        let v (i : Nat) : Counter := t.ctr.getD (blk, 4 * g + i) {}
        (3, 0, if blk < 64 then blk else 0xFFFF,
          nb 1 (4 * g) ++ nb 1 (bitsOf (fun i => (v i).ovf) 4) ++ zeros 6
            ++ ((List.range 4).map fun i => nb 8 (v i).value).flatten)
  let ctr := ((List.range 64).map fun b => grp b 2).flatten ++ grp 64 8
  let per : TelBody := (4, 0, 0xFFFF, ((List.range 6).map d.taskEntry).flatten)
  let new := t.trRecs.drop (t.trPush - t.trBase)
  let tr := (threes new.length new).map fun g => ((5, 0, 0xFFFF, g.flatten) : TelBody)
  (bw ++ tal ++ ctr ++ [per] ++ tr).filter fun r => t.telMask.testBit (r.1 - 1)

/-- The Percolator pushes telemetry (R426): at most 1,024 records, the rest carried over; none if the link is down or
fenced, when they are lost and counted. -/
def execTelemetryPush (dt : Nat) (s : State) : Host.Outcome State Fault Refusal :=
  event dt s fun _ _ d =>
    let t := d.tele
    if t.telMask = 0 ∨ d.since t.telT < d.taskPeriod 5 * ms6 then d
    else
      let enc (r : TelBody) : Bytes := nb 1 r.1 ++ nb 1 r.2.1 ++ nb 2 r.2.2.1 ++ fit 48 r.2.2.2
      let all := t.telCarry ++ d.telRecords.map enc
      let d := d.onTele fun t => { t with
        telT := d.clk.t6, trPush := t.trBase + t.trRecs.length
        bw := t.bw.map fun e => (e.1, { e.2 with fresh := false })
        telTally := t.tally.filter fun e => decide (e.1.1 < 64) && decide (e.1.2 < 0x100)
        telCarry := [] }
      let p := d.port t.telLink
      let d := if ! p.up || p.fenced then d.countN 0x20F 64 0x3F 7 0xFFFF all.length
        else
          let l := t.telLink
          let out := (all.take 1024).zipIdx.map fun e =>
            let q := (t.telSeq + e.2) % 2 ^ 32
            (t.telBase + 64 * (q % 2 ^ t.telE), e.1.take 4 ++ nb 4 q ++ nb 5 d.now ++ zeros 3 ++ e.1.drop 4)
          let d := out.foldl (fun d e => d.enqueue {
            id := 0, link := l, kind := 0xA, cls := 5, reach := (d.owner l 0xFF).getD 0, init := .mpc, acc := .write
            addr := e.1, len := 64, data := fit 64 e.2, dst := some (.link l 0), queued := true, tIn := d.now, tP := d.now }) d
          d.onTele fun t => { t with
            telSeq := (t.telSeq + out.length) % 2 ^ 32
            telCarry := (all.drop 1024).map fun b => put b 1 (nb 1 (setBit (byteAt b 1) 1)) }
      d.taskPass 5

/-- A background task fails to complete a pass within its floor (R428). -/
def execFloorMissed (dt task : Nat) (s : State) : Host.Outcome State Fault Refusal :=
  event dt s fun _ _ d =>
    if task < 6 ∧ d.since (d.task task).t6 ≥ taskFloor task * ms6 then
      (d.onTele fun t => { t with tasks := t.tasks.set task { d.task task with missed := true } }).countDev 0x20E task
    else d

end Sys2Proof.Machine
end

