-- ==== Sys2Proof/Machine/Staging.lean ====
section
/-! DEFINITION. Staged sets (R357, R358, R361): what a staged command changes, its limits, and discarding. -/

namespace Sys2Proof.Machine

/-- The number of the device-wide staged set. -/
def devSet : Nat := 32

/-- Items of a Reach's rule set: rules, Default Map, gate windows and gate settings (R83); the limit of R357 does not
count them. -/
def ruleItem (op : Nat) : Bool := [0x5000, 0x5005, 0x5007, 0x5008].contains op

/-- Changed items of a set that the limit of R357 counts. -/
def Staged.others (s : Staged) : Nat := (s.changes.filter fun e => ! ruleItem e.1.op).length

/-- Changed items a set holds beside its rule set (R357). -/
def stagedLimit (i : Nat) : Nat := if i = devSet then 8192 else 4096

/-- The checks of every staged command (R359, R85, R317, R357): BUSY while a commit of the set is accepted, while the
Reach is being reset and, for a rule, Default Map or gate command, while the Reach resynchronises; RESOURCE_EXHAUSTED
past the limit. `n` bounds the items the command adds. -/
def stageChecks (set : Ctx → Nat) (rule : Bool) (n : Ctx → Nat) : List Check :=
  [require .busy fun c => ! (c.d.set (set c)).accepted && (c.d.reset.get? (set c)).isNone
     && ! (rule && (c.d.set (set c)).resync),
   require .resourceExhausted fun c => rule || decide ((c.d.set (set c)).others + n c ≤ stagedLimit (set c))]

/-- Items are staged and the generation increases by 1 (R358). -/
def Dev.stage (d : Dev) (i : Nat) (items : List (CfgKey × Option Bytes)) : Dev :=
  d.onConf fun c => { c with
    staged := c.staged.upd i {} fun s => { s with
      gen := (s.gen + 1) % 2 ^ 32
      changes := items.foldl (fun t e => t.set e.1 e.2) s.changes } }

/-- The staged unbinds of a Reach's set that answered IN_PROGRESS (R284) end with ABORTED: their set is discarded. -/
def Dev.dropUnbinds (d : Dev) (i : Nat) : Dev :=
  (d.cxl.vppb.filter fun e => e.2.wait.isNone && e.2.waitLong.isSome && d.owner e.1.1 0xFF == some i).foldl (fun d e =>
    (d.finLong? e.2.waitLong .aborted []).onCxl fun c => { c with vppb := c.vppb.set e.1 { e.2 with waitLong := none } }) d

/-- A staged set is discarded (R358, R73, R85): its provisional cells, which the staged reservations hold, are free
again, and a Reach's set resynchronises from the active set. -/
def Dev.discard (d : Dev) (i : Nat) : Dev :=
  (d.dropUnbinds i).onConf fun c => { c with
    staged := c.staged.upd i {} fun s => { s with
      gen := (s.gen + 1) % 2 ^ 32, changes := [], resync := decide (i < devSet) } }

/-- The set in which settings of a link are staged (R83, R167): that of the one Reach that owns it, else the device-wide
set (an Iggevo link, a link that no Reach owns, a link whose LDs belong to more than one Reach). -/
def Dev.linkSet (d : Dev) (l : Nat) : Nat :=
  match d.reachesOf l with
  | [r] => r
  | _ => devSet

/-- The items of a kind that a configuration holds: the active ones, or those that set `i` leaves after its commit. -/
def Dev.items (d : Dev) (stg : Bool) (i : Nat) (p : CfgKey → Bool) : List (CfgKey × Bytes) :=
  let act : Tbl CfgKey Bytes := d.conf.active.filter fun e => p e.1
  if stg then
    let ch : Tbl CfgKey (Option Bytes) := (d.set i).changes.filter fun e => p e.1
    (act.filter fun e => (ch.get? e.1).isNone) ++ ch.filterMap fun e => e.2.map fun b => (e.1, b)
  else act

/-- A body that stages items in a set and answers SUCCESS. -/
def stages (set : Ctx → Nat) (items : Ctx → List (CfgKey × Option Bytes)) : Ctx → Dev × Reply :=
  changes fun c => c.d.stage (set c) (items c)

end Sys2Proof.Machine
end

