-- ==== Sys2Proof/Machine/Mailbox.lean ====
section
/-! DEFINITION. Management processor and mailboxes (chapter 15): the Direct Register Page, the exchange of a command,
events, the general commands other than the commits, and the two management processors. -/

namespace Sys2Proof.Machine

/-! ### Direct Register Page -/

/-- DEV_IDENT (Table ABOUT-1). -/
def Dev.ident (d : Dev) : Nat := 0x4F586410B0000000 + 256 * d.img.major + d.img.minor

/-- A mailbox holds a command whose response is not written. -/
def Mailbox.busy (x : Mailbox) : Bool := x.rung.isSome || x.wait

/-- MBX_STATUS (Table MBX-6) in a view. -/
def Dev.mbxStatus (d : Dev) (mode : Mode) (v : View) (m : Mbx) : Nat :=
  let x := d.mbx m
  let more := match x.resp with
    | some r => r.more
    | none => false
  let mine := match v with
    | .vcs n => x.claim == some n
    | .admin => false
  b2n (servedIn mode d m) + 2 * b2n x.busy + 4 * b2n (x.resp.isSome && ! x.busy) + 8 * b2n more
    + 16 * b2n d.mgmt.paused + 32 * d.mgmt.active + 64 * b2n x.claim.isSome + 128 * b2n mine
    + 256 * b2n (x.perr.contains v) + 2 ^ 24 * x.claim.getD 0

/-- A 4-byte register of the page at an offset below 0x1000 (Table MBX-3). Reserved offsets read 0. -/
def Dev.pageReg (d : Dev) (mode : Mode) (p : Profile) (v : View) (m : Mbx) (off : Nat) : Nat :=
  let x := d.mbx m
  match off with
  | 0x0 => d.ident % 2 ^ 32
  | 0x4 => d.ident / 2 ^ 32
  | 0x10 => devMode mode p d
  | 0x20 => x.evq.length + 2 ^ 16 * b2n x.lost
  | 0x44 => d.mbxStatus mode v m
  | 0x48 => x.mask
  | _ => 0

/-- An access of the page that R344 admits: naturally aligned, of 4 or 8 bytes, or in MBX_PAYLOAD of 1 or 2. -/
def pageAccess (off width : Nat) : Bool :=
  off % width == 0 && decide (off + width ≤ 0x10000)
  && (width == 4 || width == 8 || ((width == 1 || width == 2) && decide (0x1000 ≤ off) && decide (off < 0x2000)))

/-- A read of the page through a view (R343, R344): an access that R344 does not allow reads 0, and MBX_PAYLOAD reads 0
while busy is 1 (R347). -/
def Dev.pageRead (d : Dev) (mode : Mode) (p : Profile) (v : View) (off width : Nat) : Bytes :=
  match d.viewMbx v with
  | none => zeros width
  | some m =>
    if ! pageAccess off width || mode == .shelf then zeros width
    else if 0x1000 ≤ off ∧ off < 0x2000 then
      if (d.mbx m).busy then zeros width else slice (d.mbx m).area (off - 0x1000) width
    else if width = 8 then nb 4 (d.pageReg mode p v m off) ++ nb 4 (d.pageReg mode p v m (off + 4))
    else nb 4 (d.pageReg mode p v m off)

/-- protocol_error is set in a view (R345–R348). -/
def Mailbox.perrSet (v : View) (x : Mailbox) : Mailbox :=
  { x with perr := if x.perr.contains v then x.perr else x.perr ++ [v] }

/-- The view may use the mailbox: a Reach view holds the claim (R346). -/
def Mailbox.holds (v : View) (x : Mailbox) : Bool :=
  match v with
  | .admin => true
  | .vcs n => x.claim == some n

/-- The frame that MBX_PAYLOAD holds (Table MBX-8). A header length above 4,080 is refused whatever it is (R351), and
4,081 bytes stand for it. -/
def Mailbox.frame (x : Mailbox) (m : Mbx) : Nat × Frame :=
  let n := leN x.area 8 4
  (leN x.area 0 2,
   { mbx := m, flags := leN x.area 2 2, tag := leN x.area 4 2, status := leN x.area 6 2, sid := leN x.area 12 4,
     payload := slice x.area 16 (min n 4081) })

/-- A ring (R345–R348): ignored while the mailbox is not served, an error without the claim or while busy; else the
command is submitted, busy is set, done and any remaining segments are cleared. -/
def Dev.ring (d : Dev) (mode : Mode) (v : View) (m : Mbx) : Dev :=
  if ! servedIn mode d m then d
  else d.onMbx m fun x =>
    if ! x.holds v || x.busy then x.perrSet v
    else { x with rung := some (x.frame m), resp := none, claimT := d.clk.t6 }

/-- The next segment of a response is loaded (R348). -/
def Dev.nextSeg (d : Dev) (v : View) (m : Mbx) : Dev :=
  d.onMbx m fun x =>
    match x.resp with
    | some r =>
      if ! x.holds v || x.busy || ! r.more then x.perrSet v
      else
        let r := { r with seg := r.seg + 1 }
        { x with resp := some r, area := put x.area 0 r.frame, claimT := d.clk.t6 }
    | none => x.perrSet v

/-- The remaining segments of a response are discarded (R348). -/
def Dev.dropSegs (d : Dev) (v : View) (m : Mbx) : Dev :=
  d.onMbx m fun x =>
    match x.resp with
    | some r =>
      if ! x.holds v || x.busy || ! r.more then x.perrSet v
      else { x with resp := some { r with dropped := true }, claimT := d.clk.t6 }
    | none => x.perrSet v

/-- A claim request succeeds when the mailbox is unclaimed (R346); the admin view ignores it. -/
def Dev.claimMbx (d : Dev) (v : View) (m : Mbx) : Dev :=
  match v with
  | .admin => d
  | .vcs n => d.onMbx m fun x => if x.claim.isNone then { x with claim := some n, claimT := d.clk.t6 } else x

/-- The claim ends, and segments still unread are discarded (R346). -/
def Mailbox.unclaim (x : Mailbox) : Mailbox :=
  { x with claim := none, resp := x.resp.map fun r => { r with dropped := true } }

/-- The holder writes release (R346). -/
def Dev.releaseMbx (d : Dev) (v : View) (m : Mbx) : Dev :=
  match v with
  | .admin => d
  | .vcs n => d.onMbx m fun x => if x.claim == some n then x.unclaim else x

/-- A write to MBX_DOORBELL (Table MBX-5): more than one of bits [4:0] is an error (R345). -/
def Dev.doorbell (d : Dev) (mode : Mode) (v : View) (m : Mbx) (w : Nat) : Dev :=
  match w % 32 with
  | 0 => d
  | 1 => d.ring mode v m
  | 2 => d.nextSeg v m
  | 4 => d.dropSegs v m
  | 8 => d.claimMbx v m
  | 16 => d.releaseMbx v m
  | _ => d.onMbx m (Mailbox.perrSet v)

/-- A write to a 4-byte register of the page (Tables MBX-3 to MBX-7); a reserved or read-only one ignores it. -/
def Dev.regWrite (d : Dev) (mode : Mode) (v : View) (m : Mbx) (off w : Nat) : Dev :=
  match off with
  | 0x20 => if w.testBit 16 then d.onMbx m fun x => { x with lost := false } else d
  | 0x40 => d.doorbell mode v m w
  | 0x44 => if w.testBit 8 then d.onMbx m fun x => { x with perr := x.perr.filter (fun y => decide (y ≠ v)) } else d
  | 0x48 => d.onMbx m fun x => { x with mask := w % 32 + (if v = .admin then 256 * (w / 256 % 2) else 0) }
  | _ => d

/-- A write to the page through a view (R343–R347). A write to MBX_PAYLOAD needs the claim and busy 0. -/
def Dev.pageWrite (d : Dev) (mode : Mode) (v : View) (off width : Nat) (b : Bytes) : Dev :=
  match d.viewMbx v with
  | none => d
  | some m =>
    if ! pageAccess off width || mode == .shelf then d
    else if 0x1000 ≤ off ∧ off < 0x2000 then
      d.onMbx m fun x =>
        if ! x.holds v || x.busy then x.perrSet v else { x with area := put x.area (off - 0x1000) (fit width b) }
    else
      let d := d.regWrite mode v m off (leN b 0 4)
      if width = 8 then d.regWrite mode v m (off + 4) (leN b 4 4) else d

/-- A doorbell row: `g` acts on the mailbox of the view, which the page's hardware serves in every mode but Shelf. -/
def doorbellRow (dt : Nat) (v : View) (s : State) (g : Mode → Dev → Mbx → Dev) : Host.Outcome State Fault Refusal :=
  event dt s fun mode _ d =>
    match d.viewMbx v with
    | some m => if mode = .shelf then d else g mode d m
    | none => d

def execRing (dt : Nat) (v : View) (s : State) : Host.Outcome State Fault Refusal :=
  doorbellRow dt v s fun mode d m => d.ring mode v m

def execNext (dt : Nat) (v : View) (s : State) : Host.Outcome State Fault Refusal :=
  doorbellRow dt v s fun _ d m => d.nextSeg v m

def execDrop (dt : Nat) (v : View) (s : State) : Host.Outcome State Fault Refusal :=
  doorbellRow dt v s fun _ d m => d.dropSegs v m

def execClaim (dt : Nat) (v : View) (s : State) : Host.Outcome State Fault Refusal :=
  doorbellRow dt v s fun _ d m => d.claimMbx v m

def execRelease (dt : Nat) (v : View) (s : State) : Host.Outcome State Fault Refusal :=
  doorbellRow dt v s fun _ d m => d.releaseMbx v m

def execRegisterWrite (dt : Nat) (v : View) (off width value : Nat) (s : State) : Host.Outcome State Fault Refusal :=
  event dt s fun mode _ d => d.pageWrite mode v off width (nb width value)

/-- The claim ends after 10 ms with busy 0 and no ring, next or drop (R346). -/
def execClaimTimeout (dt r : Nat) (s : State) : Host.Outcome State Fault Refusal :=
  event dt s fun _ _ d =>
    let x := d.mbx (.reach r)
    if x.claim.isSome && ! x.busy && decide (d.since x.claimT ≥ 10 * ms6) then
      d.onMbx (.reach r) Mailbox.unclaim
    else d

/-! ### Long commands -/

/-- A long command whose operation has ended posts COMMAND_DONE, and its final payload is kept among the last 16
(R349). The record names the Reach of a Reach mailbox. -/
def Dev.commandDone (d : Dev) (mb : Mbx) (tag : Nat) : Dev :=
  match (d.mbx mb).longs.find? fun l => decide (l.tag = tag) && l.fin.isSome with
  | some l =>
    match l.fin with
    | some (st, b) =>
      let r : EvRec := {
        code := 0x500, opcode := l.opcode, tag := l.tag, status := st.code, time := d.now, detail := fit 16 b
        reach := match mb with
          | .reach r => r
          | _ => 0x3F }
      let d := d.onMbx mb fun x => { x with
        longs := x.longs.filter fun y => decide (y ≠ l)
        results := (x.results ++ [(tag, b)]).drop (x.results.length + 1 - 16) }
      d.postTo mb r
    | none => d
  | none => d

def execCommandDone (dt : Nat) (mb : Mbx) (tag : Nat) (s : State) : Host.Outcome State Fault Refusal :=
  event dt s fun _ _ d => d.commandDone mb tag

/-- Every long command that `p` selects ends with ABORTED. -/
def Dev.abortLongs (d : Dev) (p : Nat → Bool) : Dev :=
  d.onMgmt fun g => { g with
    mbxs := g.mbxs.map fun e => (e.1, { e.2 with
      longs := e.2.longs.map fun l => if p l.opcode && l.fin.isNone then { l with fin := some (.aborted, []) } else l }) }

/-! ### General commands -/

/-- Every mailbox and the tunnel, with a session or, for some commands, without (R352, R368). -/
def Src.anyone : Src := { hosts := true, tunnel := true, role := some 1, open_ := true }

/-- IDENTIFY (Table MBX-16). -/
def cmdIdentify : Cmd where
  op := 0x0000
  src := Src.anyone
  body := reads fun c =>
    nb 8 c.d.ident ++ wordBytes 8 Sys2Proof.Config.serial ++ wordBytes 4 Sys2Proof.Config.firmwareBuild
      ++ nb 1 c.d.nReach ++ nb 1 c.d.mgmt.active ++ zeros 2 ++ nb 4 c.d.switchId

def execIdentify (dt : Nat) (f : Frame) (s : State) : Host.Outcome State Fault Refusal :=
  bilod cmdIdentify dt f s

/-- An event record (Table MBX-12). -/
def EvRec.bytes (r : EvRec) : Bytes :=
  nb 2 r.code ++ nb 2 r.opcode ++ nb 2 r.tag ++ nb 2 r.status ++ nb 5 r.time ++ nb 1 r.reach ++ zeros 2 ++ fit 16 r.detail

/-- EVENT_READ (R355): the records returned leave the queue; the lost bit clears on the out-of-band mailbox and the
tunnel, which have no EVT_PENDING. -/
def cmdEventRead : Cmd where
  op := 0x0001
  len := 4
  src := Src.anyone
  fields := [need 0 fun c => decide (1 ≤ c.u8 0) && decide (c.u8 0 ≤ 64), rsvd 1 3]
  body := fun c =>
    let m := c.f.mbx
    let x := c.d.mbx m
    let out := x.evq.take (c.u8 0)
    let d := c.d.onMbx m fun x => { x with
      evq := x.evq.drop (c.u8 0), lost := if m = .oob ∨ m = .tunnel then false else x.lost }
    (d, .done (nb 2 out.length ++ nb 2 (x.evq.length - out.length) ++ nb 1 (b2n x.lost) ++ zeros 3
      ++ (out.map EvRec.bytes).flatten))

def execEventRead (dt : Nat) (f : Frame) (s : State) : Host.Outcome State Fault Refusal :=
  bilod cmdEventRead dt f s

/-- The kept result of a long command with a tag: the newest. -/
def Mailbox.result (x : Mailbox) (tag : Nat) : Option Bytes :=
  (x.results.reverse.find? fun e => decide (e.1 = tag)).map (·.2)

/-- RESULT_GET (R349). -/
def cmdResultGet : Cmd where
  op := 0x0002
  len := 2
  src := Src.anyone
  state := [fun c => if ((c.d.mbx c.f.mbx).result (c.u16 0)).isSome then none else some (invalid 0)]
  body := reads fun c => ((c.d.mbx c.f.mbx).result (c.u16 0)).getD []

def execResultGet (dt : Nat) (f : Frame) (s : State) : Host.Outcome State Fault Refusal :=
  bilod cmdResultGet dt f s

/-- The staged set that the scope and reach of a general command name (0 Reach, 1 device). -/
def Ctx.setNamed (c : Ctx) : Nat := if c.u8 0 = 0 then c.u8 1 else devSet

/-- STAGING_DISCARD (R358): BUSY while a commit of the set is accepted (R359). -/
def cmdStagingDiscard : Cmd where
  op := 0x0005
  len := 4
  src := Src.operator
  fields := scopeChecks 0 0 ++ [rsvd 2 2]
  state := [require .busy fun c => ! (c.d.set c.setNamed).accepted]
  body := changes fun c => c.d.discard c.setNamed

def execStagingDiscard (dt : Nat) (f : Frame) (s : State) : Host.Outcome State Fault Refusal :=
  bilod cmdStagingDiscard dt f s

/-- The state code of a staged set (STAGING_STATUS_GET). -/
def Staged.code (s : Staged) : Nat :=
  if s.accepted then 2 else if s.resync then 3 else if s.changes.isEmpty then 0 else 1

/-- STAGING_STATUS_GET. -/
def cmdStagingStatusGet : Cmd where
  op := 0x0006
  len := 2
  src := Src.watch
  fields := scopeChecks 0 0
  body := reads fun c =>
    let s := c.d.set c.setNamed
    nb 4 s.code ++ nb 4 s.gen ++ nb 4 s.changes.length ++ nb 5 (s.armed.getD 0)

def execStagingStatusGet (dt : Nat) (f : Frame) (s : State) : Host.Outcome State Fault Refusal :=
  bilod cmdStagingStatusGet dt f s

/-- The code of the standby's state (MPC_STATUS_GET). -/
def Standby.code : Standby → Nat
  | .ready => 0 | .loading => 1 | .outOfService => 2

/-- MPC_STATUS_GET. -/
def cmdMpcStatusGet : Cmd where
  op := 0x0007
  src := Src.watch
  body := reads fun c =>
    let g := c.d.mgmt
    nb 1 g.active ++ nb 1 g.standby.code ++ nb 2 g.shed ++ nb 4 g.handovers ++ nb 8 g.served ++ nb 4 g.busyPct

def execMpcStatusGet (dt : Nat) (f : Frame) (s : State) : Host.Outcome State Fault Refusal :=
  bilod cmdMpcStatusGet dt f s

/-- MPC_SWITCHOVER (R365): steps 3 to 5 of Table MBX-15 follow. -/
def cmdMpcSwitchover : Cmd where
  op := 0x0008
  src := Src.admin
  long := true
  state := [require .wrongMode fun c => c.d.mgmt.standby == .ready, require .busy fun c => c.d.ctl.svc.isNone && c.d.mgmt.switching.isNone]
  body := fun c => (c.d.onMgmt fun g => { g with switching := some (c.f.mbx, c.f.tag) }, .started [])

def execMpcSwitchover (dt : Nat) (f : Frame) (s : State) : Host.Outcome State Fault Refusal :=
  bilod cmdMpcSwitchover dt f s

/-! ### The two management processors -/

/-- Core 0 of the active MPC writes its heartbeat (R339). -/
def execHeartbeat (dt : Nat) (s : State) : Host.Outcome State Fault Refusal :=
  event dt s fun mode _ d => if mode.adminServed then d.onMgmt fun g => { g with heartbeat := d.clk.t6 } else d

/-- A firmware activation is in progress (R364). -/
def Dev.activating (d : Dev) : Bool :=
  match d.ctl.svc with
  | some s => s.op == 1 && s.begun
  | none => false

/-- MPC_HANDOVER is posted to every mailbox that sees device-wide notices (Table MBX-13). -/
def Dev.handoverRec (d : Dev) (cause : Nat) : Dev :=
  d.post { code := 0x504, time := d.now, detail := nb 1 d.mgmt.active ++ nb 1 cause }

/-- A service operation has ended: Service ends at the next commit epoch (R39); a failure is a contained fault. -/
def Dev.serviceEnds (d : Dev) (ok : Bool) : Dev :=
  match d.ctl.svc with
  | some s =>
    let d := d.onCtl fun c => { c with svc := some { s with endAt := some (epochAfter d.now) } }
    if ok then d else d.sendFault 10 d.mgmt.active 3 1 0x3F s.op
  | none => d

/-- The standby takes over (R339): after four missed heartbeats, or on a lockstep mismatch. A firmware activation in
steps 2 or 3 fails, and the standby restarts with the running firmware first, which pauses the mailboxes (R364). The
failed MPC's domain goes through a forced Sluice, and it is then powered on and restarted. -/
def Dev.takeover (d : Dev) (cause : Nat) : Dev :=
  let failed := d.mgmt.active
  let act := d.activating
  let d := if act then d.serviceEnds false else d
  let d := d.onMgmt fun g => { g with
    active := 1 - failed, standby := .loading, handovers := (g.handovers + 1) % 2 ^ 32, heartbeat := d.clk.t6
    verified := false, standbyReady := false, paused := act }
  let d := match d.mgmt.switching with
    | some k => (d.finLong k .aborted []).onMgmt fun g => { g with switching := none }
    | none => d
  let (n, d) := d.drawNat (2 ^ 16)
  let d := (((d.countDev 0x206 (80 + failed)).sendFault 9 (80 + failed) 2 1 0x3F n).gate (80 + failed) 3).powerOn (80 + failed)
  (d.sendFault 10 failed 1 1 0x3F cause).handoverRec cause

/-- The standby can take over (R339, R364): it is ready, or has the new image of an activation and not yet the service. -/
def Dev.standbyCan (d : Dev) : Bool := d.mgmt.standby == .ready || (d.activating && d.mgmt.verified)

def execMpcTakeover (dt : Nat) (lockstep : Bool) (s : State) : Host.Outcome State Fault Refusal :=
  event dt s fun mode _ d =>
    if mode.adminServed && d.standbyCan && (lockstep || decide (d.since d.mgmt.heartbeat ≥ 4 * ms6)) then
      d.takeover (if lockstep then 2 else 1)
    else d

/-- The active MPC fails with no standby and restarts from flash (R340): staged sets are discarded but for accepted
commits, long commands end with ABORTED, sessions close, mailboxes pause. -/
def Dev.restartMpc (d : Dev) : Dev :=
  let d := d.conf.staged.foldl (fun d e => if e.2.accepted then d else d.discard e.1) d
  let d := ((d.abortLongs fun _ => true).onSec fun x => { x with sessions := [] }).onImg fun i => { i with cmd := none }
  d.onMgmt fun g => { g with
    paused := true, switching := none, verified := false, standbyReady := false }

def execMpcRestart (dt : Nat) (s : State) : Host.Outcome State Fault Refusal :=
  event dt s fun mode _ d => if mode.adminServed && ! d.standbyCan then d.restartMpc else d

/-- The restart of R340 ends and mailbox service resumes. -/
def execMpcRestartComplete (dt : Nat) (s : State) : Host.Outcome State Fault Refusal :=
  event dt s fun _ _ d =>
    if d.mgmt.paused && ! (d.activating && d.mgmt.verified) && d.mgmt.switching.isNone then
      d.onMgmt fun g => { g with paused := false, heartbeat := d.clk.t6 }
    else d

/-- The pause of step 4 of Table MBX-15 begins. In an activation, firmware commands of group 0xB end with ABORTED
(R364). -/
def Dev.pause (d : Dev) : Dev :=
  let d := d.onMgmt fun g => { g with paused := true, standbyReady := true }
  if d.activating then d.abortLongs fun op => op / 4096 == 0xB else d

/-- The standby reports ready: step 3 of an activation or a switchover, after which the pause begins, or the end of a
restart of an MPC that failed (R339), or step 6 of an activation, which ends the operation. -/
def execStandbyReady (dt : Nat) (s : State) : Host.Outcome State Fault Refusal :=
  event dt s fun _ _ d =>
    if (d.activating && d.mgmt.verified) || d.mgmt.switching.isSome then d.pause
    else if d.mgmt.standby != .ready then
      let d := d.onMgmt fun g => { g with standby := .ready }
      if d.activating && (d.ctl.svc.bind (·.endAt)).isNone then d.serviceEnds true else d
    else d

/-- The standby fails its self-test or heartbeat (Table FAULT-4); a switchover or an activation in progress fails with it. -/
def Dev.standbyFails (d : Dev) : Dev :=
  let d := match d.mgmt.switching with
    | some k => (d.finLong k .aborted []).onMgmt fun g => { g with switching := none }
    | none => d
  let d := if d.activating && (d.ctl.svc.bind (·.endAt)).isNone then d.serviceEnds false else d
  (d.onMgmt fun g => { g with
    standby := .outOfService, verified := false, standbyReady := false, paused := g.paused && ! g.standbyReady }).sendFault 10 (1 - d.mgmt.active) 2 0 0x3F 0

def execStandbyFailed (dt : Nat) (s : State) : Host.Outcome State Fault Refusal :=
  event dt s fun mode _ d => if mode.adminServed && d.mgmt.standby != .outOfService then d.standbyFails else d

/-- Step 2 of Table MBX-15 ends: the standby has verified the new image, or the load fails its check or its major
revision, and the operation fails (R364, R375). -/
def execStandbyImageVerified (dt : Nat) (ok : Bool) (s : State) : Host.Outcome State Fault Refusal :=
  event dt s fun _ _ d =>
    if d.activating && ! d.mgmt.verified then
      let other := 1 - d.img.fwUse.getD 1
      let c := d.img.copy.getD other {}
      if ok && c.valid && c.major == d.img.major then
        (d.onMgmt fun g => { g with verified := true, standby := .loading }).audit .imageLoad 0xFF none 0
      else (d.audit .imageRejected 0xFF none Status.integrityFailure.code).serviceEnds false
    else d

/-- The pause ends and the new MPC is active (steps 4 and 5 of Table MBX-15): after an activation the firmware revision
changes and the former MPC loads the new image; after a switchover it is standby at once. -/
def execFirmwareHandover (dt : Nat) (s : State) : Host.Outcome State Fault Refusal :=
  event dt s fun _ _ d =>
    let swap (d : Dev) (st : Standby) : Dev := d.onMgmt fun g => { g with
      active := 1 - g.active, standby := st, handovers := (g.handovers + 1) % 2 ^ 32, heartbeat := d.clk.t6
      paused := false, verified := false, standbyReady := false, switching := none }
    if d.activating && d.mgmt.verified then
      let other := 1 - d.img.fwUse.getD 1
      let c := d.img.copy.getD other {}
      let d := if d.mgmt.standbyReady then d else d.pause
      let d := (swap d .loading).onImg fun i => { i with fwUse := some other, major := c.major, minor := c.minor }
      (d.audit .imageActivated 0xFF none 0).handoverRec 3
    else match d.mgmt.switching with
      | some k => ((swap d .ready).finLong k .success []).handoverRec 4
      | none => d

/-- A service frame of 100 µs begins: unused slots lapse, and each Reach has its slots again (R362). -/
def execServiceFrame (dt : Nat) (s : State) : Host.Outcome State Fault Refusal :=
  event dt s fun _ _ d =>
    if d.since d.mgmt.frameT ≥ 100 * us6 then d.onMgmt fun g => { g with slots := [], frameT := d.clk.t6 } else d

/-- The MPC measures its load over 10 ms and moves at most one shed level (R363). -/
def execShedLevel (dt busy : Nat) (s : State) : Host.Outcome State Fault Refusal :=
  event dt s fun mode _ d =>
    if ! mode.adminServed || decide (d.since d.mgmt.shedT < 10 * ms6) then d
    else
      let l := d.mgmt.shed
      let l' := if busy ≥ 85 then min 3 (l + 1) else if busy < 60 then l - 1 else l
      let d := d.onMgmt fun g => { g with shed := l', busyPct := busy, shedT := d.clk.t6 }
      if l' = l then d else d.post { code := 0x503, time := d.now, detail := nb 1 l' }

/-! ### Frames from elsewhere -/

/-- A request with an undefined or reserved opcode (R351, R6): the header checks, then UNSUPPORTED, with no effect. -/
def execUndefinedOpcode (dt opcode : Nat) (f : Frame) (s : State) : Host.Outcome State Fault Refusal :=
  event dt s fun mode p d =>
    let c : Ctx := { m := mode, p := p, d := d, f := f }
    if c.servable opcode then
      let c : Ctx := { c with d := d.served f }
      match headerCheck 0 c with
      | some (st, b) => c.d.respond f opcode st b
      | none => c.d.respond f opcode .unsupported []
    else d

/-- An out-of-band request arrives as an MCTP message (R347): not a whole frame, or before the previous response was
sent, it is discarded and counted; otherwise it is submitted. -/
def execMctpBilodRequest (dt opcode : Nat) (f : Frame) (whole : Bool) (s : State) :
    Host.Outcome State Fault Refusal :=
  event dt s fun mode _ d =>
    if mode = .shelf then d
    else if ! whole || (d.mbx .oob).busy then d.onMgmt fun g => { g with oobDrop := g.oobDrop + 1 }
    else if ! mode.adminServed then d
    else d.onMbx .oob fun x => { x with rung := some (opcode, { f with mbx := .oob }), resp := none }

/-- FM API requests are accepted from the Switch Mailbox CCI of a manager link and over MCTP (R292, R366). -/
def Dev.fmSource (d : Dev) : FmSrc → Bool
  | .cci l => d.vcsUp l && (d.port l).mgr
  | .mctp => true
  | .bilod => false

/-- A frame arrives through FM API opcode 0xC000 (R366): it is submitted on the tunnel. -/
def execFmApiTunnelFrame (dt : Nat) (src : FmSrc) (opcode : Nat) (f : Frame) (s : State) :
    Host.Outcome State Fault Refusal :=
  event dt s fun mode _ d =>
    if mode.allServed && d.fmSource src && ! (d.mbx .tunnel).busy then
      d.onMbx .tunnel fun x => { x with rung := some (opcode, { f with mbx := .tunnel }), resp := none }
    else d

end Sys2Proof.Machine
end

