-- ==== Sys2Proof/Machine/Reset.lean ====
section
/-! DEFINITION. The reset scopes of Table PWR-4 that reach the whole core: cold reset, core reset into Safe, loss of the
core rails; zeroization (R384), which ends in a core reset; and the error state of the cryptographic module. -/

namespace Sys2Proof.Machine

/-- What the VSTBY domain, OTP and the flash devices keep through every reset of the core (Table PWR-4): the key store
with its lockouts, the tamper latch, the audit log, the security version, the flash copies and the NV log. A lockout's
end is kept as the time left. -/
def Dev.kept (d : Dev) : Dev :=
  { free := d.free
    sec := {
      slots := d.sec.slots.map fun e => (e.1, { e.2 with until6 := e.2.until6.map (· - d.clk.t6) })
      secVer := d.sec.secVer, revoked := d.sec.revoked, tamper := d.sec.tamper, tamperLog := d.sec.tamperLog
      audit := d.sec.audit, auditSeq := d.sec.auditSeq, auditOver := d.sec.auditOver, keyGen := d.sec.keyGen
      chain := d.sec.chain, storeLost := d.sec.storeLost }
    flt := { nvLog := d.flt.nvLog, nvBase := d.flt.nvBase }
    img := { copy := d.img.copy, retired := d.img.retired, fails := d.img.fails, logLost := d.img.logLost }
    pwr := { coreEn := d.pwr.coreEn } }

/-- A cold reset (Table PWR-4): everything but what VSTBY, OTP and flash keep. -/
def Dev.coldReset (d : Dev) : Dev := d.kept

/-- Mailboxes across a core reset (assumption 14): the admin and out-of-band mailboxes, which the sideband serves, keep
their registers and queues; a command that waited for an epoch loses its answer; every long command but MODE_SET ends
with ABORTED, but for the MODE_SET to Safe that a reset completes; the Reach mailboxes and the tunnel are reset. -/
def mbxAfterCoreReset (keep : Option (Mbx × Nat)) (t : Tbl Mbx Mailbox) : Tbl Mbx Mailbox :=
  (t.filter fun e => e.1 == .admin || e.1 == .oob).map fun e => (e.1, { e.2 with
    wait := false
    longs := e.2.longs.map fun l =>
      if l.fin.isNone && keep != some (e.1, l.tag) then { l with fin := some (.aborted, []) } else l })

/-- A core reset into Safe (Table PWR-4, R403): domain 90 (timebase, slot power, supplies, sideband, retention) and
what VSTBY, OTP and flash hold are kept; tallies (R411), the per-family fault counts and the lost count (R399) are
kept; everything else takes its reset value. `stay` holds the device in Safe (Table MODE-6, step 3). -/
def Dev.coreReset (stay : Bool) (d : Dev) : Dev :=
  let toSafe := d.ctl.pend.filter fun p => p.target == .safe
  { clk := { d.clk with slow := false, slew := 0, slewT := 0 }
    ctl := { fatalTimes := d.ctl.fatalTimes, stayInSafe := stay, coolUntil := d.ctl.coolUntil
             bothLost := d.ctl.bothLost, pend := toSafe }
    mgmt := { mbxs := mbxAfterCoreReset (toSafe.bind (·.long)) d.mgmt.mbxs, handovers := d.mgmt.handovers, served := d.mgmt.served
              oobDrop := d.mgmt.oobDrop }
    sec := { d.sec with
      sessions := [], challs := [], approved := false, errState := false, failed := 0, seeded := false, restarts := 0
      drbgReqs := 0, spdm := [], spdmOut := none }
    flt := { lost := d.flt.lost, fam := d.flt.fam, nvLog := d.flt.nvLog, nvBase := d.flt.nvBase }
    tele := { tally := d.tele.tally, rtally := d.tele.rtally }
    pwr := { d.pwr with fab := 0, fabNext := none, overMs := 0, underMs := 0 }
    slots := d.slots
    side := d.side
    img := { copy := d.img.copy, fwUse := d.img.fwUse, retired := d.img.retired, fails := d.img.fails, logLost := d.img.logLost }
    free := d.free }

/-- The machine begins Cold Boot with a device: DEV_MODE reads mode 0x1 and profile 0x0 (R521), and the Basin memory
lists nothing (assumption 4). -/
def State.toColdBoot (s : State) (f : Dev → Dev) : State :=
  { s with mode := .coldBoot, profile := .none, mem := {}, dev := f s.dev }

/-- A core reset into Safe begins (Table MODE-6, step 12). -/
def State.toCoreReset (s : State) (stay : Bool) : State := s.toColdBoot (Dev.coreReset stay)

/-- The factory Crypto Officer credential of slot 0 (R378). -/
def factoryCred : Cred :=
  { enabled := true, role := 4, method := 1, key := wordBytes 48 Sys2Proof.Config.factoryKey
    salt := wordBytes 32 Sys2Proof.Config.factorySalt, iter := 1000000, factory := true }

/-- A credential slot; slot 0 is in its factory state until it is set. -/
def Dev.cred (d : Dev) (i : Nat) : Cred := d.sec.slots.getD i (if i = 0 then factoryCred else {})

/-- Zeroization of the key store (R384): credentials, sessions, challenges and DRBG state are gone, slot 0 is in its
factory state, the audit chain restarts under a new key, and its first record is the zeroization. -/
def Dev.zeroizeStore (d : Dev) : Dev :=
  (d.onSec fun x => { x with
    slots := [], sessions := [], challs := [], seeded := false, keyGen := x.keyGen + 1, chain := [] }).audit
    .zeroized 0xFF none 0

/-- Zeroization and the core reset into Safe that follows (R384); the device stays in Safe until a MODE_SET. The fault
names the cause: 1 command, 2 tamper, 3 debug. -/
def State.zeroize (s : State) (cause : Nat) : State :=
  ((s.onDev Dev.zeroizeStore).toCoreReset true).onDev fun d => d.sendFault 11 0 2 1 0x3F cause

/-- A CXL link is fenced (R37, R303): its port gate closes and the Weir admits nothing from it or toward it. -/
def Dev.fenceLink (d : Dev) (l : Nat) : Dev :=
  d.onCxl fun x => { x with port := x.port.upd l {} fun p => { p with fenced := true } }

/-- An IDE stream goes insecure and its link is fenced (R303). -/
def Dev.ideInsecure (d : Dev) (l : Nat) : Dev :=
  let d := (d.cxl.ide.getD l {}).longs.foldl (fun d k => d.finLong k .aborted []) d
  (d.onCxl fun x => { x with ide := x.ide.upd l {} fun i => { i with cxl := 3, io := 3, busy := none, retry := none, longs := [] } }).fenceLink l

/-- The module enters its error state after a failed test, row of Table SEC-2 (R372): approved clears, every link with
an IDE stream is fenced, and a contained fault is logged. -/
def Dev.securityError (d : Dev) (row : Nat) : Dev :=
  let d := d.onSec fun x => { x with errState := true, approved := false, failed := setBit x.failed (row - 1) }
  let d := (d.cxl.ide.filter fun e => decide (e.2.cxl ≠ 0)).foldl (fun d e => d.ideInsecure e.1) d
  (d.audit .testFailed 0xFF none row).sendFault 11 0 1 1 0x3F row

end Sys2Proof.Machine
end

