-- ==== Sys2Proof/Machine/Security.lean ====
section
/-! DEFINITION. Security functions and sessions (chapter 16): sessions and credentials, self-tests, entropy, SPDM,
zeroization, tamper, the audit log and invasive debug. -/

namespace Sys2Proof.Machine

/-- A value from the DRBG; the draw counts toward its reseed (R373). -/
def Dev.drbg (d : Dev) : BitVec 384 × Dev :=
  let (v, d) := d.draw
  (v, d.onSec fun x => { x with drbgReqs := x.drbgReqs + 1 })

/-- A credential slot is locked out (R381). -/
def Dev.locked (d : Dev) (i : Nat) : Bool :=
  match (d.cred i).until6 with
  | some t => decide (d.clk.t6 < t)
  | none => false

/-- The device with one credential slot changed. -/
def Dev.onCred (d : Dev) (i : Nat) (f : Cred → Cred) : Dev :=
  d.onSec fun x => { x with slots := x.slots.set i (f (d.cred i)) }

/-- The checks of a slot in the order of R381; the error state refuses a service that draws random values with
WRONG_MODE (R372), before the entropy check. -/
def slotChecks : List Check :=
  [require .accessDenied fun c => ! c.d.locked (c.u8 0),
   require .accessDenied fun c => (c.d.cred (c.u8 0)).enabled,
   require .wrongMode fun c => ! c.d.sec.errState,
   require .entropyPending fun c => c.d.sec.seeded]

/-- SECURITY_STATUS_GET (R388). -/
def cmdSecurityStatusGet : Cmd where
  op := 0x1000
  src := Src.anyone
  body := reads fun c =>
    let x := c.d.sec
    nb 1 (b2n x.approved + 2 * b2n x.errState + 4 * b2n x.seeded + 8 * b2n x.tamper + 16 * b2n x.debug) ++ zeros 3
      ++ nb 8 x.secVer ++ nb 4 x.audit.length

def execSecurityStatusGet (dt : Nat) (f : Frame) (s : State) : Host.Outcome State Fault Refusal :=
  bilod cmdSecurityStatusGet dt f s

/-- SESSION_CHALLENGE (R379): a newer challenge for the same slot and mailbox replaces the older one. -/
def cmdSessionChallenge : Cmd where
  op := 0x1001
  len := 4
  src := { role := some 1, open_ := true }
  fields := [atMost 0 15, rsvd 1 3]
  state := slotChecks
  body := fun c =>
    let slot := c.u8 0
    let (v, d) := c.d.drbg
    let n := wordBytes 48 v
    let k := d.cred slot
    let d := d.onSec fun x => { x with
      challs := (x.challs.filter fun h => ! (h.slot == slot && h.mbx == c.f.mbx))
        ++ [{ slot := slot, mbx := c.f.mbx, nonce := n, t6 := d.clk.t6 }] }
    (d, .done (n ++ nb 1 k.method ++ zeros 3 ++ nb 4 k.iter ++ fit 32 k.salt))

def execSessionChallenge (dt : Nat) (f : Frame) (s : State) : Host.Outcome State Fault Refusal :=
  bilod cmdSessionChallenge dt f s

/-- The ASCII label of the host's proof, "OXN-SESS" (R379). -/
def labelHost : Bytes := [0x4F, 0x58, 0x4E, 0x2D, 0x53, 0x45, 0x53, 0x53]
/-- The ASCII label of the device's proof, "OXN-DEV" (R379). -/
def labelDev : Bytes := [0x4F, 0x58, 0x4E, 0x2D, 0x44, 0x45, 0x56]

/-- The host's proof: 106 bytes under K (R379). -/
def hostProof (key nd nh : Bytes) (slot : Nat) (m : Mbx) : Bytes :=
  wordBytes 48 (Sys2Proof.Config.hmac384 key (labelHost ++ nd ++ nh ++ nb 1 slot ++ nb 1 (auditMbx (some m))))

/-- The device's proof: 107 bytes under K (R379). -/
def devProof (key nd nh : Bytes) (id : Nat) : Bytes :=
  wordBytes 48 (Sys2Proof.Config.hmac384 key (labelDev ++ nh ++ nd ++ nb 4 id))

/-- The challenge that OPEN_SESSION answers: issued on this mailbox for this slot within the last 10 s (R379). -/
def Dev.challenge (d : Dev) (slot : Nat) (m : Mbx) : Option Challenge :=
  d.sec.challs.find? fun h => h.slot == slot && h.mbx == m && decide (d.since h.t6 < 10 * s6)

/-- A challenge is used up (R379). -/
def Dev.useChallenge (d : Dev) (slot : Nat) (m : Mbx) : Dev :=
  d.onSec fun x => { x with challs := x.challs.filter fun h => ! (h.slot == slot && h.mbx == m) }

/-- A failed attempt (R381): the fifth in a row locks the slot, the k-th time for min(60 × 2^(k−1), 86,400) s. -/
def Dev.failedOpen (d : Dev) (slot : Nat) (m : Mbx) : Dev :=
  let d := d.audit .openFailed slot (some m) Status.accessDenied.code
  let k := d.cred slot
  if k.fails + 1 < 5 then d.onCred slot fun k => { k with fails := k.fails + 1 }
  else
    let hold := min (60 * 2 ^ k.k) 86400
    (d.onCred slot fun k => { k with fails := 0, k := k.k + 1, until6 := some (d.clk.t6 + hold * s6) }).audit
      .lockout slot (some m) hold

/-- A session id that is not 0 and no open session's (R380): the first such number from a drawn one on. At most 16
sessions are open, so one of 18 numbers in a row fits. -/
def Dev.drawId (d : Dev) : Nat × Dev :=
  let (v, d) := d.drbg
  let ok (i : Nat) : Bool := i != 0 && (d.session i).isNone
  ((((List.range 18).map fun i => (v.toNat + i) % 2 ^ 32).find? ok).getD 1, d)

/-- Open sessions of a mailbox (R380). -/
def Dev.openOn (d : Dev) (m : Mbx) : Nat :=
  (d.sec.sessions.filter fun x => x.mbx == m && decide (d.since x.last6 < sessionIdle6)).length

/-- OPEN_SESSION (R379, R380, R381). -/
def cmdOpenSession : Cmd where
  op := 0x1002
  len := 100
  src := { role := some 1, open_ := true }
  fields := [atMost 0 15, rsvd 1 3]
  state := slotChecks ++ [require .resourceExhausted fun c => decide (c.d.openOn c.f.mbx < 8)]
  body := fun c =>
    let slot := c.u8 0
    let m := c.f.mbx
    let nh := slice c.f.payload 4 48
    let k := c.d.cred slot
    match c.d.challenge slot m with
    | some h =>
      let d := c.d.useChallenge slot m
      if slice c.f.payload 52 48 = hostProof k.key h.nonce nh slot m then
        let (id, d) := d.drawId
        let d := (d.onCred slot fun k => { k with fails := 0, k := 0 }).onSec fun x => { x with
          sessions := x.sessions ++ [{ id := id, slot := slot, role := k.role, mbx := m, last6 := d.clk.t6, factory := k.factory }] }
        (d.audit .opened slot (some m) 0, .done (nb 4 id ++ nb 1 k.role ++ zeros 3 ++ devProof k.key h.nonce nh id))
      else (d.failedOpen slot m, .fail (plain .accessDenied))
    | none => (c.d.failedOpen slot m, .fail (plain .accessDenied))

def execOpenSession (dt : Nat) (f : Frame) (s : State) : Host.Outcome State Fault Refusal :=
  bilod cmdOpenSession dt f s

/-- The sessions that `p` selects close, each with its audit record (R380, R387). -/
def Dev.closeSessions (d : Dev) (p : Session → Bool) : Dev :=
  (d.sec.sessions.filter p).foldl (fun d x => d.audit .closed x.slot (some x.mbx) 0)
    (d.onSec fun x => { x with sessions := x.sessions.filter fun y => ! p y })

/-- CLOSE_SESSION. -/
def cmdCloseSession : Cmd where
  op := 0x1003
  src := { role := some 1 }
  body := changes fun c => c.d.closeSessions fun x => x.id == c.f.sid && x.mbx == c.f.mbx

def execCloseSession (dt : Nat) (f : Frame) (s : State) : Host.Outcome State Fault Refusal :=
  bilod cmdCloseSession dt f s

/-- The credential that CREDENTIAL_SET stores: a passphrase is kept as K with a new salt (R377). -/
def newCred (c : Ctx) (salt : Bytes) : Cred :=
  let secret := slice c.f.payload 12 (c.u16 8)
  let pass := c.u8 3 == 1
  { enabled := (c.u8 1).testBit 0, role := c.u8 2, method := c.u8 3
    key := if pass then wordBytes 48 (Sys2Proof.Config.pbkdf2 secret salt (c.u32 4)) else secret
    salt := if pass then salt else [], iter := c.u32 4 }

/-- CREDENTIAL_SET (R377): its salt is a random value, so a passphrase needs the DRBG (R372, R373). A secret that the
payload does not hold is reported at its length field. -/
def cmdCredentialSet : Cmd where
  op := 0x1004
  len := 12
  ext := fun c => c.u16 8
  src := Src.officer
  fields :=
    [atMost 0 15,
     need 1 fun c => decide (c.u8 1 ≤ 1) && (c.u8 0 != 0 || c.u8 1 == 1),
     need 2 fun c => decide (1 ≤ c.u8 2) && decide (c.u8 2 ≤ 4) && (c.u8 2 == 4) == (c.u8 0 == 0),
     atMost 3 1,
     need 4 fun c => if c.u8 3 = 1 then decide (100000 ≤ c.u32 4) && decide (c.u32 4 ≤ 1000000) else c.u32 4 == 0,
     need 8 fun c => (if c.u8 3 = 1 then decide (12 ≤ c.u16 8) && decide (c.u16 8 ≤ 128) else c.u16 8 == 48)
       && decide (12 + c.u16 8 ≤ c.f.payload.length),
     rsvd 10 2]
  state := [require .wrongMode fun c => c.u8 3 == 0 || ! c.d.sec.errState,
            require .entropyPending fun c => c.u8 3 == 0 || c.d.sec.seeded]
  body := changes fun c =>
    let (v, d) := if c.u8 3 = 1 then c.d.drbg else (0, c.d)
    let d := (d.onCred (c.u8 0) fun _ => newCred c (wordBytes 32 v)).audit .credential (c.u8 0) (some c.f.mbx) 0
    d.closeSessions fun x => x.slot == c.u8 0

def execCredentialSet (dt : Nat) (f : Frame) (s : State) : Host.Outcome State Fault Refusal :=
  bilod cmdCredentialSet dt f s

/-- CREDENTIAL_GET. -/
def cmdCredentialGet : Cmd where
  op := 0x1005
  len := 1
  src := Src.officer
  fields := [atMost 0 15]
  body := reads fun c =>
    let k := c.d.cred (c.u8 0)
    let left := match k.until6 with
      | some t => ceilDiv (t - c.d.clk.t6) s6
      | none => 0
    nb 1 (c.u8 0) ++ nb 1 (b2n k.enabled) ++ nb 1 k.role ++ nb 1 k.method ++ nb 4 k.iter ++ nb 1 k.fails ++ nb 1 k.k
      ++ nb 4 left

def execCredentialGet (dt : Nat) (f : Frame) (s : State) : Host.Outcome State Fault Refusal :=
  bilod cmdCredentialGet dt f s

/-- The self-tests of Table SEC-2 run again: those that failed, the known-answer tests (row 2) and the DRBG health test
(row 5). Which of them fail is free (assumption 12). If none does, the error state ends and approved reads 1, except
in Diagnostic (R25, R372). The word has bit i set for a failed test of row i + 1. -/
def Dev.selfTests (m : Mode) (d : Dev) : Nat × Dev :=
  let (v, d) := d.draw
  let run := setBit (setBit d.sec.failed 1) 4
  let bad := bitsOf (fun i => run.testBit i && v.toNat.testBit i) 8
  if bad = 0 then
    let was := d.sec.errState
    let d := d.onSec fun x => { x with errState := false, failed := 0, approved := m != .diagnostic }
    (0, if was then d.audit .testRecovered 0xFF none 0 else d)
  else (bad, ((List.range 8).filter bad.testBit).foldl (fun d i => d.securityError (i + 1)) d)

/-- SELF_TEST_RUN (R372). -/
def cmdSelfTestRun : Cmd where
  op := 0x1006
  src := Src.officer
  long := true
  body := fun c =>
    let (bad, d) := c.d.selfTests c.m
    (d, .ended .success (nb 4 bad))

def execSelfTestRun (dt : Nat) (f : Frame) (s : State) : Host.Outcome State Fault Refusal :=
  bilod cmdSelfTestRun dt f s

/-- ZEROIZE: its own answer; the zeroization follows it (R384). -/
def cmdZeroize : Cmd where
  op := 0x1007
  len := 4
  src := Src.officer
  fields := [need 0 fun c => c.u32 0 == 0x5A45524F]
  body := changes (·.d)

/-- The effect of a command after whose answer the device zeroizes. -/
def thenZeroize (k : Cmd) (cause : Nat) (after : Dev → Dev) (dt : Nat) (f : Frame) (s : State) :
    Host.Outcome State Fault Refusal :=
  let s := s.elapse dt
  let t := s.onDev (k.serve f s.mode s.profile)
  .next (if k.accepts f s.mode s.profile s.dev then (t.zeroize cause).onDev after else t)

def execZeroize (dt : Nat) (f : Frame) (s : State) : Host.Outcome State Fault Refusal :=
  thenZeroize cmdZeroize 1 id dt f s

/-- AUDIT_READ (R387): records held from a sequence number on; it clears a latched tamper (R385). -/
def cmdAuditRead : Cmd where
  op := 0x1008
  len := 10
  src := Src.officer
  fields := [need 8 fun c => decide (1 ≤ c.u16 8) && decide (c.u16 8 ≤ 63)]
  body := fun c =>
    let out := (c.d.sec.audit.filter fun a => decide (a.seq ≥ c.u64 0)).take (c.u16 8)
    (c.d.onSec fun x => { x with tamper := false },
     .done (nb 8 c.d.sec.auditOver ++ (out.map fun a => a.head ++ fit 48 a.mac).flatten))

def execAuditRead (dt : Nat) (f : Frame) (s : State) : Host.Outcome State Fault Refusal :=
  bilod cmdAuditRead dt f s

/-- DEBUG_ENABLE: refused in Run-Secure (R386, R522). -/
def cmdDebugEnable : Cmd where
  op := 0x1009
  len := 4
  src := Src.officer
  fields := [need 0 fun c => c.u32 0 == 0x44424745]
  state := [require .wrongMode fun c => ! c.p.isSecure]
  body := changes (·.d)

/-- The device zeroizes first, and debug stays enabled until the next power-up (R386). -/
def execDebugEnable (dt : Nat) (f : Frame) (s : State) : Host.Outcome State Fault Refusal :=
  thenZeroize cmdDebugEnable 3 (fun d => (d.onSec fun x => { x with debug := true }).audit .debugEnable 0xFF none 0) dt f s

/-! ### Events -/

/-- A session closes after 15 minutes without a command (R380). -/
def execSessionTimeout (dt id : Nat) (s : State) : Host.Outcome State Fault Refusal :=
  event dt s fun _ _ d => d.closeSessions fun x => x.id == id && decide (d.since x.last6 ≥ sessionIdle6)

/-- A challenge is valid for 10 s (R379). -/
def execChallengeExpiry (dt slot : Nat) (mb : Mbx) (s : State) : Host.Outcome State Fault Refusal :=
  event dt s fun _ _ d => d.onSec fun x => { x with
    challs := x.challs.filter fun h => ! (h.slot == slot && h.mbx == mb && decide (d.since h.t6 ≥ 10 * s6)) }

/-- A lockout ends when its time has passed (R381). -/
def execLockoutEnd (dt slot : Nat) (s : State) : Host.Outcome State Fault Refusal :=
  event dt s fun _ _ d =>
    if (d.cred slot).until6.isSome && ! d.locked slot then d.onCred slot fun k => { k with until6 := none } else d

/-- The entropy source ends its start-up tests (R373): the DRBG is seeded, or the source has failed a restart, the third
of which in a row sets the error state. -/
def execEntropyStartupDone (dt : Nat) (passed : Bool) (s : State) : Host.Outcome State Fault Refusal :=
  event dt s fun mode _ d =>
    if mode = .shelf || d.sec.seeded then d
    else if passed then d.onSec fun x => { x with seeded := true, restarts := 0, drbgReqs := 0, reseedT := d.clk.t6 }
    else
      let d := d.onSec fun x => { x with restarts := x.restarts + 1 }
      if d.sec.restarts ≥ 3 ∧ d.sec.errState = false then d.securityError 3 else d

/-- A continuous test fails: the source restarts its start-up tests, and ENTROPY_PENDING applies again (R373). -/
def execEntropyTestFail (dt : Nat) (s : State) : Host.Outcome State Fault Refusal :=
  event dt s fun mode _ d =>
    if mode = .shelf then d else d.onSec fun x => { x with seeded := false, restarts := 0 }

/-- The DRBG reseeds after 2^20 requests or 60 s; a failed health test sets the error state (R373, Table SEC-2). -/
def execDrbgReseed (dt : Nat) (healthOk : Bool) (s : State) : Host.Outcome State Fault Refusal :=
  event dt s fun mode _ d =>
    if mode != .shelf && d.sec.seeded && (decide (d.sec.drbgReqs ≥ 2 ^ 20) || decide (d.since d.sec.reseedT ≥ 60 * s6)) then
      if healthOk then d.onSec fun x => { x with drbgReqs := 0, reseedT := d.clk.t6 } else d.securityError 5
    else d

/-! ### SPDM (R383) -/

/-- A measurement block of Table SEC-4; the digests of blocks 2 and 3 are over the image bodies held. -/
def Dev.measurement (m : Mode) (p : Profile) (d : Dev) (i : Nat) : Bytes :=
  let body (k : Option Nat) : Bytes := match k with
    | some k => (d.img.copy.getD k {}).data
    | none => []
  match i with
  | 1 => wordBytes 48 (Sys2Proof.Config.sha384 Sys2Proof.Config.bootRom)
  | 2 => wordBytes 48 (Sys2Proof.Config.sha384 (body d.img.fwUse))
  | 3 => wordBytes 48 (Sys2Proof.Config.sha384 (body d.img.cfgUse))
  | 4 => nb 8 d.sec.secVer ++ nb 1 d.sec.revoked
  | 5 => nb 4 (devMode m p d) ++ nb 1 (b2n d.sec.debug)
  | _ => []

/-- The blocks that a GET_MEASUREMENTS index asks for: one, or all with 0xFF; the others return no block. -/
def Dev.measurements (m : Mode) (p : Profile) (d : Dev) (i : Nat) : Bytes :=
  if i = 0xFF then ((List.range 5).map fun k => d.measurement m p (k + 1)).flatten else d.measurement m p i

/-- The state of the exchange on a port: 0 none, 1 version, 2 capabilities, 3 algorithms, 4 key exchange, 5 session. -/
def Dev.spdmState (d : Dev) (port : SpdmPort) : Nat :=
  ((d.sec.spdm.find? fun e => e.1 == port).map (·.2)).getD 0

/-- The state of the exchange on a port changes. -/
def Dev.spdmSet (d : Dev) (port : SpdmPort) (n : Nat) : Dev :=
  d.onSec fun x => { x with spdm := (x.spdm.filter fun e => e.1 != port) ++ [(port, n)] }

/-- The responder's answer: SPDM 1.3 response code, and bytes of its own. -/
def Dev.spdmAnswer (d : Dev) (port : SpdmPort) (code : Nat) (b : Bytes) : Dev :=
  d.onSec fun x => { x with spdmOut := some (port, code, b) }

/-- The port is served: a trained upstream or downstream link's DOE mailbox, or MCTP on the out-of-band path. -/
def Dev.spdmServed (m : Mode) (d : Dev) : SpdmPort → Bool
  | .doe l => d.isCxl l && (d.port l).up && m.allServed
  | .mctp => m.adminServed

/-- What each request asks for, by SPDM 1.3 (PRESUMED: codes, order of the exchange): its response code, the state it
needs, the state it leaves, and whether it needs a nonce or a key. -/
def spdmRule : SpdmReq → Option (Nat × Nat × Option Nat × Bool)
  | .getVersion => some (0x04, 0, some 1, false)
  | .getCapabilities => some (0x61, 1, some 2, false)
  | .negotiateAlgorithms => some (0x63, 2, some 3, false)
  | .getDigests => some (0x01, 3, none, false)
  | .getCertificate => some (0x02, 3, none, false)
  | .challenge => some (0x03, 3, none, true)
  | .getMeasurements _ => some (0x60, 3, none, true)
  | .keyExchange => some (0x64, 3, some 4, true)
  | .finish => some (0x65, 4, some 5, false)
  | .keyUpdate => some (0x69, 5, none, false)
  | .heartbeat => some (0x68, 5, none, false)
  | .endSession => some (0x6C, 5, some 3, false)
  | .ideKm => some (0x7E, 5, none, false)
  | .other _ => none

/-- An SPDM request (R383): an unlisted request is answered with ERROR UnsupportedRequest, one in the error state with
ERROR Unspecified (R372), one that needs a nonce or a key before the DRBG is seeded with ERROR Busy, one out of order
with ERROR UnexpectedRequest. -/
def execSpdmRequest (dt : Nat) (port : SpdmPort) (req : SpdmReq) (s : State) : Host.Outcome State Fault Refusal :=
  event dt s fun mode p d =>
    let error (code : Nat) : Dev := d.spdmAnswer port 0x7F (nb 1 code)
    if ! d.spdmServed mode port then d
    else match spdmRule req with
      | none => error 0x07
      | some (code, need, next, random) =>
        if d.sec.errState then error 0x05
        else if random && ! d.sec.seeded then error 0x03
        else if d.spdmState port < need || (need = 4 && d.spdmState port != 4) then error 0x04
        else
          let b := match req with
            | .getMeasurements i => d.measurements mode p i
            | _ => []
          let d := if random then (d.drbg).2 else d
          let d := match next with
            | some n => d.spdmSet port n
            | none => d
          d.spdmAnswer port code b

/-! ### Tamper (R385, R451, R487) -/

/-- The number of a tamper cause in its audit record (assumption 13). -/
def tamperCode : TamperCause → Nat
  | .pin => 1 | .vcore => 2 | .vstby => 3 | .refclk => 4 | .temperature => 5

/-- A tamper event on the core rails zeroizes at once (R385). -/
def execTamperEvent (dt : Nat) (cause : TamperCause) (s : State) : Host.Outcome State Fault Refusal :=
  let s := s.elapse dt
  .next (if s.mode = .shelf then s
    else (s.zeroize 2).onDev fun d => d.audit .tamper 0xFF none (tamperCode cause))

/-- The credentials, sessions and DRBG state are gone (R384, R451), in Shelf, where nothing can be logged. -/
def Dev.wipe (d : Dev) : Dev :=
  d.onSec fun x => { x with slots := [], sessions := [], challs := [], seeded := false }

/-- In Shelf the VSTBY monitor samples TAMPER_N every 1 ms: a low zeroizes the key store and latches a tamper record,
which the next boot logs (R385, R487). -/
def execShelfTamperSample (dt : Nat) (low : Bool) (s : State) : Host.Outcome State Fault Refusal :=
  event dt s fun mode _ d =>
    if mode = .shelf && low then
      d.wipe.onSec fun x => { x with tamper := true, tamperLog := x.tamperLog ++ [1] }
    else d

/-- VSTBY falls below 1.6 V: the wrapping key is lost and the store is unreadable; the next boot treats it as zeroized and
logs a tamper record with the cause VSTBY loss (R451; its number is 6, assumption 13). -/
def execVstbyLoss (dt : Nat) (s : State) : Host.Outcome State Fault Refusal :=
  event dt s fun _ _ d =>
    d.wipe.onSec fun x => { x with storeLost := true, tamper := true, tamperLog := x.tamperLog ++ [6] }

/-- What a boot does with a store that was zeroized in Shelf or lost: the audit chain restarts, its first record the
zeroization, and the latched records follow (R385, R387, R451). -/
def Dev.bootStore (d : Dev) : Dev :=
  if d.sec.tamperLog.isEmpty then d
  else
    let l := d.sec.tamperLog
    let d := d.zeroizeStore.onSec fun x => { x with storeLost := false, tamperLog := [] }
    l.foldl (fun d c => d.audit .tamper 0xFF none c) d

end Sys2Proof.Machine
end

