-- ==== Sys2Proof/Machine/Power.lean ====
section
/-! DEFINITION. Supplies, clocks and temperatures (chapters 20 and 23): rails and their monitors, the core voltage, the
power cap, Shelf and wake, reference clocks, the cold reset, and thermal warnings and shutdown. -/

namespace Sys2Proof.Machine

/-- The core rails of Table PWR-1, numbered in its order. -/
def railCount : Nat := 6

/-- The `n`-byte DEVICE_SETTINGS field at an offset of Table IMAGE-4, 0 without an image. -/
def Dev.setting (d : Dev) (off n : Nat) : Nat := leN d.img.settings off n

/-- Package power in mW, the mean over the last ten polls (R450). -/
def Dev.meanPower (d : Dev) : Nat :=
  if d.pwr.pmbMean.isEmpty then 0 else d.pwr.pmbMean.sum / d.pwr.pmbMean.length

/-- Voltages and currents of rails that a read draws: the manual gives no value (assumption 12). -/
def Dev.railReads : Nat → Dev → Bytes × Dev
  | 0, d => ([], d)
  | n + 1, d =>
    let (v, d) := d.drawNat (2 ^ 16)
    let (a, d) := d.drawNat (2 ^ 16)
    let (b, d) := Dev.railReads n d
    (nb 2 v ++ nb 2 a ++ b, d)

/-- SUPPLY_STATUS_GET. -/
def cmdSupplyStatusGet : Cmd where
  op := 0x2010
  src := Src.observer
  body := fun c =>
    let (b, d) := c.d.railReads railCount
    (d, .done (b ++ nb 2 d.pwr.avsMv ++ nb 2 (d.meanPower / 1000) ++ nb 1 (b2n d.pwr.avsFault) ++ zeros 3))

def execSupplyStatusGet (dt : Nat) (f : Frame) (s : State) : Host.Outcome State Fault Refusal :=
  bilod cmdSupplyStatusGet dt f s

/-- CLOCK_STATUS_GET. -/
def cmdClockStatusGet : Cmd where
  op := 0x2011
  src := Src.observer
  body := reads fun c =>
    let w := c.d.pwr
    nb 1 w.clk ++ nb 1 (b2n (w.valid.getD 0 false) + 2 * b2n (w.valid.getD 1 false) + 4 * (c.d.setting 4 1 % 2)) ++ zeros 2
      ++ intBytes 2 (w.off.getD 0 0) ++ intBytes 2 (w.off.getD 1 0) ++ nb 4 w.failovers

def execClockStatusGet (dt : Nat) (f : Frame) (s : State) : Host.Outcome State Fault Refusal :=
  bilod cmdClockStatusGet dt f s

/-- CLOCK_SELECT: the switch is as in R454, without the loss of a clock. -/
def cmdClockSelect : Cmd where
  op := 0x2012
  len := 4
  src := Src.admin
  fields := [atMost 0 1, rsvd 1 3]
  state := [require .wrongMode fun c => c.d.pwr.valid.getD (c.u8 0) false]
  body := changes fun c => c.d.onPwr fun w => { w with clk := c.u8 0 }

def execClockSelect (dt : Nat) (f : Frame) (s : State) : Host.Outcome State Fault Refusal :=
  bilod cmdClockSelect dt f s

/-- Live sectors of the fault ring, sectors 48–127 (R500). -/
def Img.faultSectors (i : Img) : Nat := 80 - (i.retired.filter fun s => decide (48 ≤ s)).length

/-- Entries that a record takes (R500). -/
def NvRec.entries (r : NvRec) : Nat := if r.fatal.isSome then 10 else 1

/-- A record joins the fault ring (R500, R501): in the sector in use, or the next one if it does not fit; two erased sectors are kept
ahead, so the records of the oldest sectors go. A ring with fewer than 8 live sectors refuses it. -/
def Dev.logNv (d : Dev) (r : NvRec) : Dev :=
  let live := d.img.faultSectors
  if live < 8 then d.onImg fun i => { i with logLost := i.logLost + 1 }
  else d.onFlt fun f =>
    let cur := (f.nvLog.getLast?.map (·.sector)).getD 0
    let used := ((f.nvLog.filter fun (x : NvRec) => decide (x.sector = cur)).map NvRec.entries).sum
    let r := { r with sector := if used + r.entries ≤ 1023 then cur else cur + 1 }
    let log := (f.nvLog ++ [r]).filter fun x => decide (r.sector < x.sector + (live - 2))
    { f with nvLog := log, nvBase := f.nvBase + (f.nvLog.length + 1 - log.length) }

/-- Entries that wait in MPC SRAM join the NV log (R501). -/
def Dev.flushNv (d : Dev) : Dev :=
  d.flt.nvWait.foldl (fun d h => d.logNv { h := h }) (d.onFlt fun f => { f with nvWait := [] })

/-- SHELF_ENTER: the NV log is flushed, and CORE_EN is driven low within 50 ms, a time that is free (assumption 12). -/
def cmdShelfEnter : Cmd where
  op := 0x2013
  src := Src.admin
  mode := fun m => m == .safe
  body := changes fun c =>
    let (lag, d) := c.d.drawNat (50 * ms6 + 1)
    d.flushNv.onPwr fun w => { w with coreEn := false, coreEnT := d.clk.t6 + lag }

def execShelfEnter (dt : Nat) (f : Frame) (s : State) : Host.Outcome State Fault Refusal :=
  bilod cmdShelfEnter dt f s

/-- STBY_WAKE high for 1 ms releases CORE_EN, during a SHELF_ENTER only once it has been low for 10 ms (R452). -/
def execStbyWake (dt heldNs : Nat) (s : State) : Host.Outcome State Fault Refusal :=
  event dt s fun mode _ d =>
    if ! d.pwr.coreEn && decide (heldNs ≥ 1000000)
        && (mode == .shelf || decide (d.clk.t6 ≥ d.pwr.coreEnT + 10 * ms6)) then
      d.onPwr fun w => { w with coreEn := true }
    else d

/-- VSTBY is applied and CORE_EN is released (R452). The store was lost with VSTBY (R451, Table PWR-4). -/
def execVstbyPowerOn (dt : Nat) (s : State) : Host.Outcome State Fault Refusal :=
  event dt s fun mode _ d => if mode = .shelf then d.onPwr fun w => { w with coreEn := true } else d

/-- A cold reset of the whole state; rails that the monitors read out of tolerance hold Cold Boot (R447, R458). -/
def State.coldReset (s : State) (rails : List Nat) : State :=
  s.toColdBoot fun d => d.coldReset.onPwr fun w => { w with railsBad := rails }

/-- CORE_PWRGD rises (R446): a cold reset enters Cold Boot, whatever the mode (R458, Table PWR-4). -/
def execPowerGood (dt : Nat) (railsBad : List Nat) (s : State) : Host.Outcome State Fault Refusal :=
  let s := s.elapse dt
  .next (s.coldReset railsBad)

/-- RESET_N low for 1 µs while CORE_PWRGD is high is a cold reset (R458). -/
def execResetNAssert (dt heldNs : Nat) (s : State) : Host.Outcome State Fault Refusal :=
  let s := s.elapse dt
  .next (if s.mode != .shelf && decide (heldNs ≥ 1000) then s.coldReset s.dev.pwr.railsBad else s)

/-- A rail that held Cold Boot recovers (R447). -/
def execRailRecovered (dt rail : Nat) (s : State) : Host.Outcome State Fault Refusal :=
  event dt s fun _ _ d => d.onPwr fun w => { w with railsBad := w.railsBad.filter fun r => decide (r ≠ rail) }

/-- The core rails are removed: the device is in Shelf and only what VSTBY, OTP and flash keep remains (R29, R451). -/
def execCoreRailsOff (dt : Nat) (s : State) : Host.Outcome State Fault Refusal :=
  let s := s.elapse dt
  .next { s with mode := .shelf, profile := .none, mem := {}, dev := s.dev.kept }

/-- A core rail leaves its tolerance for 10 µs while power-good is high (Table PWR-7). -/
def execSupplyOutOfRange (dt rail lastedNs : Nat) (s : State) : Host.Outcome State Fault Refusal :=
  event dt s fun mode _ d =>
    if mode != .shelf && decide (rail < railCount) && decide (lastedNs ≥ 10000) then d.countDev 0x243 rail else d

/-! ### Core voltage and power cap -/

/-- The hottest die sensor in °C, 0 below freezing or before the first sample. -/
def Dev.dieTemp (d : Dev) : Nat := ((d.pwr.temps.take 16).map Int.toNat).foldl max 0

/-- The set point in mV of the fused voltage table for a fabric state, at most 780 mV (R448). -/
def Dev.avsFor (d : Dev) (fab : Nat) : Nat := min 780 (680 + 5 * (Sys2Proof.Config.avsTable fab d.dieTemp).toNat)

/-- The lowest set point that the fabric state in force, and one that is armed, may run at (R449). -/
def Dev.avsFloor (d : Dev) : Nat :=
  let now := d.avsFor d.pwr.fab
  match d.pwr.fabNext with
  | some (st, _) => max now (d.avsFor st)
  | none => now

/-- The set point is revised over AVSBus (R448, R449): at most once per 1 ms, in 5 mV steps, within 680–780 mV, and never below what the
fabric clock needs; after three unanswered writes it stands until the regulator answers again. -/
def execAvsUpdate (dt target : Nat) (answered : Bool) (s : State) : Host.Outcome State Fault Refusal :=
  event dt s fun mode _ d =>
    let w := d.pwr
    let due := match w.avsT with
      | some t => decide (d.since t ≥ ms6)
      | none => true
    if mode = .shelf || ! due || target < max 680 d.avsFloor || target > 780 || target % 5 != 0 then d
    else if answered then
      d.onPwr fun w => { w with avsMv := target, avsFails := 0, avsFault := false, avsT := some d.clk.t6 }
    else
      let d := d.onPwr fun w => { w with
        avsFails := w.avsFails + 1, avsFault := w.avsFault || decide (w.avsFails + 1 ≥ 3), avsT := some d.clk.t6 }
      if d.pwr.avsFails = 3 then d.countDev 0x241 else d

/-- The bounds and power measures of Run-Power-Capped hold (R522). -/
def capped (m : Mode) (p : Profile) : Bool := m.tenant && p == .powerCapped

/-- The regulators that the image lists (Table IMAGE-4). -/
def Dev.regulators (d : Dev) : Nat := ((List.range 8).filter fun i => d.setting (24 + i) 1 != 0).length

/-- Each 1 ms the regulators are read, in mW; one that does not answer counts at its last reading (R450). -/
def execPmbusPoll (dt : Nat) (readings : List (Option Nat)) (s : State) : Host.Outcome State Fault Refusal :=
  event dt s fun mode p d =>
    if mode = .shelf then d
    else
      let last := (List.range d.regulators).map fun i => ((readings.getD i none).getD (d.pwr.pmb.getD i 0))
      let hist := d.pwr.pmbMean ++ [last.sum]
      let d := d.onPwr fun w => { w with
        pmb := last, pmbMean := hist.drop (hist.length - 10)
        pmbQuiet := (List.range d.regulators).any fun i => (readings.getD i none).isNone }
      let cap := d.ctl.capW * 1000
      let on := capped mode p
      d.onPwr fun w => { w with
        overMs := if on && decide (d.meanPower > cap) then w.overMs + 1 else 0
        underMs := if on && decide (d.meanPower * 10 < cap * 9) then w.underMs + 1 else 0 }

/-- The commit epoch at which a fabric state change acts: within 10 µs of a failover it is deferred to the one after
(R454). -/
def Dev.fabEpoch (d : Dev) : Nat :=
  let e := epochAfter d.now
  match d.pwr.failT with
  | some t => if d.since t < 10 * us6 then (e + 1024) % 2 ^ 40 else e
  | none => e

/-- A move to another fabric state is armed (R36, R450, R512). -/
def Dev.armFab (d : Dev) (st : Nat) : Dev := d.onPwr fun w => { w with fabNext := some (st, d.fabEpoch) }

/-- The fabric moves one state under the power cap (R450): slower when the mean still exceeds the cap 10 ms after parking, or
while a regulator does not answer and only the slowest state holds the cap (assumption 140), counted; faster when it stayed below 90 % of the cap for 100 ms, with the warning clear for as long (R512), and only
after the regulator reached the higher set point (R449). -/
def execPowerCapStep (dt : Nat) (s : State) : Host.Outcome State Fault Refusal :=
  event dt s fun mode p d =>
    let w := d.pwr
    if ! capped mode p || w.fabNext.isSome then d
    else if (w.overMs > 10 ∨ w.pmbQuiet = true) ∧ w.fab < 2 then
      ((d.armFab (w.fab + 1)).onPwr fun w => { w with overMs := 0 }).countDev 0x242 (w.fab + 1)
    else if w.underMs > 100 ∧ w.pmbQuiet = false ∧ w.fab > 0 ∧ w.warn = false ∧ d.since w.clearT ≥ 100 * ms6 ∧ w.avsFault = false
        ∧ w.avsMv ≥ d.avsFor (w.fab - 1) then
      (d.armFab (w.fab - 1)).onPwr fun w => { w with underMs := 0 }
    else d

/-! ### Reference clocks -/

/-- A reference clock has stayed within ±300 ppm for 1 s (R453), judged from power-good on; offsets are in 0.1 ppm. The
preferred clock of the image is used once it is valid, unless the device has failed over, which does not revert
(R454). -/
def execRefclkValid (dt c : Nat) (off10ppm : Int) (s : State) : Host.Outcome State Fault Refusal :=
  event dt s fun mode _ d =>
    if mode = .shelf ∨ c ≥ 2 ∨ off10ppm.natAbs > 3000 ∨ d.clk.t6 < s6 ∨ d.pwr.valid.getD c false then d
    else d.onPwr fun w => { w with
      valid := w.valid.set c true
      off := w.off.set c off10ppm
      clk := if c = d.setting 4 1 % 2 ∧ w.failovers = 0 then c else w.clk }

/-- Both clocks are lost: the fatal fault REFCLK_BOTH_LOST (R455). -/
def Dev.bothLost (d : Dev) : Dev :=
  (({ d with ctl := { d.ctl with bothLost := true } }).onPwr fun w => { w with valid := [false, false] }).sendFault
    12 d.pwr.clk 2 2 0x3F 0

/-- A reference clock is lost (R454): if it was in use the device fails over to the other, when that one is valid, and
otherwise has lost both (R453). -/
def execRefclkLost (dt c : Nat) (s : State) : Host.Outcome State Fault Refusal :=
  event dt s fun mode _ d =>
    if mode = .shelf ∨ c ≥ 2 ∨ d.ctl.bothLost then d
    else
      let d := d.onPwr fun w => { w with valid := w.valid.set c false }
      if d.pwr.clk ≠ c then d.sendFault 12 c 1 0 0x3F 0
      else if d.pwr.valid.getD (1 - c) false then
        ((d.onPwr fun w => { w with
          clk := 1 - c, failovers := (w.failovers + 1) % 2 ^ 32, failT := some d.clk.t6 }).countDev 0x240 (1 - c)).sendFault
          12 c 1 0 0x3F 0
      else d.bothLost

/-- Both reference clocks are lost (R455). -/
def execRefclkBothLost (dt : Nat) (s : State) : Host.Outcome State Fault Refusal :=
  event dt s fun mode _ d => if mode = .shelf || d.ctl.bothLost then d else d.bothLost

/-- In Cold Boot a clock passes the start test and Cold Boot runs on it: after the loss of both (R455), and while no clock is valid
(R453). -/
def execRefclkStartTestPass (dt c : Nat) (s : State) : Host.Outcome State Fault Refusal :=
  event dt s fun mode _ d =>
    if mode = .coldBoot && (d.ctl.bothLost || ! d.pwr.valid.any id) && decide (c < 2) then
      { d with ctl := { d.ctl with bothLost := false }, pwr := { d.pwr with clk := c } }
    else d

/-! ### Temperatures -/

/-- The warning threshold of a sensor in °C: 0–15 die, 16–17 stacks (R512). -/
def warnAt (i : Nat) : Int := if i < 16 then 100 else 95

/-- Since when a condition on a sensor's readings has held. -/
def heldSince (now : Nat) (was : List (Option Nat)) (i : Nat) (holds : Bool) : Option Nat :=
  if holds then some ((was.getD i none).getD now) else none

/-- Each 100 µs the 16 die sensors and the two stacks are read, in °C (R511). -/
def execThermalSample (dt : Nat) (temps : List Int) (s : State) : Host.Outcome State Fault Refusal :=
  event dt s fun mode _ d =>
    if mode = .shelf then d
    else d.onPwr fun w => { w with
      temps := temps.take 18
      hot6 := (List.range 18).map fun i => heldSince d.clk.t6 w.hot6 i (decide (temps.getD i 0 ≥ warnAt i))
      hot110 := (List.range 16).map fun i => heldSince d.clk.t6 w.hot110 i (decide (temps.getD i 0 ≥ 110))
      cool6 := heldSince d.clk.t6 [w.cool6] 0 ((List.range 18).all fun i => decide (temps.getD i 0 ≤ warnAt i - 3))
      coldT := heldSince d.clk.t6 [w.coldT] 0 ((List.range 18).all fun i => decide (temps.getD i 0 < 95)) }

/-- A sensor at its threshold for 1 ms raises the warning (R512). In Run-Power-Capped it moves the fabric one state slower
at the next commit epoch. -/
def execThermalWarning (dt sensor : Nat) (s : State) : Host.Outcome State Fault Refusal :=
  event dt s fun mode p d =>
    match d.pwr.hot6.getD sensor none with
    | some t =>
      if mode = .shelf || d.pwr.warn || d.since t < ms6 then d
      else
        let d := d.onPwr fun w => { w with warn := true }
        let d := d.countDev 0x250 (256 * sensor + (d.pwr.temps.getD sensor 0).toNat % 256)
        if capped mode p && decide (d.pwr.fab < 2) then (d.armFab (d.pwr.fab + 1)).countDev 0x251 (d.pwr.fab + 1) else d
    | none => d

/-- Every sensor has read at least 3 °C below its threshold for 1 ms: the warning clears (R512). -/
def execThermalWarningClear (dt : Nat) (s : State) : Host.Outcome State Fault Refusal :=
  event dt s fun _ _ d =>
    match d.pwr.cool6 with
    | some t =>
      if d.pwr.warn && decide (d.since t ≥ ms6) then d.onPwr fun w => { w with warn := false, clearT := d.clk.t6 } else d
    | none => d

/-- A die sensor at 110 °C for 100 µs: the fatal THERMAL_SHUTDOWN, after whose restart the device stays in Safe until every
sensor has read below 95 °C for 10 s (R513). -/
def execThermalShutdown (dt sensor : Nat) (s : State) : Host.Outcome State Fault Refusal :=
  event dt s fun mode _ d =>
    match d.pwr.hot110.getD sensor none with
    | some t =>
      if mode = .shelf || d.since t < 100 * us6 then d
      else ({ d with ctl := { d.ctl with coolUntil := some d.clk.t6 } } : Dev).sendFault 12 0xFF 3 2 0x3F
        ((d.pwr.temps.getD sensor 0).toNat % 256)
    | none => d

end Sys2Proof.Machine
end

