-- ==== Sys2Proof/Machine/Rules.lean ====
section
/-! DEFINITION. Address rules and port gates (chapter 4): the entry of Table RULE-1 and its checks, the outcome of a
lookup (Table RULE-3), gate windows, the four banks, and the commands of Table RULE-5. Accesses are numbered 0 read,
1 write, 2 atomic, 3 reservation; outcomes 0 pass, 1 Default Map, 2 permission fault, 3 no-match fault, 4 gate
fault. -/

namespace Sys2Proof.Machine

/-! ### Rule entries -/

/-- A 4 KiB page. -/
def pageBytes : Nat := 4096
/-- One GiB. -/
def gib : Nat := 2 ^ 30

/-- Fields of a rule entry, read from its 384 bits (Table RULE-1). -/
def eValid (e : Nat) : Bool := e.testBit 383
/-- 0 Normal, 1 Device. -/
def eRegion (e : Nat) : Nat := bits e 382 380
/-- Latency class code. -/
def eClass (e : Nat) : Nat := bits e 379 377
/-- Early acknowledgement is permitted. -/
def eEarly (e : Nat) : Bool := e.testBit 376
/-- Only privileged requests may use the rule. -/
def ePriv (e : Nat) : Bool := e.testBit 372
/-- The access type is permitted. -/
def ePermits (e acc : Nat) : Bool := e.testBit (368 + acc)
/-- First page covered. -/
def eBase (e : Nat) : Nat := bits e 367 328
/-- Last page covered. -/
def eLimit (e : Nat) : Nat := bits e 327 288
/-- 0 CXL targets, 1 Basin memory, 2 Iggevo link. -/
def eKind (e : Nat) : Nat := bits e 287 284
/-- Interleave ways, as a power of two. -/
def eWays (e : Nat) : Nat := bits e 283 281
/-- Interleave granule code. -/
def eGran (e : Nat) : Nat := bits e 280 278
/-- Target descriptor `k`. -/
def eDesc (e k : Nat) : Nat := bits e (12 * k + 11) (12 * k)

/-- The descriptor that serves an address (R81). -/
def eTarget (e addr : Nat) : Nat := eDesc e (addr / 2 ^ (8 + eGran e) % 2 ^ eWays e)

/-- The bytes of one interleave round, which size and base are multiples of (R81). -/
def eRound (e : Nat) : Nat := 2 ^ eWays e * 256 * 2 ^ eGran e

/-- The Basin memory offset of an address under a kind 0x1 entry (Table RULE-2); base counts as 0 for a Default Map
(R90). -/
def eOffset (e addr : Nat) (dflt : Bool) : Nat :=
  addr - (if dflt then 0 else eBase e * pageBytes) + bits (eTarget e addr) 4 0 * gib

/-- The offset, within the entry, of the first field that R79–R81 refuse, in ascending order; a Default Map (`dflt`)
is not checked for base, limit, size and alignment, nor for early_ack with region Device (R90). -/
def entryBad (e : Nat) (dflt : Bool) : Option Nat :=
  let descs : List (Nat × Bool) := (List.range 16).map fun k =>
    (12 * k / 8, if k ≥ 2 ^ eWays e && eWays e ≤ 4 then eDesc e k == 0
      else if k == 0 && eKind e == 1 then decide (eDesc e 0 ≤ 23)
      else if k == 0 && eKind e == 2 then eDesc e 0 % 16 == 0
      else true)
  let fields : List (Nat × Bool) :=
    if eValid e then
      descs ++
      [(24, bits e 277 192 == 0),
       (34, decide (eGran e ≤ 6) && (eWays e != 0 || eGran e == 0)),
       (35, decide (eWays e ≤ 4) && (eKind e == 0 || eWays e == 0)),
       (35, decide (eKind e ≤ 2)),
       (36, dflt || decide (eBase e ≤ eLimit e)),
       (41, dflt || ((eLimit e + 1 - eBase e) * pageBytes % eRound e == 0 && eBase e * pageBytes % eRound e == 0)),
       (46, bits e 375 373 == 0),
       (47, dflt || ! (eEarly e && eRegion e == 1)),
       (47, [1, 3, 4].contains (eClass e)),
       (47, decide (eRegion e ≤ 1))]
    else
      ((List.range 16).map fun k => (12 * k / 8, eDesc e k == 0)) ++
      [(24, bits e 277 192 == 0), (34, eGran e == 0), (35, eWays e == 0), (35, eKind e == 0), (36, eLimit e == 0),
       (41, eBase e == 0), (46, bits e 375 368 == 0), (47, bits e 382 376 == 0)]
  (fields.find? fun x => ! x.2).map (·.1)

/-! ### Lookup -/

/-- Rule entries of each set of a Reach (R77). -/
def Dev.ruleShare (d : Dev) : Nat := 65536 / max 1 d.nReach

/-- The key of a rule of a Reach. -/
def ruleKey (r i : Nat) : CfgKey := { op := 0x5000, a := r, b := i }

/-- The valid rules of a Reach with their indexes. -/
def Dev.rules (d : Dev) (stg : Bool) (r : Nat) : List (Nat × Nat) :=
  ((d.items stg r fun k => k.op == 0x5000 && k.a == r).map fun x => (x.1.b, leN x.2 0 48)).filter fun x => eValid x.2

/-- An address lies inside a rule's pages (R76, R78). -/
def eCovers (e addr : Nat) : Bool :=
  decide (addr < 2 ^ 52) && decide (eBase e ≤ addr / pageBytes) && decide (addr / pageBytes ≤ eLimit e)

/-- The rule that an address matches. -/
def Dev.ruleAt (d : Dev) (stg : Bool) (r addr : Nat) : Option (Nat × Nat) :=
  (d.rules stg r).find? fun x => eCovers x.2 addr

/-- The Default Map entry of a Reach; without one it is not valid (R90). -/
def Dev.defaultMap (d : Dev) (stg : Bool) (r : Nat) : Nat :=
  leN ((d.view stg r { op := 0x5005, a := r }).getD []) 0 48

/-- The Basin memory of the layout: k0 and k1 in GiB (R140). -/
def Dev.basinK (d : Dev) : Nat × Nat :=
  let b := (d.cfg { op := 0x4080 }).getD []
  (byteAt b 0, byteAt b 1)

/-- The Reach to which a GiB of Basin memory is bound (R142). -/
def Dev.gibOwner (d : Dev) (stg : Bool) (set g : Nat) : Option Nat :=
  match d.view stg set { op := 0x4082, a := g } with
  | some b => if byteAt b 1 = 0xFF then none else some (byteAt b 1)
  | none => none

/-- A Basin memory offset lies in a GiB of the layout that is bound to the Reach. -/
def Dev.offsetOwned (d : Dev) (r off : Nat) : Bool :=
  decide (off / gib < d.basinK.1 + d.basinK.2) && d.gibOwner false 0 (off / gib) == some r

/-- What a lookup answers: the outcome, the rule's index (0xFFFF: none), the target descriptor, and the entry that
decided. -/
structure Look where
  outcome : Nat
  rule    : Nat := 0xFFFF
  desc    : Nat := 0
  entry   : Nat := 0
deriving DecidableEq, Repr

/-- The request or part passes. -/
def Look.passes (k : Look) : Bool := decide (k.outcome ≤ 1)

/-- It passes under the Default Map, or by a rule of region Device (R90, R170). -/
def Look.device (k : Look) : Bool := k.outcome == 1 || eRegion k.entry == 1

/-- The lookup of an address without its gate (Table RULE-3, rows 2 to 5). -/
def Dev.lookup (d : Dev) (stg secure : Bool) (r acc : Nat) (priv : Bool) (addr : Nat) : Look :=
  match d.ruleAt stg r addr with
  | some (i, e) =>
    { outcome := if ePermits e acc && (priv || ! ePriv e) then 0 else 2, rule := i, desc := eTarget e addr, entry := e }
  | none =>
    let e := d.defaultMap stg r
    if decide (d.nReach ≤ 8) && ! secure && priv && eValid e then
      if eKind e == 1 && ! d.offsetOwned r (eOffset e addr true) then { outcome := 2 }
      else { outcome := 1, desc := eTarget e addr, entry := e }
    else { outcome := 3 }

/-! ### Gates -/

/-- Windows of a link (R91): 64 of its tile, shared equally. -/
def Dev.gateShare (d : Dev) (l : Nat) : Nat := 64 / subLinks (d.tileCode (l / 4))

/-- The valid windows of a link: flags, base and limit. -/
def Dev.windows (d : Dev) (stg : Bool) (l : Nat) : List (Nat × Nat × Nat) :=
  ((d.items stg (d.linkSet l) fun k => k.op == 0x5007 && k.a == l).map fun x =>
    (byteAt x.2 3, leN x.2 4 5, leN x.2 9 5)).filter fun w => w.1.testBit 0

/-- The gate setting of a link. -/
def Dev.gateSetting (d : Dev) (stg : Bool) (l : Nat) : Nat :=
  byteAt ((d.view stg (d.linkSet l) { op := 0x5008, a := l }).getD []) 2

/-- An ART bank is out of service, or being replaced (R88, R91). -/
def Dev.bankOut (d : Dev) : Bool := (List.range 4).any fun k => ! d.art.up.getD k true

/-- The gate of a link is in force (R91). -/
def Dev.gateInForce (d : Dev) (p : Profile) (l : Nat) : Bool :=
  d.gateSetting false l == 1 || p.isSecure || d.bankOut

/-- The gate of a link checks requests (R92): forced on by a bank alone, it needs a valid window. -/
def Dev.gateChecks (d : Dev) (p : Profile) (l : Nat) : Bool :=
  d.gateSetting false l == 1 || p.isSecure || (d.bankOut && ! (d.windows false l).isEmpty)

/-- `len` bytes at an address lie wholly inside one window that grants the access (R91). -/
def Dev.gateGrants (d : Dev) (stg : Bool) (l acc addr len : Nat) : Bool :=
  decide (addr + len ≤ 2 ^ 52) && (d.windows stg l).any fun w =>
    w.1.testBit (1 + acc) && decide (w.2.1 * pageBytes ≤ addr) && decide (addr + len ≤ (w.2.2 + 1) * pageBytes)

/-- The outcome of a part of a request from a link (Table RULE-3). -/
def Dev.judge (d : Dev) (p : Profile) (r l acc : Nat) (priv : Bool) (addr len : Nat) : Look :=
  let k := d.lookup false p.isSecure r acc priv addr
  if d.gateChecks p l && ! d.gateGrants false l acc addr len then { k with outcome := 4 } else k

/-! ### Commands -/

/-- A rule command's Reach and index. -/
def ruleIndexAt : List Check :=
  [reachAt 0, rsvd 1 1, need 2 fun c => decide (c.u16 2 < c.d.ruleShare)]

/-- The entry at payload offset 4 is well formed (R79); the failing field is named within the entry. -/
def entryAt (dflt : Bool) : Check := fun c =>
  (entryBad (leN c.f.payload 4 48) dflt).map fun o => invalidRecord o 4

/-- RULE_WRITE (R79, R83). -/
def cmdRuleWrite : Cmd where
  op := 0x5000
  len := 52
  src := Src.operator
  fields := ruleIndexAt ++ [entryAt false]
  state := stageChecks (fun c => c.u8 0) true fun _ => 1
  body := stages (fun c => c.u8 0) fun c => [(ruleKey (c.u8 0) (c.u16 2), some (slice c.f.payload 4 48))]

def execRuleWrite (dt : Nat) (f : Frame) (s : State) : Host.Outcome State Fault Refusal :=
  bilod cmdRuleWrite dt f s

/-- RULE_READ. -/
def cmdRuleRead : Cmd where
  op := 0x5001
  len := 5
  src := Src.watch
  fields := ruleIndexAt ++ [atMost 4 1]
  body := reads fun c => fit 48 ((c.d.view (c.u8 4 == 1) (c.u8 0) (ruleKey (c.u8 0) (c.u16 2))).getD [])

def execRuleRead (dt : Nat) (f : Frame) (s : State) : Host.Outcome State Fault Refusal :=
  bilod cmdRuleRead dt f s

/-- RULE_CLEAR (R83): a range of indexes within the share. -/
def cmdRuleClear : Cmd where
  op := 0x5002
  len := 8
  src := Src.operator
  fields := ruleIndexAt ++ [need 4 fun c => decide (1 ≤ c.u32 4) && decide (c.u16 2 + c.u32 4 ≤ c.d.ruleShare)]
  state := stageChecks (fun c => c.u8 0) true fun _ => 0
  body := stages (fun c => c.u8 0) fun c => (List.range (c.u32 4)).map fun i => (ruleKey (c.u8 0) (c.u16 2 + i), none)

def execRuleClear (dt : Nat) (f : Frame) (s : State) : Host.Outcome State Fault Refusal :=
  bilod cmdRuleClear dt f s

/-- RULESET_STATUS_GET. -/
def cmdRulesetStatusGet : Cmd where
  op := 0x5003
  len := 1
  src := Src.watch
  fields := [reachAt 0]
  body := reads fun c =>
    let r := c.u8 0
    let s := c.d.set r
    nb 1 (b2n (c.d.conf.setB.getD r false)) ++ nb 1 (b2n s.resync + 2 * b2n s.accepted + 4 * b2n c.d.bankOut)
      ++ zeros 2 ++ nb 4 (s.changes.filter fun e => e.1.op == 0x5000).length ++ nb 5 (c.d.conf.flipT.getD r 0)

def execRulesetStatusGet (dt : Nat) (f : Frame) (s : State) : Host.Outcome State Fault Refusal :=
  bilod cmdRulesetStatusGet dt f s

/-- RULE_LOOKUP (Table RULE-5): the outcome of one address, with the gate judged as if in force when bit 2 asks. -/
def cmdRuleLookup : Cmd where
  op := 0x5004
  len := 12
  src := Src.watch
  fields :=
    [reachAt 0, atMost 1 3, rsvdBits 2 7 3,
     need 3 fun c => if (c.u8 2).testBit 2 then c.d.ownsPart (c.u8 0) (c.u8 3) else c.u8 3 == 0]
  body := fun c =>
    let flag (k : Nat) : Bool := (c.u8 2).testBit k
    let k := c.d.lookup (flag 1) c.p.isSecure (c.u8 0) (c.u8 1) (flag 0) (c.u64 4)
    let k := if flag 2 && ! c.d.gateGrants (flag 1) (c.u8 3) (c.u8 1) (c.u64 4) 1 then { k with outcome := 4 } else k
    (c.d, .done (nb 1 k.outcome ++ zeros 1 ++ nb 2 k.rule ++ nb 2 k.desc))

def execRuleLookup (dt : Nat) (f : Frame) (s : State) : Host.Outcome State Fault Refusal :=
  bilod cmdRuleLookup dt f s

/-- DEFAULT_MAP_SET (R90). -/
def cmdDefaultMapSet : Cmd where
  op := 0x5005
  len := 52
  src := Src.operator
  fields := [reachAt 0, rsvd 1 3, entryAt true]
  state := stageChecks (fun c => c.u8 0) true fun _ => 1
  body := stages (fun c => c.u8 0) fun c => [({ op := 0x5005, a := c.u8 0 }, some (slice c.f.payload 4 48))]

def execDefaultMapSet (dt : Nat) (f : Frame) (s : State) : Host.Outcome State Fault Refusal :=
  bilod cmdDefaultMapSet dt f s

/-- DEFAULT_MAP_GET. -/
def cmdDefaultMapGet : Cmd where
  op := 0x5006
  len := 2
  src := Src.watch
  fields := [reachAt 0, atMost 1 1]
  body := reads fun c => fit 48 ((c.d.view (c.u8 1 == 1) (c.u8 0) { op := 0x5005, a := c.u8 0 }).getD [])

def execDefaultMapGet (dt : Nat) (f : Frame) (s : State) : Host.Outcome State Fault Refusal :=
  bilod cmdDefaultMapGet dt f s

/-- The staged set of the link that a command names at offset 0. -/
def Ctx.linkSet0 (c : Ctx) : Nat := c.d.linkSet (c.u16 0)

/-- GATE_WINDOW_SET (R91, R83). -/
def cmdGateWindowSet : Cmd where
  op := 0x5007
  len := 16
  src := Src.operator
  fields :=
    [linkAt 0, need 2 fun c => decide (c.u8 2 < c.d.gateShare (c.u16 0)), rsvdBits 3 7 5,
     need 9 fun c => ! (c.u8 3).testBit 0 || decide (c.u40 4 ≤ c.u40 9), rsvd 14 2]
  state := stageChecks Ctx.linkSet0 true fun _ => 1
  body := stages Ctx.linkSet0 fun c => [({ op := 0x5007, a := c.u16 0, b := c.u8 2 }, some (fit 16 c.f.payload))]

def execGateWindowSet (dt : Nat) (f : Frame) (s : State) : Host.Outcome State Fault Refusal :=
  bilod cmdGateWindowSet dt f s

/-- GATE_MODE_SET (R91, R83). -/
def cmdGateModeSet : Cmd where
  op := 0x5008
  len := 4
  src := Src.operator
  fields := [linkAt 0, atMost 2 1, rsvd 3 1]
  state := stageChecks Ctx.linkSet0 true fun _ => 1
  body := stages Ctx.linkSet0 fun c => [({ op := 0x5008, a := c.u16 0 }, some (fit 4 c.f.payload))]

def execGateModeSet (dt : Nat) (f : Frame) (s : State) : Host.Outcome State Fault Refusal :=
  bilod cmdGateModeSet dt f s

/-- GATE_GET: the window, the setting, and whether the gate is in force. -/
def cmdGateGet : Cmd where
  op := 0x5009
  len := 4
  src := Src.watch
  fields := [linkAt 0, ownLinkAt 0, need 2 fun c => decide (c.u8 2 < c.d.gateShare (c.u16 0)), atMost 3 1]
  body := reads fun c =>
    let stg := c.u8 3 == 1
    let w := c.d.view stg c.linkSet0 { op := 0x5007, a := c.u16 0, b := c.u8 2 }
    w.getD (nb 2 (c.u16 0) ++ nb 1 (c.u8 2) ++ zeros 13)
      ++ nb 1 (c.d.gateSetting stg (c.u16 0)) ++ nb 1 (b2n (c.d.gateInForce c.p (c.u16 0)))

def execGateGet (dt : Nat) (f : Frame) (s : State) : Host.Outcome State Fault Refusal :=
  bilod cmdGateGet dt f s

end Sys2Proof.Machine
end

