-- ==== Sys2Proof/Machine/Calendar.lean ====
section
/-! DEFINITION. What admission is measured against (chapter 3): payload rates (R525), the egress calendars with their
reserved, unreserved and floor cells (R49–R53, R526), bounds, policers and refusal profiles, and the commands of
Table WEIR-7 other than those of paths. -/

namespace Sys2Proof.Machine

/-! ### Payload rates

A rate is held exactly as a multiple of 1/1,131,520 MB/s, of which every figure of R525 is a whole number. -/

/-- The parts of one MB/s in which rates are held: 16 · 65 · 1088. -/
def rateUnit : Nat := 1131520

/-- The payload rate of a CXL link (R525): rate code (Table LANE-1), width in lanes, 256B flit. -/
def cxlRate (code width : Nat) (flit256 : Bool) : Nat :=
  let half := [5, 10, 16, 32, 64, 128, 256].getD code 0
  let enc := if code ≤ 1 then 52 else if code ≤ 4 then 64 else 65
  half * width * 1000 * enc * (if flit256 then 1003 else 1024)

/-- The payload rate of an Iggevo direction by its number of lanes (Table LINK-1). -/
def iggRate (lanes : Nat) : Nat :=
  rateUnit * (match lanes with
    | 8 => 178000 | 4 => 88900 | 2 => 44400 | 1 => 22200 | _ => 0)

/-- Lanes in a mask. -/
def popcount (v : Nat) : Nat := ((List.range 16).filter v.testBit).length

/-- Bytes that a rate carries in a number of nanoseconds. -/
def rateBytes (u ns : Nat) : Nat := u * ns / (rateUnit * 1000)

/-- The current payload rate of a link: 0 while it is not active (R525). -/
def Dev.curRate (d : Dev) (l : Nat) : Nat :=
  if d.isIggevo l then (if (d.igg l).st = .active then iggRate (popcount (d.igg l).txMask) else 0)
  else if (d.port l).up then cxlRate (d.port l).rate (d.port l).width (d.port l).flit256 else 0

/-- The first lane of a link of a tile, and its lanes (Table GLANCE-2). -/
def Dev.laneRange (d : Dev) (l : Nat) : Nat × Nat :=
  let n := lanesPer (d.tileCode (l / 4))
  (l % 4 * n, n)

/-- The configuration of a lane: the payload of LANE_CONFIG_SET that set it. The factory image sets 128 GT/s, common
clocking, the default FFE of Table LANE-3 to the nearest 1/128, and the default err_limit and eye_min of Table
LANE-5. -/
def Dev.laneCfg (d : Dev) (stg : Bool) (t n : Nat) : Bytes :=
  let limits := if d.tileCode t = 3 then nb 2 2048 ++ nb 1 12 else nb 2 16 ++ nb 1 15
  (d.view stg devSet { op := 0x3001, a := t, b := n }).getD
    (nb 1 t ++ nb 1 n ++ nb 1 6 ++ nb 1 0 ++ intBytes 1 0 ++ intBytes 1 (-13) ++ intBytes 1 102 ++ intBytes 1 (-13)
      ++ limits ++ nb 1 0)

/-- The highest rate code that the lanes of a CXL link are configured for (LANE_CONFIG_SET, R253): all run at one rate. -/
def Dev.maxRate (d : Dev) (l : Nat) : Nat :=
  ((List.range (d.laneRange l).2).map fun i => byteAt (d.laneCfg false (l / 4) ((d.laneRange l).1 + i)) 2).foldl min 6

/-- The configured payload rate of a link (R525). -/
def Dev.confRate (d : Dev) (l : Nat) : Nat :=
  if d.isIggevo l then iggRate 8 else cxlRate (d.maxRate l) (d.laneRange l).2 true

/-- The rate from which an egress link's calendar derives (R525, R216). -/
def Dev.calRate (d : Dev) (l : Nat) : Nat :=
  if d.curRate l = 0 then d.confRate l else d.weir.calU.getD l (d.curRate l)

/-! ### Calendars -/

/-- c, the slot capacity of an egress in cells (R49). -/
def Dev.calC (d : Dev) (e : Nat) : Nat := if e ≥ 0x100 then 32 else rateBytes (d.calRate e) 8 / 64

/-- e, the strict ceiling of a slot. -/
def Dev.calE (d : Dev) (e : Nat) : Nat := 5 * d.calC e / 8

/-- W, the window ceiling. -/
def Dev.calW (d : Dev) (e : Nat) : Nat := 4 * d.calE e

/-- A number names an egress (Table CELL-2): a link, or Basin memory port 0 or 1. -/
def Dev.isEgress (d : Dev) (e : Nat) : Bool := d.isLink e || e == 0x100 || e == 0x101

/-- An egress that more than one Reach reaches (R53). -/
def Dev.sharedEgress (d : Dev) (e : Nat) : Bool := decide (e ≥ 0x100) || d.isIggevo e || d.isMld e

/-- Cells of a reservation of rate and burst (R53). -/
def reserveQ (rate burst : Nat) : Nat := if rate = 0 ∧ burst = 0 then 0 else max (ceilDiv rate 2000) burst

/-- The Reach's reservation at an egress, as committed or as staged. -/
def Dev.resvQ (d : Dev) (stg : Bool) (r e : Nat) : Nat :=
  match d.view stg r { op := 0x6003, a := r, b := e } with
  | some b => reserveQ (leN b 4 4) (leN b 8 2)
  | none => 0

/-- The most that one Reach may reserve at an egress (R53). -/
def Dev.resvCap (d : Dev) (e : Nat) : Nat :=
  if d.sharedEgress e then d.calW e / max 1 d.nReach else d.calW e

/-- The taker of a path's cells at an egress, beside 0–31 for the Reaches, 32 for unreserved cells and 33 for the floor
cell: near paths by handle, far paths by origin and handle. -/
def pathTaker (origin handle : Nat) : Nat := 64 + origin * 2 ^ 32 + handle

/-- The path reservations that hold cells at an egress: taker, Reach, q, start phase, and whether the cells are active. -/
def Dev.pathsAt (d : Dev) (e : Nat) : List (Nat × Nat × Nat × Nat × Bool) :=
  ((d.weir.paths.filter fun x => decide (x.2.egress = e)).map fun x =>
      (pathTaker 0 x.1, x.2.reach, x.2.q, x.2.phase, x.2.active && ! x.2.suspended)) ++
  ((d.brg.paths.filter fun x => decide (x.2.egress = e)).map fun x =>
      (pathTaker x.1.1 x.1.2, x.2.reach, x.2.q, x.2.phase, x.2.active && ! x.2.suspended))

/-- Cells that every Reach but `r` and every path holds at an egress, active or provisional (R73, Table WEIR-9). -/
def Dev.heldByOthers (d : Dev) (e r : Nat) : Nat :=
  ((List.range d.nReach).map fun x => if x = r then 0 else max (d.resvQ false x e) (d.resvQ true x e)).sum
    + ((d.pathsAt e).map fun p => p.2.2.1).sum

/-- Cells that the paths of a Reach hold at an egress. -/
def Dev.pathQ (d : Dev) (e r : Nat) : Nat := ((d.pathsAt e).map fun p => if p.2.1 = r then p.2.2.1 else 0).sum

/-- The sum of the committed reservations at an egress (Q of R216). -/
def Dev.resvSum (d : Dev) (e : Nat) : Nat :=
  ((List.range d.nReach).map fun x => d.resvQ false x e).sum + ((d.pathsAt e).map fun p => p.2.2.1).sum

/-- A committed q as it acts: on a link whose W fell below the sum, reduced in proportion (R216, R256). -/
def Dev.effective (d : Dev) (e q : Nat) : Nat :=
  let s := d.resvSum e
  if e < 0x100 ∧ s > d.calW e then q * d.calW e / s else q

/-- The phase with the fewest cells, the lowest on a tie (R526). -/
def leastPhase (t : List Nat) : Nat :=
  ((List.range 4).find? fun p => t.all fun v => decide (t.getD p 0 ≤ v)).getD 0

/-- `n` cells placed one at a time, each in the phase with the fewest reserved cells (R526): the totals and the cells placed. -/
def placeCells : Nat → List Nat → List Nat → List Nat × List Nat
  | 0, tot, own => (tot, own)
  | n + 1, tot, own =>
    let p := leastPhase tot
    placeCells n (tot.set p (tot.getD p 0 + 1)) (own.set p (own.getD p 0 + 1))

/-- `n` cells of a path whose pattern starts at phase `s` (R64, R247). -/
def pathCells (n s : Nat) : List Nat := (List.range 4).map fun p => ((List.range n).filter fun j => decide ((s + j) % 4 = p)).length

/-- Reserved cells of an egress by taker and phase (R526): the paths hold the phases of their patterns, and each Reach's
reservation is placed among the rest in ascending Reach (assumption 17). -/
def Dev.pattern (d : Dev) (e : Nat) : List (Nat × List Nat) :=
  let paths := (d.pathsAt e).map fun p => (p.1, pathCells (d.effective e p.2.2.1) p.2.2.2.1)
  let tot := paths.foldl (fun t p => (List.range 4).map fun i => t.getD i 0 + p.2.getD i 0) [0, 0, 0, 0]
  ((List.range d.nReach).foldl (fun (acc : List Nat × List (Nat × List Nat)) r =>
    let (t, own) := placeCells (d.effective e (d.resvQ false r e)) acc.1 [0, 0, 0, 0]
    (t, acc.2 ++ [(r, own)])) (tot, paths)).2

/-- The link is stalled: its calendar offers no cells (R138, R51). -/
def Dev.stalled (d : Dev) (l : Nat) : Bool :=
  d.egr.stall.contains l || (d.isIggevo l && (d.igg l).st != .active && (d.igg l).resume)

/-- Cells of a taker still free in an absolute slot of an egress (R49, R51). -/
def Dev.calFree (d : Dev) (pat : List (Nat × List Nat)) (e slot taker : Nat) : Nat :=
  let ph := slot % 4
  let own := match taker with
    | 33 => if ph = 0 then 1 else 0
    | 32 => d.calE e - (pat.map fun x => x.2.getD ph 0).sum
    | t => match pat.find? fun x => decide (x.1 = t) with
      | some x => x.2.getD ph 0
      | none => 0
  own - d.weir.cal.getD (e, slot, taker) 0

/-- Cells are taken for one message of `n` cells at an egress, from the takers in their order, each from the earliest slot of
the horizon that starts at `s0` (R51, R526); `none` when the order cannot supply them all. -/
def Dev.calPick (d : Dev) (e s0 n : Nat) (takers : List Nat) : Option (List (Nat × Nat × Nat)) :=
  let pat := d.pattern e
  let (left, plan) := (takers.flatMap fun t => (List.range 4).map fun i => (t, s0 + i)).foldl
    (fun (acc : Nat × List (Nat × Nat × Nat)) x =>
      let k := min acc.1 (d.calFree pat e x.2 x.1)
      (acc.1 - k, if k = 0 then acc.2 else acc.2 ++ [(x.2, x.1, k)])) (n, [])
  if left = 0 then some plan else none

/-- The first slot of the horizon: the one that contains t_admit + 24 ns, with the 2 ns guard band of R226 for a message
received on an Iggevo link (R51). -/
def Dev.slot0 (d : Dev) (link : Nat) : Nat := (d.now + 24 + (if d.isIggevo link then 2 else 0)) / 8

/-- A plan's cells are charged; slots of the past are dropped from the record. -/
def Dev.calCharge (d : Dev) (e : Nat) (plan : List (Nat × Nat × Nat)) : Dev :=
  d.onWeir fun w => { w with
    cal := plan.foldl (fun c x => c.upd (e, x.1, x.2.1) 0 (· + x.2.2))
      (w.cal.filter fun x => decide (x.1.2.1 + 8 ≥ d.now / 8)) }

/-- A message of `n` cells charges an egress; a stalled egress offers none (R51). -/
def Dev.calTake (d : Dev) (e link n : Nat) (takers : List Nat) : Option Dev :=
  if d.stalled e then none else (d.calPick e (d.slot0 link) n takers).map (d.calCharge e)

/-! ### Bounds -/

/-- The bound of a class in a profile, store and forward (Table MODE-4, R524); with a plane lost, the Expedited bound rises
by 11 ns in Degraded and Service (Table MODE-5, R121). Datagram has none. -/
def Dev.bound (d : Dev) (m : Mode) (p : Profile) (cls : Nat) : Nat :=
  let rise := if (m == .degraded || m == .service) && d.fab.planes.any (! ·) then 11 else 0
  match p, cls with
  | .throughput, 3 => 700 | .throughput, 4 => 12000
  | .secure, 3 => 380 | .secure, 4 => 6000
  | .powerCapped, 3 => 500 | .powerCapped, 4 => 10000
  | _, 3 => 350 | _, 4 => 6000 | _, 5 => 0
  | .secure, _ => 140 + rise | .powerCapped, _ => 150 + rise | _, _ => 120 + rise

/-- Δ of R114: the store-and-forward Expedited bound less the cut-through bound. -/
def cutDelta : Profile → Nat
  | .secure | .powerCapped => 0
  | _ => 25

/-! ### Policers and profiles -/

/-- The contract that polices a class of a Reach on a link: its per-port entry, else that for every link (R57). -/
def Dev.contract (d : Dev) (r cls l : Nat) : Option Bytes :=
  match d.cfg { op := 0x6000, a := r, b := cls, c := l } with
  | some b => some b
  | none => d.cfg { op := 0x6000, a := r, b := cls, c := 0xFFFF }

/-- The bucket pair of a policer, refilled to now (R54): rates in MB/s add bytes × 6000 per sixth of a nanosecond; a
policer starts full. -/
def Dev.bucketNow (d : Dev) (r cls l : Nat) (k : Bytes) : Bucket :=
  let cbs : Int := (leN k 8 4 * 6000 : Nat)
  let pbs : Int := (leN k 16 4 * 6000 : Nat)
  match d.weir.bucket.get? (r, cls, l) with
  | some b =>
    let dt := d.since b.t6
    { c := min cbs (b.c + (leN k 4 4 * dt : Nat)), p := min pbs (b.p + (leN k 12 4 * dt : Nat)), t6 := d.clk.t6 }
  | none => { c := cbs, p := pbs, t6 := d.clk.t6 }

/-- The colour (0 green, 1 yellow, 2 red) that a policer gives `cells` cells, never better than an arriving colour when it is
colour-aware (R54, R55); without a contract, green (R527). -/
def Dev.mark (d : Dev) (r cls l cells : Nat) (arr : Option Nat) : Nat :=
  match d.contract r cls l with
  | none => 0
  | some k =>
    let b := d.bucketNow r cls l k
    let need : Int := (cells * 64 * 6000 : Nat)
    let c := if b.p < need then 2 else if b.c < need then 1 else 0
    if (byteAt k 23).testBit 0 then max c (arr.getD 0) else c

/-- Tokens are debited by the colour of admission: both buckets for green, the peak bucket for yellow, none for red (R54). -/
def Dev.debit (d : Dev) (r cls l cells colour : Nat) : Dev :=
  match d.contract r cls l with
  | none => d
  | some k =>
    let b := d.bucketNow r cls l k
    let n : Int := (cells * 64 * 6000 : Nat)
    let b' : Bucket := { b with c := if colour = 0 then b.c - n else b.c, p := if colour ≤ 1 then b.p - n else b.p }
    d.onWeir fun w => { w with bucket := w.bucket.set (r, cls, l) b' }

/-- A refusal profile of a Reach: min_th, max_th, max_p (Table WEIR-3). -/
def Dev.refusal (d : Dev) (stg : Bool) (r i : Nat) : Nat × Nat × Nat :=
  match d.view stg r { op := 0x6004, a := r, b := i } with
  | some b => (byteAt b 2, byteAt b 3, byteAt b 4)
  | none => match i with
    | 0 => (224, 255, 63) | 1 => (128, 224, 127) | 2 => (32, 160, 255) | _ => (255, 255, 0)

/-- The profile that judges a colour of a class on a link: the one the contract names, else the profile of that colour
(R60, R527). -/
def Dev.profileOf (d : Dev) (r cls l colour : Nat) : Nat × Nat × Nat :=
  match d.contract r cls l with
  | some k => d.refusal false r (byteAt k (20 + colour))
  | none => d.refusal false r colour

/-- floor(p × 65,536) for a pressure index (R60). -/
def refuseBelow (f : Nat × Nat × Nat) (pr : Nat) : Nat :=
  if pr ≥ f.2.1 then 65536 else if pr < f.1 then 0
  else (f.2.2 + 1) * (pr - f.1) * 65536 / (256 * (f.2.1 - f.1))

/-- One step of the 16-bit Fibonacci LFSR with x^16 + x^14 + x^13 + x^11 + 1 (R60). -/
def lfsrStep (v : Nat) : Nat :=
  let b := (v ^^^ (v >>> 2) ^^^ (v >>> 3) ^^^ (v >>> 5)) % 2
  (v >>> 1) ||| (b * 32768)

/-- Sixteen steps: one draw. -/
def lfsrDraw (v : Nat) : Nat := (List.range 16).foldl (fun v _ => lfsrStep v) v

/-- A refusal draw of a tile (R60): the message is refused when the drawn state lies below floor(p × 65,536). -/
def Dev.refuseDraw (d : Dev) (tile : Nat) (f : Nat × Nat × Nat) (pr : Nat) : Bool × Dev :=
  let v := lfsrDraw (d.weir.lfsr.getD tile 1)
  (decide (v < refuseBelow f pr), d.onWeir fun w => { w with lfsr := w.lfsr.set tile v })

/-! ### Commands -/

/-- Reach, class and link of a contract command (Table WEIR-8). -/
def contractIndex : List Check :=
  [reachAt 0, need 1 fun c => [1, 3, 4].contains (c.u8 1), need 2 fun c => c.d.isLink (c.u16 2) || c.u16 2 == 0xFFFF]

/-- The key of the contract that a command names. -/
def Ctx.contractKey (c : Ctx) : CfgKey := { op := 0x6000, a := c.u8 0, b := c.u8 1, c := c.u16 2 }

/-- The ingress links of a Reach: the CXL links that it owns. -/
def Dev.linksOf (d : Dev) (r : Nat) : List Nat := d.links.filter fun l => d.ownsPart r l

/-- Policers in use by a set of contracts: one for each ingress link of a contract for every link, and one more for each
per-port entry (R57). -/
def Dev.policers (d : Dev) (stg : Bool) (r : Nat) : Nat :=
  ((d.items stg r fun k => k.op == 0x6000 && k.a == r).map fun x =>
    if x.1.c = 0xFFFF then (d.linksOf r).length else 1).sum

/-- A burst of 64 B to a maximum, in multiples of 64 B. -/
def burstOk (v max_ : Nat) : Bool := decide (64 ≤ v) && decide (v ≤ max_) && v % 64 == 0

/-- The highest peak rate that a contract may name, in MB/s (R58). -/
def Ctx.pirMax (c : Ctx) : Nat :=
  if c.u16 2 = 0xFFFF then
    ((c.d.linksOf (c.u8 0)).map fun l => c.d.confRate l / rateUnit).foldl min (2 ^ 32)
  else c.d.confRate (c.u16 2) / rateUnit

/-- CONTRACT_SET (R57, R58, Table WEIR-8). -/
def cmdContractSet : Cmd where
  op := 0x6000
  len := 28
  src := Src.operator
  fields := contractIndex ++
    [need 8 fun c => burstOk (c.u32 8) (2 ^ 24),
     need 12 fun c => decide (c.u32 4 ≤ c.u32 12) && decide (c.u32 12 ≤ c.pirMax),
     need 16 fun c => burstOk (c.u32 16) (2 ^ 24),
     atMost 20 7, atMost 21 7, atMost 22 7, rsvdBits 23 7 1, rsvd 24 4]
  state := require .shareExceeded (fun c =>
      let r := c.u8 0
      let now := c.d.policers true r - (match c.d.staged r c.contractKey with
        | some _ => if c.u16 2 = 0xFFFF then (c.d.linksOf r).length else 1
        | none => 0)
      decide (now + (if c.u16 2 = 0xFFFF then (c.d.linksOf r).length else 1) ≤ 4096 / max 1 c.d.nReach))
    :: stageChecks (fun c => c.u8 0) false fun _ => 1
  body := stages (fun c => c.u8 0) fun c => [(c.contractKey, some (fit 28 c.f.payload))]

def execContractSet (dt : Nat) (f : Frame) (s : State) : Host.Outcome State Fault Refusal :=
  bilod cmdContractSet dt f s

/-- CONTRACT_GET. -/
def cmdContractGet : Cmd where
  op := 0x6001
  len := 5
  src := Src.watch
  fields := contractIndex ++ [atMost 4 1]
  body := reads fun c =>
    (c.d.view (c.u8 4 == 1) (c.u8 0) c.contractKey).getD (fit 4 c.f.payload ++ zeros 24)

def execContractGet (dt : Nat) (f : Frame) (s : State) : Host.Outcome State Fault Refusal :=
  bilod cmdContractGet dt f s

/-- CONTRACT_CLEAR: the policer is released at the commit. -/
def cmdContractClear : Cmd where
  op := 0x6002
  len := 4
  src := Src.operator
  fields := contractIndex
  state := stageChecks (fun c => c.u8 0) false fun _ => 1
  body := stages (fun c => c.u8 0) fun c => [(c.contractKey, none)]

def execContractClear (dt : Nat) (f : Frame) (s : State) : Host.Outcome State Fault Refusal :=
  bilod cmdContractClear dt f s

/-- The refusal of a q by the limits of Table WEIR-9, in their order. -/
def resvLimits (e r q : Ctx → Nat) : List Check :=
  [fun c => if q c ≠ 0 ∧ c.d.calE (e c) = 0 then some (.contractInfeasible, zeros 4) else none,
   fun c => if q c + c.d.pathQ (e c) (r c) > c.d.resvCap (e c) then some (plain .shareExceeded) else none,
   fun c => if q c ≠ 0 ∧ q c + c.d.heldByOthers (e c) (r c) > c.d.calW (e c) then some (.contractInfeasible, zeros 4) else none]

/-- The q that EXPEDITED_RESERVE asks for. -/
def Ctx.resvAsk (c : Ctx) : Nat := reserveQ (c.u32 4) (c.u16 8)

/-- EXPEDITED_RESERVE (R53, R73, Table WEIR-9): the staged reservation holds its cells provisionally. -/
def cmdExpeditedReserve : Cmd where
  op := 0x6003
  len := 12
  src := Src.operator
  fields := [reachAt 0, rsvd 1 1, need 2 fun c => c.d.isEgress (c.u16 2),
    need 8 fun c => c.u16 8 != 0 || c.u32 4 == 0, rsvd 10 2]
  state := resvLimits (fun c => c.u16 2) (fun c => c.u8 0) Ctx.resvAsk ++ stageChecks (fun c => c.u8 0) false fun _ => 1
  body := fun c =>
    let e := c.u16 2
    let d := c.d.stage (c.u8 0) [({ op := 0x6003, a := c.u8 0, b := e }, some (fit 12 c.f.payload))]
    let held := max (d.resvQ false (c.u8 0) e) (d.resvQ true (c.u8 0) e) + d.heldByOthers e (c.u8 0)
    (d, .done (nb 2 c.resvAsk ++ nb 2 (d.calW e) ++ nb 2 (d.calW e - held)))

def execExpeditedReserve (dt : Nat) (f : Frame) (s : State) : Host.Outcome State Fault Refusal :=
  bilod cmdExpeditedReserve dt f s

/-- PROFILE_SET (R60, Table WEIR-7). -/
def cmdProfileSet : Cmd where
  op := 0x6004
  len := 8
  src := Src.operator
  fields := [reachAt 0, atMost 1 7,
    need 2 fun c => decide (c.u8 2 < c.u8 3) || (c.u8 2 == 255 && c.u8 3 == 255), rsvd 5 3]
  state := stageChecks (fun c => c.u8 0) false fun _ => 1
  body := stages (fun c => c.u8 0) fun c => [({ op := 0x6004, a := c.u8 0, b := c.u8 1 }, some (fit 8 c.f.payload))]

def execProfileSet (dt : Nat) (f : Frame) (s : State) : Host.Outcome State Fault Refusal :=
  bilod cmdProfileSet dt f s

/-- PROFILE_GET: the profile in force. -/
def cmdProfileGet : Cmd where
  op := 0x6005
  len := 2
  src := Src.watch
  fields := [reachAt 0, atMost 1 7]
  body := reads fun c =>
    let (lo, hi, mp) := c.d.refusal false (c.u8 0) (c.u8 1)
    nb 1 (c.u8 0) ++ nb 1 (c.u8 1) ++ nb 1 lo ++ nb 1 hi ++ nb 1 mp

def execProfileGet (dt : Nat) (f : Frame) (s : State) : Host.Outcome State Fault Refusal :=
  bilod cmdProfileGet dt f s

/-- The Reach map of an Iggevo link: the far Reach of a near Reach (R231); the factory image maps none. -/
def Dev.farReach (d : Dev) (l r : Nat) : Option Nat :=
  match d.cfg { op := 0x7020, a := l } with
  | some b => if byteAt b (12 + r) = 0xFF then none else some (byteAt b (12 + r))
  | none => none

/-- The response timeout of an Iggevo link (R241) in sixths of a nanosecond; reset value 200 µs. -/
def Dev.brgLimit (d : Dev) (l : Nat) : Nat :=
  us6 * (match d.cfg { op := 0x7020, a := l } with
    | some b => leN b 4 4
    | none => 200)

/-- The discard time of an Iggevo link (R243); reset value 2,000 µs. -/
def Dev.discardTime (d : Dev) (l : Nat) : Nat :=
  us6 * (match d.cfg { op := 0x7020, a := l } with
    | some b => leN b 8 4
    | none => 2000)

/-- A Basin memory port serves a Reach: some GiB of it is bound to the Reach. -/
def Dev.portServes (d : Dev) (b r : Nat) : Bool :=
  let (k0, k1) := d.basinK
  (List.range (k0 + k1)).any fun g => decide ((if g < k0 then 0 else 1) = b) && d.gibOwner false 0 g == some r

/-- The Reach reaches the egress (CALENDAR_GET, Table WEIR-7). -/
def Dev.reachesEgress (d : Dev) (r e : Nat) : Bool :=
  if e ≥ 0x100 then d.portServes (e - 0x100) r
  else if d.isIggevo e then (d.farReach e r).isSome else d.ownsPart r e

/-- CALENDAR_GET: c, W, cells unreserved and the q of each Reach as they act; a Reach mailbox sees its own q. -/
def cmdCalendarGet : Cmd where
  op := 0x6008
  len := 4
  src := Src.watch
  fields := [need 0 fun c => c.d.isEgress (c.u16 0),
    (fun c => match c.f.mbx with
      | .reach r => if c.d.reachesEgress r (c.u16 0) then none else some (plain .accessDenied)
      | _ => none),
    rsvd 2 2]
  body := reads fun c =>
    let e := c.u16 0
    let q (r : Nat) : Nat := if r < c.d.nReach then
      ((c.d.pattern e).map fun x => if x.1 = r then x.2.sum else 0).sum else 0
    let all := ((c.d.pattern e).map fun x => x.2.sum).sum
    let shown (r : Nat) : Nat := match c.f.mbx with
      | .reach o => if o = r then q r else 0
      | _ => q r
    nb 2 (c.d.calC e) ++ nb 2 (c.d.calW e) ++ nb 2 (c.d.calW e - all)
      ++ ((List.range 32).map fun r => nb 2 (shown r)).flatten

def execCalendarGet (dt : Nat) (f : Frame) (s : State) : Host.Outcome State Fault Refusal :=
  bilod cmdCalendarGet dt f s

/-- WEIR_STATUS_GET: the counters of Table WEIR-6 in table order, of the Reach where an event has one. -/
def cmdWeirStatusGet : Cmd where
  op := 0x6009
  len := 2
  src := Src.watch
  fields := [atMost 0 63, reachAt 1]
  body := reads fun c =>
    ([0x000, 0x010, 0x020, 0x030, 0x031, 0x108, 0x109, 0x10A].map fun sel =>
      nb 8 (if selReach sel then c.d.tele.rtally.getD (c.u8 0, sel, c.u8 1) 0 else c.d.tally (c.u8 0) sel)).flatten

def execWeirStatusGet (dt : Nat) (f : Frame) (s : State) : Host.Outcome State Fault Refusal :=
  bilod cmdWeirStatusGet dt f s

end Sys2Proof.Machine
end

