-- ==== Sys2Proof/Machine/Traffic.lean ====
section
/-! DEFINITION. Messages and transactions (chapters 1, 3, 5, 8 and 10): classes, queues and sequence spaces, tracker
entries and shares, responses that the device generates (R69), how a failed request ends (Tables RULE-4 and
BRIDGE-4), the slots of a bridge message, and the cells of an admitted message. A completion status is that of Table
BRIDGE-3: 0 success, 1 and 2 Unsupported Request, 3 to 6 Completer Abort. -/

namespace Sys2Proof.Machine

/-! ### Classes and queues -/

/-- The strict classes Control, Expedited and Coherence (Table WEIR-1). -/
def strictCls (c : Nat) : Bool := decide (c ≤ 2)

/-- The egress queue of a message (R41, R151). -/
def queueOf (cls : Nat) (rsp : Bool) : Nat :=
  match cls with
  | 0 => 0 | 1 => 1 | 2 => 2 | 3 => if rsp then 3 else 4 | 4 => if rsp then 5 else 6 | _ => 7

/-- The sequence space of a class (R107); demoted Expedited messages have class Standard by then. -/
def spaceOf (cls : Nat) : SeqSpace :=
  if cls ≤ 2 then .pinned else match cls with
    | 3 => .standard | 4 => .bulk | _ => .datagram

/-- The destination (tile 0–63, or 64 and 65 for the Basin memory ports) of a link or port (Table CELL-7). -/
def destOf (e : Nat) : Nat := if e ≥ 0x100 then 64 + e % 2 else e / 4

/-- The source of a sequence space: the link or port of a pinned cell, the tile or port of a sprayed one (R107). -/
def spaceSrc (sp : SeqSpace) (src : Nat) : Nat :=
  match sp with
  | .pinned => src
  | _ => if src ≥ 0x100 then src else src / 4

/-- Posted: a CXL.io memory write has no completion. -/
def postedReq (kind : Nat) (acc : Acc) : Bool := kind == 7 && acc == .write

/-- A message that keeps its tracker entry until an answer arrives: CXL.mem requests, BISnp, non-posted CXL.io requests,
and every bridged request (R235, R244). -/
def awaits (kind : Nat) (acc : Acc) (dstIggevo : Bool) : Bool :=
  dstIggevo || kind == 0 || kind == 1 || kind == 4 || (kind == 7 && (acc != .none && acc != .write && acc != .unlock))
  || (kind == 8 && acc != .none)

/-- Bytes of a CXL header in a message's cells: the manual packs the header and the data into the payload and gives the
header no size (assumption 18). -/
def headerBytes : Nat := 16

/-- Cells of a message of `n` data bytes: toward an Iggevo link the slots of its bridge message (R232), else its header
and data in cells of 64 bytes (R104). -/
def cellCount (bridge : Bool) (n : Nat) : Nat :=
  if bridge then 1 + ceilDiv n 64 else max 1 (ceilDiv (headerBytes + n) 64)

/-- Data bytes that a request carries to its target. -/
def reqData (acc : Acc) (len : Nat) (data : Bytes) : Bytes :=
  match acc with
  | .write => fit len data
  | .atomic _ _ => data
  | _ => []

/-! ### Tracker -/

/-- The tracker entries of a Reach, of the strict classes or not (R50). -/
def Dev.trkUsed (d : Dev) (r : Nat) (strict : Bool) : Nat :=
  (d.weir.trk.filter fun e => decide (e.2.reach = r) && e.2.strict == strict).length

/-- The tracker share of a Reach (R50). -/
def Dev.trkShare (d : Dev) : Nat := 65536 / max 1 d.nReach

/-- `n` entries are available to a class (R50): one eighth of the share is kept for the strict classes. -/
def Dev.trkFree (d : Dev) (r cls n : Nat) : Bool :=
  let s := d.trkUsed r true
  let o := d.trkUsed r false
  if strictCls cls then decide (s + o + n ≤ d.trkShare)
  else decide (o + max s (d.trkShare / 8) + n ≤ d.trkShare)

/-- The lowest free tracker index. -/
def Dev.freeTrk (d : Dev) : Nat :=
  let n := d.weir.trk.length
  ((List.range (n + 1)).find? fun i => (d.weir.trk.get? i).isNone).getD n

/-- The device with one tracker entry changed. -/
def Dev.onTrk (d : Dev) (i : Nat) (f : Trk → Trk) : Dev :=
  d.onWeir fun w => { w with trk := w.trk.map fun e => if e.1 = i then (e.1, f e.2) else e }

/-- A tracker entry is freed. -/
def Dev.dropTrk (d : Dev) (i : Nat) : Dev := d.onWeir fun w => { w with trk := w.trk.erase i }

/-- The transaction of a tracker entry has ended: the entry is freed, or stays as an orphan of a bridged request, whose tag
no new transaction may take before its answer or the discard time (R243). -/
def Dev.endTrk (d : Dev) (i : Nat) : Dev :=
  match d.weir.trk.get? i with
  | some t => if t.orphan.isSome ∧ d.isIggevo t.dst then d.onTrk i fun t => { t with done := true, performed := true, rspOut := false }
    else d.dropTrk i
  | none => d

/-- Bytes whose value the manual leaves open. -/
def Dev.drawBytes (d : Dev) (n : Nat) : Bytes × Dev :=
  ((List.range n).map fun i => BitVec.ofNat 8 (Sys2Proof.Config.freeWord (d.free + i)).toNat, { d with free := d.free + n })

/-! ### Responses and endings -/

/-- The kind of the message that answers a local request (Table CELL-3). -/
def rspKind (kind : Nat) (acc : Acc) : Nat :=
  match kind with
  | 0 => if acc == .read then 3 else 2
  | 1 => 2
  | 4 => 5
  | k => k

/-- A response that the device generates for a tracker entry (R69): it takes the entry and class of the request that it
answers, and its t_in is now. Toward a far initiator it is a bridge message (R239). -/
def Dev.genRsp (d : Dev) (src i : Nat) (t : Trk) (status : Nat) (data : Bytes) (poison early : Bool) : Dev :=
  let base : Msg := {
    id := 0, link := src, kind := rspKind t.kind t.acc, cls := t.cls, reach := t.reach, init := t.init, acc := t.acc
    rsp := some i, forGrp := if early then 0 else t.grp, addr := t.addr, len := data.length, data := data
    status := status, poison := poison, early := early, coh := t.coh, queued := true
    tIn := d.now, tP := d.now }
  match t.init, t.far with
  | .far _ _, some h => d.enqueue { base with kind := 8, dst := some (.link h.link 0), far := some h }
  | .link l, _ => d.enqueue { base with dst := some (.link l t.ld) }
  | _, _ => d

/-- The entry's initiator can be sent a response: a host link that is up, or an Iggevo link of the generation that asked
(R239), where no reset of its Reach cut it off (R243). -/
def Dev.canReceive (d : Dev) (t : Trk) : Bool :=
  ! t.cut && match t.init, t.far with
  | .link l, _ => (d.port l).up && ! (d.port l).fenced
  | .far _ _, some h => (d.igg h.link).gen == h.gen && (d.igg h.link).st != .down
  | .mpc, _ => true
  | _, _ => false

/-- The record of an error of a posted write at its ingress VCS port: Unsupported Request or Completer Abort (Tables
RULE-4 and BRIDGE-4; AER bits 20 and 15, PRESUMED of PCIe Base 7.0). -/
def Dev.postedError (d : Dev) (l status : Nat) : Dev := d.aerSet l (if status ≤ 2 then 20 else 15)

/-- A request that failed ends toward its initiator (Tables RULE-4 and BRIDGE-4). The response leaves from `src`. -/
def Dev.failTo (d : Dev) (src i : Nat) (t : Trk) (status : Nat) : Dev :=
  match t.init with
  | .far _ _ => d.genRsp src i t status [] false false
  | .mpc => d.endTrk i
  | .link l =>
    if t.kind = 0 ∧ t.acc = .read then
      let (b, d) := d.drawBytes t.len
      d.genRsp src i t 0 b true false
    else if t.kind ≤ 1 then d.genRsp src i t 0 [] false false
    else if t.kind = 4 then d.genRsp src i { t with coh := 0 } 0 [] false false
    else if postedReq t.kind t.acc then (d.postedError l status).endTrk i
    else if t.kind = 7 then d.genRsp src i t status [] false false
    else d.endTrk i

/-- Queue lines free in FIFO order within a link's part: from the oldest, while their writes are performed (R177). -/
def Ord.freeLines (o : Ord) (l : Nat) : Ord :=
  let mine := o.ea.filter fun e => decide (e.link = l)
  let kept := mine.dropWhile (·.done)
  { o with ea := o.ea.filter fun e => decide (e.link ≠ l) || kept.contains e }

/-- The write of a message is performed or lost: its queue lines are done (R177). -/
def Dev.lineDone (d : Dev) (msg : Nat) : Dev :=
  let ls := (d.ord.ea.filter fun e => decide (e.trk = msg)).map (·.link)
  d.onOrd fun o => ls.foldl (fun o l => o.freeLines l)
    { o with ea := o.ea.map fun e => if e.trk = msg then { e with done := true } else e }

/-- EARLY_ACK_WRITE_LOST (R179): an acknowledged write failed. -/
def Dev.earlyLost (d : Dev) (t : Trk) : Dev :=
  let l := match t.init with
    | .link l => l
    | .far _ _ => (t.far.map (·.link)).getD 0
    | .mpc => 0
  let d := (d.lineDone t.msg).onOrd fun o => { o with
    lost := o.lost.upd t.init 0 (· + 1) }
  let d := match t.init with
    | .link l => if (d.port l).role = 1 then d.aerSet l 22 else d
    | _ => d
  (d.count 0x080 (l / 4) t.reach l).sendFault 4 (l / 4) 1 1 t.reach t.addr

/-- The entry of a request has its answer (R94, R95, R240): a request of several parts is answered once, when every part
is, with its data in address order, or with one error for the whole if any part failed. An early-acknowledged write
was answered at its admission (R176); one that a flush has already treated as lost (R183) is not lost again. -/
def Dev.answered (d : Dev) (src i status : Nat) (data : Bytes) (poison : Bool) : Dev :=
  match d.weir.trk.get? i with
  | none => d
  | some t =>
    if t.early then
      let d := if status ≠ 0 ∧ ! t.faulted then d.earlyLost t else d
      d.endTrk i
    else
      let d := d.onTrk i fun t => { t with done := true, performed := true, status := status, buf := data, poison := poison }
      let mates := d.weir.trk.filter fun e => decide (e.2.grp = t.grp) && e.2.parts == t.parts
      if mates.any fun e => ! e.2.done then d
      else
        let bad := (mates.find? fun e => decide (e.2.status ≠ 0)).map (·.2.status)
        let bad := if t.faulted then some t.faultSt else bad
        let d := mates.foldl (fun d e => if e.1 = i then d else d.endTrk e.1) d
        let d := d.onTrk i fun t => { t with rspOut := true }
        let sorted := sortBy (fun a b => decide (a.2.addr ≤ b.2.addr)) mates
        match bad with
        | some st => d.failTo src i t st
        | none =>
          if postedReq t.kind t.acc && (match t.init with
              | .far _ _ => false
              | _ => true) then d.endTrk i
          else
            let lead := (sorted.head?.map (·.2)).getD t
            d.genRsp src i { t with addr := lead.addr } 0 (sorted.flatMap (·.2.buf)) (mates.any (·.2.poison)) false

/-- PARTIAL_DELIVERY (R118): a copy of a multicast is undeliverable; its response is that of an absent sharer. -/
def Dev.partial_ (d : Dev) (i member : Nat) : Dev :=
  match d.weir.trk.get? i with
  | some t =>
    if t.left.contains member then
      let d := d.onTrk i fun t => { t with left := t.left.filter (fun x => decide (x ≠ member)), lost := t.lost ++ [member] }
      (d.count 0x052 (destOf member % 64) t.reach t.reach).sendFault 2 (t.src % 256 / 4) 5 1 t.reach (member + 512 * i)
    else d
  | none => d

/-- The transaction of a message that cannot be delivered ends toward its initiator: a copy of a multicast by R118, an
early-acknowledged write by R179, any other as a failed access of the same kind; a response that is lost ends its
request the same way (R110). -/
def Dev.endMsg (d : Dev) (m : Msg) (src status : Nat) : Dev :=
  match m.trk, m.rsp with
  | some i, _ =>
    match d.weir.trk.get? i with
    | some t =>
      if t.grp ≠ m.grp then d
      else if t.group.isSome then
        match m.dst with
        | some (.link e _) => d.partial_ i e
        | _ => d
      else d.answered src i status [] false
    | none => d
  | none, some i =>
    match d.weir.trk.get? i with
    | some t => if t.grp = m.forGrp ∧ m.early = false then d.failTo src i t status else d
    | none => d
  | none, none => d

/-! ### Bridge messages -/

/-- The header of a bridge message (Table BRIDGE-1). -/
structure BHead where
  op     : Nat
  flags  : Nat := 0
  cls    : Nat
  reach  : Nat
  tag    : Nat := 0
  gen    : Nat := 0
  status : Nat := 0
  addr   : Nat := 0
  len    : Nat := 1
  be     : Nat := 0xFF
  aop    : Nat := 0
  origId : Nat := 0
  origLk : Nat := 0
  handle : Nat := 0
  lost   : Nat := 0
deriving DecidableEq, Repr

/-- The 64 bytes of a bridge header. -/
def BHead.bytes (h : BHead) : Bytes :=
  nb 1 h.op ++ nb 1 h.flags ++ nb 1 h.cls ++ nb 1 h.reach ++ nb 2 h.tag ++ nb 1 h.gen ++ nb 1 h.status ++ nb 8 h.addr
    ++ nb 2 h.len ++ nb 1 h.be ++ nb 1 h.aop ++ nb 4 h.origId ++ nb 1 h.origLk ++ nb 1 0 ++ nb 4 h.handle ++ nb 4 h.lost
    ++ zeros 30

/-- The header that 64 bytes spell. -/
def BHead.of (b : Bytes) : BHead :=
  { op := byteAt b 0, flags := byteAt b 1, cls := byteAt b 2, reach := byteAt b 3, tag := leN b 4 2, gen := byteAt b 6
    status := byteAt b 7, addr := leN b 8 8, len := leN b 16 2, be := byteAt b 18, aop := byteAt b 19
    origId := leN b 20 4, origLk := byteAt b 24, handle := leN b 26 4, lost := leN b 30 4 }

/-- The operation of a request and of its successful answer (Table BRIDGE-2). -/
def brgOp (kind : Nat) : Acc → Nat
  | .read => 1 | .write => 2 | .atomic _ _ => 3 | .lockRead => 4 | .unlock => 5 | .flush => 6
  | .none => if kind = 4 ∨ kind = 8 then 7 else 0

/-- The answer's operation: ERR (0x17) for a failure. -/
def brgAnswer (kind : Nat) (acc : Acc) (status : Nat) : Nat := if status ≠ 0 then 0x17 else brgOp kind acc + 0xF

/-- The AtomicOp byte: type, and size code by the operand's bytes. -/
def aopByte : Acc → Nat
  | .atomic a n => a + 4 * (if n = 16 then 2 else if n = 8 then 1 else 0)
  | _ => 0

/-- The slots of the bridge message that carries a message toward an Iggevo link (R232). -/
def Dev.bridgeSlots (d : Dev) (m : Msg) (l : Nat) : List Bytes :=
  let colour := 16 * m.colour
  let path := match m.path with
    | some (_, h) => h
    | none => 0
  let (oid, olk) := match m.init with
    | .link x => (d.switchId, x)
    | .mpc => (d.switchId, 0)
    | .far i x => (i, x)
  let h : BHead :=
    if m.rsp.isSome then
      let (tag, gen) := match m.far with
        | some f => (f.tag, f.gen)
        | none => (0, 0)
      { op := brgAnswer m.kind m.acc m.status, flags := 4 * b2n m.poison + colour + 64 * b2n (m.early || (m.acc == Acc.write && m.coh == 1)), cls := m.cls
        reach := m.reach, tag := tag, gen := gen, status := m.status, addr := m.addr, len := max 1 m.data.length
        be := m.be, aop := aopByte m.acc, origId := oid, origLk := olk, lost := m.coh * b2n (m.acc == Acc.flush) }
    else
      { op := brgOp m.kind m.acc, flags := b2n m.eaOk + 2 * b2n m.priv + 4 * b2n m.poison + 8 * b2n m.path.isSome + colour
        cls := m.cls, reach := (d.farReach l m.reach).getD 0, tag := m.trk.getD 0, gen := (d.igg l).gen
        addr := m.addr, be := m.be, aop := aopByte m.acc, origId := oid, origLk := olk, handle := path
        len := match m.acc with
          | .atomic _ _ => m.data.length
          | _ => max 1 m.len }
  let body := if m.rsp.isSome then m.data else reqData m.acc m.len m.data
  h.bytes :: (List.range (ceilDiv body.length 64)).map fun k => slice body (64 * k) 64

/-! ### Cells -/

/-- pin(src, dst) (R105). -/
def pinPos (src dst m : Nat) : Nat :=
  let x := src * 512 + dst
  let y := x * 0x9E5 % 2 ^ 18
  let k := (y ^^^ (y / 512)) % 512
  k * m / 512

/-- The tile at a position of the pattern (R100): the tiles in service in ascending number. -/
def tileAt (inSvc : List Nat) (pos : Nat) : Nat :=
  (ascending inSvc).getD pos 0

/-- The position of a tile in the pattern. -/
def posOf (inSvc : List Nat) (t : Nat) : Nat := (inSvc.filter fun x => decide (x < t)).length

/-- The planes that carry transfers: with a plane lost, in the one-plane states of Run-Power-Capped (R36, R120), or with one
tile in service (R100), only one. -/
def Dev.planesUsed (d : Dev) : List Nat :=
  let up := [0, 1].filter fun p => d.fab.planes.getD p true
  if d.pwr.fab ≥ 1 || decide (d.fab.inSvc.length ≤ 1) then up.take 1 else up

/-- The next number of a sequence space is taken. -/
def Dev.takeSeq (d : Dev) (k : SpaceKey) : Nat × Dev :=
  (d.fab.seqNext.getD k 0, d.onFab fun f => { f with seqNext := f.seqNext.upd k 0 (· + 1) })

/-- The sequence space of a cell. -/
def Cell.space (c : Cell) : SpaceKey :=
  { src := spaceSrc (spaceOf c.cls) c.src, dst := c.dst, sp := spaceOf c.cls, par := c.epoch }

/-- The cells of a message toward a link or port (R104, Table CELL-1): header fields, and the payload of each. `ct` as R114
sets it. Their planes follow R108: one for all cells of a sprayed message, alternating between messages of an input,
or, in Run-Throughput, between cells. -/
def Dev.formCells (d : Dev) (p : Profile) (m : Msg) (dst : Nat) (ct : Bool) : List Cell × Dev :=
  let bridge := d.isIggevo dst
  let body := if m.rsp.isSome then m.data else reqData m.acc m.len m.data
  let chunks := if bridge then d.bridgeSlots m dst
    else
      let all := zeros headerBytes ++ body
      (List.range (cellCount false body.length)).map fun k => (all.drop (64 * k)).take 64
  let n := chunks.length
  let tile := destOf m.link
  let a := d.fab.alt.getD tile false
  let cells := chunks.zipIdx.map fun (b, k) =>
    ({ id := d.fab.nextId + k, msg := m.id, dst := dst, src := m.link, cls := m.cls, reach := m.reach
       plane := if p == .throughput then (b2n a + k) % 2 else b2n a
       pin := strictCls m.cls, mcast := m.mcast, colour := m.colour, dl := m.dl
       trk := (m.trk.getD (m.rsp.getD 0)), kind := if bridge then 8 else m.kind, sop := k == 0, eop := k + 1 == n
       len := b.length % 64, ct := ct, q := queueOf m.cls m.rsp.isSome, data := b, loc := .lost
       ord := d.fab.nextOrd + k, elig := d.clk.cyc } : Cell)
  (cells, d.onFab fun f => { f with
    nextId := f.nextId + n, nextOrd := f.nextOrd + n
    alt := if strictCls m.cls then f.alt
      else f.alt.set tile (if p == .throughput then (b2n a + n) % 2 == 1 else ! a) })

/-- The cells enter the fabric (R99, R106, R119): at a tile, the input FIFO of their intermediate or the sprayed FIFO; from
a Basin memory port, stage 2 at the intermediate of pin(src, dst), or for sprayed cells at position n mod M, with
their numbers taken. -/
def Dev.placeCells (d : Dev) (cells : List Cell) : Dev :=
  let sv := d.fab.inSvc
  let m := sv.length
  cells.foldl (fun d c =>
    if c.src ≥ 0x100 then
      let c := { c with epoch := d.fab.parity, numbered := true }
      let (s, d) := d.takeSeq c.space
      let pos := if c.pin then pinPos c.src c.dst m else d.clk.cyc % max 1 m
      d.onFab fun f => { f with cells := f.cells ++ [{ c with seq := s, loc := .inter (tileAt sv pos) }] }
    else
      let pinned := if c.pin then some (tileAt sv (pinPos c.src c.dst m)) else none
      d.onFab fun f => { f with cells := f.cells ++ [{ c with loc := .input (c.src / 4) pinned }] }) d

/-- The cells of a message. -/
def Dev.cellsOf (d : Dev) (msg : Nat) : List Cell := d.fab.cells.filter fun c => decide (c.msg = msg)

/-- The first number at or after `n` that was not declared missing. -/
def skipGone (gone : List (SpaceKey × Nat)) (k : SpaceKey) : Nat → Nat → Nat
  | 0, n => n
  | f + 1, n => if gone.contains (k, n) then skipGone gone k f (n + 1) else n

/-- The next number that a space releases. -/
def Dev.relNext (d : Dev) (k : SpaceKey) : Nat := d.fab.relNext.getD k 0

/-- Release of a space resumes at `n`, past numbers declared missing (R110). -/
def Dev.advance (d : Dev) (k : SpaceKey) (n : Nat) : Dev :=
  let m := skipGone d.fab.gone k d.fab.gone.length n
  d.onFab fun f => { f with
    relNext := f.relNext.set k m
    gone := f.gone.filter fun x => ! (decide (x.1 = k) && decide (x.2 < m))
    holds := f.holds.filter fun x => ! (decide (x.1 = k) && decide (x.2 < m)) }

/-- Every cell of a message is gone; numbers of it not yet released count as released. -/
def Dev.dropCells (d : Dev) (msg : Nat) : Dev :=
  let mine := (d.cellsOf msg).filter fun c => decide (c.kind ≠ 0xB)
  let nums := (mine.filter fun c => c.numbered && decide (c.seq ≥ d.relNext c.space)).map fun c => (c.space, c.seq)
  let d := (d.onFab fun f => { f with cells := f.cells.filter (fun c => decide (c.msg ≠ msg)), gone := f.gone ++ nums }).onWeir fun w =>
    { w with fly := w.fly.erase msg }
  (nums.map (·.1)).eraseDups.foldl (fun d k => d.advance k (d.relNext k)) d

/-! ### Space in the central cell buffer -/

/-- Cells that lie in queue `q` of an egress link. -/
def Dev.inQueue (d : Dev) (l q : Nat) : Nat :=
  (d.fab.cells.filter fun c => decide (c.dst = l) && c.loc == .egress q).length

/-- The default threshold of a queue (Table BASIN-2). -/
def Dev.defaultT (d : Dev) (l q : Nat) : Nat :=
  let ns := if q ≤ 4 then 128 else if q ≤ 6 then 1500 else 256
  max 64 (min 65536 (rateBytes (d.confRate l) ns / 64))

/-- The threshold T of a queue (R132). -/
def Dev.queueT (d : Dev) (stg : Bool) (l q : Nat) : Nat :=
  match d.view stg (d.linkSet l) { op := 0x4085, a := l, b := q } with
  | some b => leN b 4 4
  | none => d.defaultT l q

/-- T_eff (R133). -/
def Dev.queueTeff (d : Dev) (p : Profile) (l q : Nat) : Nat :=
  if p == .throughput then d.queueT false l q / 2 else d.queueT false l q

/-- Slots in use in a tile's strict reserve: Q0–Q2 of its links (Table BASIN-1). -/
def Dev.strictUse (d : Dev) (t : Nat) : Nat :=
  (d.fab.cells.filter fun c => decide (c.dst / 4 = t) && (match c.loc with
    | .egress q => decide (q ≤ 2)
    | _ => false)).length

/-- Slots in use in a tile's pinned reserve: its pinned FIFOs as input and as intermediate. -/
def Dev.pinnedUse (d : Dev) (t : Nat) : Nat :=
  (d.fab.cells.filter fun c => c.pin && (match c.loc with
    | .input x _ => decide (x = t)
    | .inter x => decide (x = t)
    | .flight _ _ x _ => decide (x = t)
    | _ => false)).length

/-- Slots in use in the egress pool: Q3–Q7 of every link up to each queue's threshold. -/
def Dev.egressUse (d : Dev) : Nat :=
  (d.links.map fun l => ((List.range 5).map fun k => min (d.inQueue l (k + 3)) (d.queueT false l (k + 3))).sum).sum

/-- Slots in use in the transit pool: sprayed cells between input and Lock chamber, those at a Basin memory port, and queue
cells above their threshold. -/
def Dev.transitUse (d : Dev) : Nat :=
  (d.fab.cells.filter fun c => match c.loc with
    | .input _ _ | .inter _ | .flight _ _ _ _ => ! c.pin
    | .aside _ | .lock | .port => true
    | _ => false).length
  + (d.links.map fun l => ((List.range 5).map fun k => d.inQueue l (k + 3) - d.queueT false l (k + 3)).sum).sum

/-- The part of the buffer that a message's cells enter has room for them (R130, R131). -/
def Dev.room (d : Dev) (link cls n : Nat) : Bool :=
  if strictCls cls && decide (link < 0x100) then decide (d.pinnedUse (link / 4) + n ≤ 2048)
  else decide (d.transitUse + n ≤ 524288)

end Sys2Proof.Machine
end

