-- ==== Sys2Proof/Machine/Ends.lean ====
section
/-! DEFINITION. What ends work in progress (chapters 3, 4, 8, 10 and 12): reservation monitors and their losses, Fabric
Flushes, locks across the bridge, the loss of a CXL link, and the loss of an ART bank. -/

namespace Sys2Proof.Machine

/-! ### Reservation monitors -/

/-- The granule of a Reach in bytes (R187). -/
def Dev.granule (d : Dev) (r : Nat) : Nat := 256 * 2 ^ byteAt ((d.cfg { op := 0x0F03, a := r }).getD []) 1

/-- An initiator's status record is changed (Table ORDER-6). -/
def Dev.onSrec (d : Dev) (i : Init) (f : Srec → Srec) : Dev :=
  d.onOrd fun o => { o with srec := o.srec.upd i {} f }

/-- The tile at which a reservation event of a target is counted: that of the egress link, or, for a Basin memory port,
that of the initiator's link. -/
def monTile (m : Mon) : Nat :=
  if m.dst < 0x100 then m.dst / 4 else match m.init with
    | .link l => l / 4
    | .far _ l => l / 4
    | .mpc => 0

/-- A reservation is lost for a cause of Table ORDER-5 (R190). -/
def Dev.loseMon (d : Dev) (m : Mon) (cause : Nat) : Dev :=
  let d := d.onOrd fun o => { o with
    mons := o.mons.filter (fun x => decide (x ≠ m))
    losses := o.losses.upd (m.reach, cause) 0 (· + 1) }
  (d.onSrec m.init fun r => { r with cause := cause }).count 0x113 (monTile m) m.reach cause

/-- Every reservation for which `p` holds is lost. -/
def Dev.loseMons (d : Dev) (p : Mon → Bool) (cause : Nat) : Dev :=
  (d.ord.mons.filter p).foldl (fun d m => d.loseMon m cause) d

/-- `len` bytes at `off` touch a monitor's granule. -/
def Mon.touches (m : Mon) (dst off len : Nat) : Bool :=
  decide (m.dst = dst) && decide (off < m.gran + m.size) && decide (m.gran < off + len)

/-- A write departs at a target (R190): reservations of other initiators are lost with cause 0x01, the writer's own with
cause 0x06. -/
def Dev.monWrite (d : Dev) (i : Init) (dst off len : Nat) : Dev :=
  let d := d.loseMons (fun m => m.touches dst off len && decide (m.init ≠ i)) 1
  d.loseMons (fun m => m.touches dst off len && decide (m.init = i)) 6

/-- The oldest of a list of monitors. -/
def oldest (l : List Mon) : Option Mon := l.foldl (fun o m => match o with
  | some x => if m.t6 < x.t6 then some m else o
  | none => some m) none

/-- A reserved load is performed (R188): it sets a monitor for its granule or restarts that one's age; an initiator's 17th
pair evicts its oldest, and a full share evicts the Reach's oldest. -/
def Dev.monSet (d : Dev) (i : Init) (r dst off : Nat) : Dev :=
  let g := d.granule r
  let m : Mon := { init := i, gran := off / g * g, size := g, reach := r, t6 := d.clk.t6, dst := dst }
  let mine (x : Mon) : Bool := decide (x.init = i) && decide (x.dst = dst) && decide (x.gran = m.gran)
  if d.ord.mons.any mine then
    d.onOrd fun o => { o with mons := o.mons.map fun x => if mine x then m else x }
  else
    let own := d.ord.mons.filter fun x => decide (x.init = i)
    let all := d.ord.mons.filter fun x => decide (x.reach = r)
    let out := if own.length ≥ 16 then oldest own
      else if all.length ≥ 16384 / max 1 d.nReach then oldest all else none
    let d := match out with
      | some x => d.loseMon x 2
      | none => d
    d.onOrd fun o => { o with mons := o.mons ++ [m] }

/-- A conditional store is checked where it departs (R189): it succeeds while its initiator holds a monitor younger than
100,000 ns on its granule; either way that monitor is released, and the outcome is recorded. -/
def Dev.monStore (d : Dev) (i : Init) (r dst off : Nat) : Bool × Dev :=
  let g := d.granule r
  let mine (x : Mon) : Bool := decide (x.init = i) && decide (x.dst = dst) && decide (x.gran = off / g * g)
  let ok := d.ord.mons.any fun x => mine x && decide (d.since x.t6 < 600000)
  let d := d.onOrd fun o => { o with mons := o.mons.filter fun x => ! mine x }
  let d := d.onSrec i fun s => { s with outcome := if ok then 1 else 2, time := d.now }
  let l := match i with
    | .link l => l
    | .far _ l => l
    | .mpc => 0
  (ok, if ok then d else d.count 0x114 (l / 4) 0x3F l)

/-! ### Fabric Flush -/

/-- An entry is a write or AtomicOp. -/
def Trk.writes (t : Trk) : Bool :=
  match t.acc with
  | .write | .atomic _ _ => true
  | _ => false

/-- An entry keeps a flush of its initiator waiting (R170, R181): a write or AtomicOp until it has its target's answer, any other
access until it is performed. -/
def Trk.open_ (t : Trk) : Bool := t.acc != .none && (if t.writes then ! t.done else ! t.performed)

/-- The accesses of an initiator that a flush waits for, by message id, and its queue lines (R181). `own` is the flush's own
entry. -/
def Dev.flushWaits (d : Dev) (i : Init) (own : Option Nat) : List Nat :=
  ((d.weir.trk.filter fun e => decide (e.2.init = i) && decide (some e.1 ≠ own) && e.2.open_).map (·.2.msg))
    ++ ((d.ord.ea.filter fun e => decide (e.init = i)).map (·.trk))

/-- The origin switch id and link of an initiator (R230). -/
def Dev.origin (d : Dev) : Init → Nat × Nat
  | .link l => (d.switchId, l)
  | .far i l => (i, l)
  | .mpc => (d.switchId, 0)

/-- The bridge hands a message of its own to an Iggevo egress. -/
def Dev.brgSend (d : Dev) (l : Nat) (b : Bytes) : Dev := d.onBrg fun x => { x with out := x.out ++ [(l, b)] }

/-- A tracker entry is taken at the lowest free index. -/
def Dev.addTrk (d : Dev) (t : Trk) : Nat × Dev :=
  (d.freeTrk, d.onWeir fun w => { w with trk := w.trk.set d.freeTrk t })

/-- A message of the bridge that takes a tracker entry and is answered: UNLOCK or FLUSH (R238, R245). -/
def Dev.brgAsk (d : Dev) (l r : Nat) (i : Init) (acc : Acc) (grp : Nat) : Nat × Dev :=
  let (oid, olk) := d.origin i
  let (k, d) := d.addTrk {
    grp := grp, reach := r, cls := 3, strict := false, init := .mpc, src := olk, dst := l, kind := 8, acc := acc
    addr := 0, len := 1, msg := 0, t6 := d.clk.t6, gen := (d.igg l).gen, limit := d.brgLimit l }
  let h : BHead := { op := brgOp 8 acc, cls := 3, reach := (d.farReach l r).getD 0, tag := k, gen := (d.igg l).gen, origId := oid, origLk := olk }
  (k, d.brgSend l h.bytes)

/-- A Fabric Flush of an initiator begins (R181, R238): FLUSH goes out on every Iggevo link on which writes of the initiator
have been acknowledged early since its last flush. -/
def Dev.startFlush (d : Dev) (fl : Flush) : Dev :=
  let id := d.ord.nextF
  let fars := d.brg.ea.filter fun e => decide (e.1.1 = fl.init) && decide (e.2 > 0)
  let d := fars.foldl (fun d e => (d.brgAsk e.1.2 fl.reach fl.init .flush id).2) d
  let d := d.onBrg fun x => { x with ea := x.ea.filter fun e => decide (e.1.1 ≠ fl.init) }
  d.onOrd fun o => { o with
    nextF := id + 1
    flush := o.flush ++ [{ fl with id := id, t6 := d.clk.t6, waits := d.flushWaits fl.init fl.host, far := fars.map fun e => (e.1.2, e.2) }] }

/-- The conditions of R181 hold for a flush. -/
def Dev.flushReady (d : Dev) (fl : Flush) : Bool :=
  fl.far.isEmpty
  && ! (d.weir.trk.any fun e => fl.waits.contains e.2.msg && decide (some e.1 ≠ fl.host) && e.2.open_ && decide (e.2.init = fl.init))
  && ! (d.ord.ea.any fun e => fl.waits.contains e.trk && decide (e.init = fl.init))

/-- A flush of the management processor has ended: FABRIC_FLUSH completes when the last flush of its scope has (R182). -/
def Dev.flushLong (d : Dev) (k : Mbx × Nat) (lost : Nat) : Dev :=
  let (n, sum) := d.ord.flushed.getD k (1, 0)
  if n ≤ 1 then (d.onOrd fun o => { o with flushed := o.flushed.erase k }).finLong k .success (nb 4 (sum + lost))
  else d.onOrd fun o => { o with flushed := o.flushed.set k (n - 1, sum + lost) }

/-- A flush completes with the status that the lost-write count gives, and the count is cleared (R182, R238). -/
def Dev.endFlush (d : Dev) (fl : Flush) : Dev :=
  let lost := d.ord.lost.getD fl.init 0 + fl.sum
  let d := d.onOrd fun o => { o with
    flush := o.flush.filter (fun x => decide (x.id ≠ fl.id)), lost := o.lost.erase fl.init }
  let d := d.onWeir fun w => { w with
    trk := w.trk.filter fun e => ! (e.2.acc == .flush && e.2.kind == 8 && decide (e.2.grp = fl.id) && e.2.init == .mpc) }
  let d := match fl.long with
    | some k => d.flushLong k lost
    | none => d
  match fl.host with
  | some i =>
    match d.weir.trk.get? i with
    | some t =>
      if fl.long.isSome then d.dropTrk i
      else
        let d := d.onTrk i fun t => { t with done := true, performed := true, rspOut := true }
        match fl.hdr with
        | some _ => d.genRsp t.src i { t with coh := lost } 0 [] false false
        | none => d.genRsp t.src i t (if lost = 0 then 0 else 3) [] false false
    | none => d
  | none => d

/-! ### Locks (R245, R246) -/

/-- The open bridged requests of the owner of a near lock toward its link. -/
def Dev.lockedWork (d : Dev) (r : Nat) (k : NearLock) : List (Nat × Trk) :=
  d.weir.trk.filter fun e =>
    decide (e.2.reach = r) && decide (e.2.init = .link k.owner) && decide (e.2.dst = k.link) && ! e.2.done

/-- Steps 2 to 6 of R246, once no LOCK_DATA is in flight: UNLOCK goes out, the owner's pending requests complete with
Completer Abort and their entries are orphaned, the fault and LOCK_FORCED follow, and the entry reads broken. -/
def Dev.finishRelease (d : Dev) (r : Nat) : Dev :=
  match d.brg.near.get? r with
  | some k =>
    let flying : Bool := match d.weir.trk.get? k.trk with
      | some t => t.acc == .lockRead && ! t.done
      | none => false
    if k.st ≠ .releasing ∨ flying then d
    else
      let (_, d) := d.brgAsk k.link r (.link k.owner) .unlock 0
      let d := (d.lockedWork r k).foldl (fun d e =>
        (d.onTrk e.1 fun t => { t with orphan := some d.clk.t6 }).answered k.link e.1 6 [] false) d
      let d := d.onBrg fun x => { x with near := x.near.set r { k with st := .broken, long := none } }
      let d := (d.sendFault 6 (k.link / 4) 0x20 1 r (k.owner + 256 * k.cause)).count 0x0B2 (k.link / 4) r r
      d.finLong? k.long .success []
  | none => d

/-- A near lock is released by force (R246), for a cause of Table FAULT-4. -/
def Dev.forceLock (d : Dev) (r cause : Nat) (long : Option (Mbx × Nat)) : Dev :=
  match d.brg.near.get? r with
  | some k =>
    if k.st ≠ .held then d
    else
      let k := { k with st := .releasing, cause := cause, long := long }
      (d.onBrg fun x => { x with near := x.near.set r k }).finishRelease r
  | none => d

/-! ### Loss of a link -/

/-- Copies of multicasts toward members of which `q` holds are undeliverable (R118). -/
def Dev.copiesLost (d : Dev) (q : Nat → Bool) : Dev :=
  d.weir.trk.foldl (fun d e => (e.2.left.filter q).foldl (fun d l => d.partial_ e.1 l) d) d


/-- A CXL link goes down or its stream fails (R296, R303, R118, R190, R243, R246): entries that wait on it end as Table
BRIDGE-4 gives for a link that went down; its initiator's reservations, lock and open entries end; messages toward it are
discarded. -/
def Dev.linkLost (d : Dev) (l : Nat) : Dev :=
  let d := d.loseMons (fun m => decide (m.init = .link l) || decide (m.dst = l)) 5
  let d := (d.brg.near.filter fun e => decide (e.2.owner = l)).foldl (fun d e => d.forceLock e.1 1 none) d
  let waiting := d.weir.trk.filter fun e => ! e.2.done && e.2.orphan.isNone && (decide (e.2.dst = l) || e.2.left.contains l)
  let d := d.onWeir fun w => { w with trk := w.trk.filter fun e => ! (e.2.orphan.isSome && decide (e.2.dst = l)) }
  let d := waiting.foldl (fun d e =>
    if e.2.group.isSome then d.partial_ e.1 l
    else if e.2.early && e.2.performed then d.endTrk e.1
    else d.answered l e.1 5 [] false) d
  let d := d.onWeir fun w => { w with
    trk := w.trk.map fun e =>
      if e.2.init = .link l ∧ e.2.orphan.isNone ∧ ! e.2.rspOut then (e.1, { e.2 with orphan := some d.clk.t6 }) else e }
  let gone := d.weir.fly.filter fun e => match e.2.dst with
    | some (.link x _) => decide (x = l)
    | _ => false
  gone.foldl (fun d e =>
    let d := match e.2.rsp with
      | some i => d.dropTrk i
      | none => d
    d.dropCells e.1) d

/-! ### Loss of an ART bank -/

/-- An ART bank is taken out of service (R86, R88, R92): a loss of redundancy, fatal with the fourth; every link without a
valid gate window is counted once as GATE_UNCONFIGURED. A bank that a service operation takes out sends no message (R523). -/
def Dev.artOut (d : Dev) (k : Nat) (lost : Bool) : Dev :=
  let d := d.onArt fun a => { a with up := a.up.set k false }
  let d := if lost then d.sendFault 1 k 0x11 0 0x3F 0 else d
  let bare := d.links.filter fun l => (d.windows false l).isEmpty && ! d.weir.gateUnc.contains l
  let d := bare.foldl (fun d l => d.count 0x122 (l / 4) 0x3F l) d
  let d := d.onWeir fun w => { w with gateUnc := w.gateUnc ++ bare }
  if d.art.up.all (! ·) then d.sendFault 1 k 0x13 2 0x3F 0 else d

/-- An ART bank is lost. -/
def Dev.artBankOut (d : Dev) (k : Nat) : Dev := d.artOut k true

end Sys2Proof.Machine
end

