-- ==== Sys2Proof/Machine/Weir.lean ====
section
/-! DEFINITION. The Weir (chapters 3, 4 and 8): routing of arriving messages (Table CXLP-3), the pieces of a request and
their checks (R93), the ordering holds (R170–R173), early acknowledgement and forwarding (R175–R178), and what a request
that fails its checks returns (Table RULE-4). -/

namespace Sys2Proof.Machine

/-! ### Bindings and routing -/

/-- A vPPB's binding: link, LD (0xFF for a single-logical device), the shared flag, and the coherence group. -/
structure Bind where
  link   : Nat
  ld     : Nat
  shared : Bool
  group  : Nat
deriving DecidableEq, Repr

/-- The binding that a VPPB_BIND payload spells (Table CXLP-8). -/
def Bind.of (b : Bytes) : Bind :=
  { link := leN b 4 2, ld := byteAt b 6, shared := (byteAt b 3).testBit 0, group := leN b 8 2 }

/-- The binding of vPPB `k` of VCS `v`. -/
def Dev.binding (d : Dev) (v k : Nat) : Option Bind := (d.cfg { op := 0x4000, a := v, b := k }).map Bind.of

/-- The vPPBs bound to a link or LD, its owner first (R283). -/
def Dev.bindsOf (d : Dev) (l ld : Nat) : List (Nat × Nat × Bind) :=
  let all := d.cxl.order.filterMap fun x => match d.binding x.1 x.2 with
    | some b => if b.link = l ∧ (b.ld = 0xFF ∨ b.ld = ld) then some (x.1, x.2, b) else none
    | none => none
  let mine (x : Nat × Nat × Bind) : Bool := decide (d.cxl.own.get? (l, x.2.2.ld) = some (x.1, x.2.1))
  all.filter mine ++ all.filter (! mine ·)

/-- The VCS to which a link or LD is bound: for a shared LD, its owner's (R283). -/
def Dev.hostOf (d : Dev) (l ld : Nat) : Option Nat := (d.bindsOf l ld).head?.map (·.1)

/-- A dword of configuration space as hosts wrote it, by VCS, function (16 + k for vPPB k) and offset. -/
def Dev.cfgDword (d : Dev) (v fn off : Nat) : Nat := d.cxl.space.getD (v, fn, off) 0

/-- An address lies inside a bridge window of vPPB `k` (memory base and limit, prefetchable base and limit), with its memory
space enabled. -/
def Dev.inWindow (d : Dev) (v k addr : Nat) : Bool :=
  let w (o : Nat) : Nat := d.cfgDword v (16 + k) o
  let mb := bits (w 0x20) 15 4 * 2 ^ 20
  let ml := bits (w 0x20) 31 20 * 2 ^ 20
  let pb := bits (w 0x24) 15 4 * 2 ^ 20 + w 0x28 * 2 ^ 32
  let pl := bits (w 0x24) 31 20 * 2 ^ 20 + w 0x2C * 2 ^ 32
  (w 4).testBit 1 && ((decide (mb ≤ addr) && decide (addr < ml + 2 ^ 20)) || (decide (pb ≤ addr) && decide (addr < pl + 2 ^ 20)))

/-- The link and LD whose vPPB window of a VCS holds an address; only an owner's windows route (R283, R285). -/
def Dev.windowAt (d : Dev) (v addr : Nat) : Option (Nat × Nat) :=
  d.cxl.order.findSome? fun x =>
    if x.1 ≠ v then none
    else match d.binding x.1 x.2 with
      | some b =>
        let ld := if b.ld = 0xFF then 0 else b.ld
        if d.inWindow v x.2 addr ∧ d.hostOf b.link ld = some v then some (b.link, ld) else none
      | none => none

/-- The link and LD bound to a vPPB of a VCS. -/
def Dev.below (d : Dev) (v k : Nat) : Option (Nat × Nat) :=
  (d.binding v k).map fun b => (b.link, if b.ld = 0xFF then 0 else b.ld)

/-- The CXL.cache device with a CacheID in a VCS: CacheIDs follow binding order (R282). -/
def Dev.cacheDev (d : Dev) (v id : Nat) : Option (Nat × Nat) :=
  ((d.cxl.order.filterMap fun x =>
    if x.1 = v then
      match d.below x.1 x.2 with
      | some y => if (d.port y.1).cacheDev then some y else none
      | none => none
    else none)[id]?)

/-- Where a BISnp of an LD goes (R289): its coherence group, as the binding or LD_COHERENCE_SET names it, for a shared LD; its
host otherwise. -/
def Dev.snoopDest (d : Dev) (l ld : Nat) : Option Dest :=
  match (d.bindsOf l ld).head? with
  | some (v, _, b) =>
    let g := match d.cfg { op := 0x4003, a := l, b := b.ld } with
      | some c => leN c 4 2
      | none => b.group
    if b.shared && g != 0xFFFF then some (.group g) else some (.link v 0)
  | none => none

/-- Where an arriving message goes and in which class, when the ART does not route it (Table CXLP-3, R41, R286, R290). -/
inductive Route where
  /-- By address rules. -/
  | art
  /-- To a fixed destination in a class; `window` for a vPPB bridge window. -/
  | fixed (dst : Dest) (cls : Nat) (window : Bool)
  /-- By the tracker entry of the request that it answers. -/
  | answer (i : Nat)
  /-- Nowhere: nothing is bound. -/
  | nowhere
deriving DecidableEq, Repr

/-- A route to a link and LD, if there is one. -/
def Route.ofLink (cls : Nat) (window : Bool) : Option (Nat × Nat) → Route
  | some (l, ld) => .fixed (.link l ld) cls window
  | none => .nowhere

/-- The route of an arriving message. CXL.cache messages travel in the Coherence class and PCIe messages in the Control class
(assumption 20). -/
def Dev.route (d : Dev) (a : Arrival) : Route :=
  let up := (d.port a.link).role == 1
  let host (cls : Nat) : Route := Route.ofLink cls false ((d.hostOf a.link a.ld).map fun v => (v, 0))
  match a.resp with
  | some i => .answer i
  | none =>
    match a.kind with
    | 0 | 1 => if up then .art else .nowhere
    | 2 => if up then .nowhere else host 2
    | 4 => if up then .nowhere else match d.snoopDest a.link a.ld with
      | some x => .fixed x 2 false
      | none => .nowhere
    | 5 => if up then Route.ofLink 2 false (d.below a.link a.cache) else .nowhere
    | 6 => if up then Route.ofLink 2 false (d.cacheDev a.link a.cache) else host 2
    | 9 => if up then Route.ofLink 0 false (d.below a.link a.cache) else host 0
    | 7 =>
      if a.acc == .none || a.acc == .unlock then
        if a.acc == .unlock then .art
        else if up then Route.ofLink 0 false (d.below a.link a.cache) else host 0
      else
        let v := if up then some a.link else d.hostOf a.link a.ld
        match v.bind fun v => d.windowAt v a.addr with
        | some (l, ld) => if up || l != a.link then .fixed (.link l ld) 3 true else .nowhere
        | none =>
          if up then .art
          else if (d.port a.link).devType == 3 && ((d.owner a.link a.ld).bind fun r => d.ruleAt false r a.addr).isSome then .art
          else host 3
    | _ => .nowhere

/-! ### Checks of a request -/

/-- The access number of the checks of Table RULE-3. -/
def accCode : Acc → Nat
  | .write => 1
  | .atomic _ _ => 2
  | _ => 0

/-- What a Reach's alias windows make of an address (R186): the window, the target address, and whether it is the status
page. -/
def Dev.aliasAt (d : Dev) (r addr : Nat) : Option (Nat × Nat × Bool) :=
  (List.range 8).findSome? fun w =>
    match d.cfg { op := 0x0F01, a := r, b := w } with
    | some b =>
      let size := pageBytes * 2 ^ byteAt b 3
      let a := leN b 4 5 * pageBytes
      if ! (byteAt b 2).testBit 0 || decide (addr < a) || decide (addr ≥ a + size + pageBytes) then none
      else some (w, leN b 9 5 * pageBytes + (addr - a), decide (addr ≥ a + size))
    | none => none

/-- One piece of a request: the bytes it covers, what stops it (0 nothing, 1 gate, 2 permission, 3 no match, 4 a target that
was removed or is down, 5 a lost lock), and where it goes. -/
structure Piece where
  addr   : Nat
  len    : Nat
  fault  : Nat := 0
  entry  : Nat := 0
  e      : Nat := 0
  ld     : Nat := 0
  off    : Nat := 0
  device : Bool := false
  resv   : Bool := false
deriving DecidableEq, Repr

/-- A link that can be sent to: a CXL link that is up, or an Iggevo link that is active or retraining, in a tile that was not
removed (R296, assumption 21). -/
def Dev.reachable (d : Dev) (l : Nat) : Bool :=
  ! d.fab.removed.contains (l / 4) &&
  (if d.isIggevo l then (d.igg l).st == .active || (d.igg l).resume else (d.port l).up)

/-- A piece is looked up, gated and routed (Tables RULE-2 and RULE-3, R184, R186, R231). No gate stands before a request of
the management processor: a gate is a link's. -/
def Dev.piece (d : Dev) (p : Profile) (x : Msg) (resv : Bool) (addr len : Nat) : Piece :=
  let k := if x.init = .mpc then d.lookup false p.isSecure x.reach (accCode x.acc) x.priv addr
    else d.judge p x.reach x.link (if resv then 3 else accCode x.acc) x.priv addr len
  let e := k.entry
  let c := Piece.mk addr len
  if ! k.passes then { addr, len, fault := k.outcome % 4 + (if k.outcome = 4 then 1 else 0), entry := e, resv }
  else if resv && (k.outcome == 1 || decide (eKind e > 1) || ! ePermits e (accCode x.acc)) then c 2 e 0 0 0 true true
  else if k.device && (match x.acc with
      | .atomic 2 16 => true
      | _ => false) then c 2 e 0 0 0 true resv
  else match eKind e with
    | 1 =>
      let off := eOffset e addr (k.outcome == 1)
      let b := if off < d.basinK.1 * gib then 0 else 1
      if d.bas.stack.getD b .inService == .lost then c 2 e 0 0 0 k.device resv
      else c 0 e (0x100 + b) 0 off (k.device || resv) resv
    | kind =>
      let l := k.desc / 16
      if kind = 2 ∧ (d.farReach l x.reach).isNone then c 2 e 0 0 0 k.device resv
      else c (if d.reachable l then 0 else 4) e l (if kind = 0 then k.desc % 16 else 0) 0 (k.device || resv) resv

/-- The end of the piece that starts at an address: the next boundary of a rule, a gate window, an interleave granule, a GiB
of a Default Map, or the cut granule of an Iggevo link (R93, R234). -/
def Dev.nextCut (d : Dev) (p : Profile) (x : Msg) (addr : Nat) : Nat :=
  let up (g : Nat) : Nat := (addr / g + 1) * g
  let gran (e : Nat) : List Nat :=
    (if eWays e > 0 then [up (256 * 2 ^ eGran e)] else [])
      ++ (if eKind e = 2 then
            [up (256 * 2 ^ (match d.cfg { op := 0x7020, a := eTarget e addr / 16 } with
              | some b => byteAt b 2
              | none => 3))]
          else [])
  let rule : List Nat := match d.ruleAt false x.reach addr with
    | some (_, e) => ((eLimit e + 1) * pageBytes) :: gran e
    | none =>
      let e := d.defaultMap false x.reach
      ((d.rules false x.reach).map fun y => eBase y.2 * pageBytes).filter (fun b => decide (b > addr))
        ++ (if eValid e then gran e ++ (if eKind e = 1 then [up gib] else []) else [])
  let gates : List Nat := if d.gateChecks p x.link then
      ((d.windows false x.link).flatMap fun w => [w.2.1 * pageBytes, (w.2.2 + 1) * pageBytes]).filter fun b => decide (b > addr)
    else []
  (rule ++ gates).foldl min (addr + 2 ^ 64)

/-- The pieces of a range, at most `fuel` of them. -/
def Dev.split (d : Dev) (p : Profile) (x : Msg) : Nat → Nat → Nat → List Piece
  | 0, _, _ => []
  | fuel + 1, addr, len =>
    if len = 0 then []
    else
      let n := min len (d.nextCut p x addr - addr)
      d.piece p x false addr n :: d.split p x fuel (addr + n) (len - n)

/-- A request that may cover more than one rule (R93). -/
def Msg.splits (x : Msg) : Bool :=
  (x.kind == 7 || x.init == .mpc || x.far.isSome) && (x.acc == .read || x.acc == .write || x.acc == .lockRead)

/-- The pieces of a request that the ART routes. -/
def Dev.pieces (d : Dev) (p : Profile) (x : Msg) : List Piece :=
  match d.aliasAt x.reach x.addr with
  | some (_, t, page) =>
    if page then [{ addr := x.addr, len := x.len, fault := if x.acc == .read then 0 else 2, device := true }]
    else if x.len > 64 ∨ x.len = 0 ∨ x.addr % x.len ≠ 0 ∨ ! (x.acc == .read || x.acc == .write) then
      [{ addr := x.addr, len := x.len, fault := 2, device := true, resv := true }]
    else [d.piece p x true t x.len]
  | none => if x.splits then d.split p x x.len x.addr x.len else [d.piece p x false x.addr (max 1 x.len)]

/-- A target of a message: where it goes, the address and bytes it covers, and the data it carries there. -/
structure Leg where
  e     : Nat
  ld    : Nat := 0
  addr  : Nat
  off   : Nat := 0
  len   : Nat
  data  : Bytes := []
  entry : Nat := 0
deriving DecidableEq, Repr

/-- The members of a multicast group: links and Basin memory ports (Table CELL-6). -/
def Dev.members (d : Dev) (g : Nat) : List Nat :=
  match d.cfg { op := 0x7001, a := g } with
  | some b =>
    if (byteAt b 4).testBit 0 then
      (List.range 256).filter (fun l => (byteAt b (8 + l / 8)).testBit (l % 8))
        ++ (List.range 2).filterMap fun k => if (byteAt b 6).testBit k then some (0x100 + k) else none
    else []
  | none => []

/-- What the checks of a message found: its targets, the pieces that fail, its class, and the properties of the whole. -/
structure Judged where
  targets : List Leg := []
  bad     : List Piece := []
  cls     : Nat
  device  : Bool := false
  resv    : Bool := false
  page    : Bool := false
  group   : Option Nat := none

/-- The target of a piece, with its slice of the request's data. -/
def Piece.target (c : Piece) (x : Msg) : Leg :=
  { e := c.e, ld := c.ld, addr := c.addr, off := c.off, len := c.len, entry := c.entry
    data := match x.acc with
      | .write => if c.resv then x.data else (x.data.drop (c.addr - x.addr)).take c.len
      | .atomic _ _ => x.data
      | _ => [] }

/-- The longest bound among classes Expedited, Standard and Bulk is that of the greatest code (R94, Table WEIR-1). -/
def longest (l : List Nat) : Nat := l.foldl max 1

/-- The checks of a message (Tables RULE-3 and CXLP-3, R285, R129). -/
def Dev.judgeMsg (d : Dev) (p : Profile) (x : Msg) : Judged :=
  let whole (e ld : Nat) : Leg := { e, ld, addr := x.addr, off := x.off, len := x.len, data := x.data }
  match x.dst with
  | some (.link e ld) =>
    let gone := x.rsp.isNone && decide (e < 0x100) && ! d.reachable e
    let gate := x.window && d.gateChecks p x.link && ! d.gateGrants false x.link (accCode x.acc) x.addr x.len
    let bad : Piece := { addr := x.addr, len := x.len, fault := if gate then 1 else 4, device := true }
    if gate || gone then { bad := [bad], cls := x.cls, device := true }
    else { targets := [whole e ld], cls := x.cls, device := x.window }
  | some (.group g) =>
    let ms := d.members g
    if x.acc == .write then
      let ps := d.pieces p x
      let ok := ps.filter fun c => decide (c.fault = 0 ∨ c.fault = 4)
      { targets := ok.flatMap fun c => ms.map fun e => { c.target x with e := e, ld := 0 }
        bad := ps.filter fun c => ! (decide (c.fault = 0 ∨ c.fault = 4))
        cls := longest (ok.map fun c => eClass c.entry), device := ok.any (·.device), group := some g }
    else { targets := ms.map fun e => whole e 0, cls := x.cls, group := some g }
  | some .statusPage => { cls := x.cls, device := true, page := true }
  | none =>
    let ps := d.pieces p x
    let ok := ps.filter fun c => decide (c.fault = 0)
    let page := ps.any fun c => decide (c.fault = 0) && c.entry == 0 && c.e == 0 && c.device && ! c.resv
    { targets := ok.map fun c => c.target x, bad := ps.filter fun c => decide (c.fault ≠ 0)
      cls := if ok.isEmpty || page then 3 else longest (ok.map fun c => eClass c.entry)
      device := ok.any (·.device), resv := ok.any (·.resv), page := page }

/-! ### Ordering (R168–R173) -/

/-- An access of an initiator, for the ordering rules: its type, region, bytes, and, when it has one destination, that and its
sequence space. -/
structure Access where
  acc    : Acc
  device : Bool
  addr   : Nat
  len    : Nat
  kind   : Nat
  link   : Nat
  path   : Option (Nat × SpaceKey)

/-- Two accesses touch a common 64-byte line. -/
def Access.sameLine (a b : Access) : Bool :=
  decide (a.addr / 64 ≤ (b.addr + max 1 b.len - 1) / 64) && decide (b.addr / 64 ≤ (a.addr + max 1 a.len - 1) / 64)

/-- An access is a read. -/
def accReads : Acc → Bool
  | .read | .lockRead => true
  | _ => false

/-- The later access is ordered after the earlier one (Tables ORDER-2 and ORDER-3; R171 for CXL.io of one port toward one
egress, by the stronger rule). -/
def Access.ordered (later earlier : Access) : Bool :=
  let pcie := later.kind == 7 && earlier.kind == 7 && earlier.acc == .write && decide (later.link = earlier.link)
    && (match later.path, earlier.path with
        | some a, some b => decide (a.1 = b.1)
        | _, _ => false)
  pcie
  || (if later.acc == .flush || earlier.acc == .flush then true
      else if later.device && earlier.device then true
      else if later.device then ! accReads earlier.acc
      else if earlier.device then true
      else later.sameLine earlier && ! (accReads later.acc && accReads earlier.acc))

/-- Two accesses share an ordered path: one destination and one sequence space (R172). -/
def Access.samePath (a b : Access) : Bool :=
  match a.path, b.path with
  | some x, some y => decide (x = y)
  | _, _ => false

/-- The sequence space of a class from a link toward an egress, without its parity. -/
def pathKey (cls link e : Nat) : SpaceKey :=
  { src := spaceSrc (spaceOf cls) link, dst := e, sp := spaceOf cls, par := false }

/-- A waiting message as an access. -/
def Msg.access (x : Msg) (j : Judged) (cls : Nat) : Access :=
  let es := (j.targets.map (·.e)).eraseDups
  { acc := x.acc, device := j.device, addr := (j.targets.head?.map (·.addr)).getD x.addr, len := x.len, kind := x.kind, link := x.link
    path := match es with
      | [e] => some (e, pathKey cls x.link e)
      | _ => none }

/-- A tracked request as an access. -/
def Trk.access (t : Trk) : Access :=
  { acc := t.acc, device := t.device, addr := t.addr, len := t.len, kind := t.kind, link := t.src
    path := if t.parts = 1 ∧ t.group.isNone then some (t.dst, pathKey t.cls t.src t.dst) else none }

/-- The accesses of an initiator that a later one may have to wait for: those admitted and not yet performed, flushes in
progress, and those that wait in FIFOs ahead of it. -/
def Dev.earlier (d : Dev) (p : Profile) (x : Msg) : List (Access × Bool) :=
  ((d.weir.trk.filter fun e => decide (e.2.init = x.init) && ! e.2.performed && e.2.acc != .none && e.2.grp != x.grp).map
      fun e => (e.2.access, true))
  ++ ((d.ord.flush.filter fun f => decide (f.init = x.init) && f.long.isNone).map fun _ =>
      ({ acc := .flush, device := false, addr := 0, len := 0, kind := 7, link := x.link, path := none }, false))
  ++ ((d.weir.q.filter fun y => decide (y.id < x.id) && decide (y.init = x.init) && y.acc != .none && y.rsp.isNone && ! y.queued).map
      fun y => (y.access (d.judgeMsg p y) y.cls, false))

/-- A write may be acknowledged early (R175, R236): one full line of CXL.mem, or a bridged write marked eligible, to a Normal
rule that permits it, at a target of this switch. -/
def Dev.eligible (d : Dev) (x : Msg) (j : Judged) : Bool :=
  match j.targets, j.bad with
  | [t], [] =>
    x.acc == .write && x.dst.isNone && ! j.device && ! j.resv && eEarly t.entry && ! d.isIggevo t.e
    && (if x.far.isSome then x.eaOk else x.kind == 1 && x.len == 64 && x.addr % 64 == 0)
  | _, _ => false

/-- The early-ack queue lines of a link's part, and those in use (R176). -/
def Dev.eaLines (d : Dev) (l : Nat) : Nat := 256 / subLinks (d.tileCode (l / 4))
/-- Queue lines in use in a link's part. -/
def Dev.eaUsed (d : Dev) (l : Nat) : Nat := (d.ord.ea.filter fun e => decide (e.link = l)).length

/-- The queued line that answers a full-line read of its initiator (R178): the youngest of that line, admitted under the rule
set that is active now. -/
def Dev.forwarded (d : Dev) (x : Msg) (j : Judged) : Option EaLine :=
  if x.kind = 0 ∧ x.acc = .read ∧ x.len = 64 ∧ x.addr % 64 = 0 ∧ ! j.resv ∧ ! j.page then
    match (d.ord.ea.filter fun e => decide (e.init = x.init) && decide (e.line = x.addr / 64)).getLast? with
    | some e => if e.setT = d.conf.flipT.getD x.reach 0 then some e else none
    | none => none
  else none

/-- R172 and R178 hold the message. -/
def Dev.orderHeld (d : Dev) (p : Profile) (x : Msg) (j : Judged) (cls : Nat) : Bool :=
  if x.acc == .none && x.rsp.isNone then false
  else if x.rsp.isSome then
    -- a completion does not pass a posted write of its port toward the same egress (R171)
    x.kind == 7 && d.weir.q.any fun y => decide (y.id < x.id) && decide (y.link = x.link) && postedReq y.kind y.acc && y.dst == x.dst
  else
    let a := x.access j cls
    let line := d.ord.ea.any fun e => decide (e.init = x.init) && a.sameLine { a with addr := e.line * 64, len := 64 }
    (line && ! d.eligible x j && (d.forwarded x j).isNone && x.acc != .flush)
    || (d.earlier p x).any fun e => a.ordered e.1 && ! (e.2 && a.samePath e.1)

/-! ### Faulting requests (R95, R96, Table RULE-4) -/

/-- A request as a tracker entry that it never took. -/
def Dev.asTrk (d : Dev) (x : Msg) (cls : Nat) : Trk :=
  { grp := x.grp, reach := x.reach, cls := cls, strict := strictCls cls, init := x.init, src := x.link, dst := x.link, ld := x.ld
    kind := x.kind, acc := x.acc, addr := x.addr, len := x.len, msg := x.id, t6 := d.clk.t6, far := x.far }

/-- A failing piece is logged and counted (R96). A target that was removed or is down is a faulting access with no kind of
fault of its own; a conditional store that R187 rejects is recorded. -/
def Dev.pieceFault (d : Dev) (x : Msg) (c : Piece) : Dev :=
  let d := if c.resv ∧ x.acc = .write ∧ (x.len > 64 ∨ x.len = 0 ∨ x.addr % x.len ≠ 0) then d.onSrec x.init fun s => { s with outcome := 4, time := d.now } else d
  if c.fault = 0 ∨ c.fault > 3 then d
  else (d.sendFault 1 (x.link / 4) c.fault 1 x.reach c.addr).count 0x040 (x.link / 4) x.reach x.link

/-- The cells of a message received on an Iggevo link are freed (R212). -/
def Dev.freeCredit (d : Dev) (l : Nat) : Option (Nat × Nat) → Dev
  | some (c, n) => d.onIg l fun g => { g with f := g.f.set c ((g.f.getD c 0 + n) % 8192) }
  | none => d

/-- The message leaves its FIFO or its source's queue, and returns its credit (R43, R212). -/
def Dev.dequeue (d : Dev) (x : Msg) : Dev :=
  (d.onWeir fun w => { w with q := w.q.filter fun y => decide (y.id ≠ x.id) }).freeCredit x.link x.cred

/-- A REPLICATE_WRITE has ended (R129, Table CELL-10): the status of every link and Basin memory port. A part that failed
its rules failed for every member. -/
def Dev.finRepl (d : Dev) (grp : Nat) (faulted : Bool) : Dev :=
  match d.fab.repl.get? grp with
  | some r =>
    let ms := d.members r.group
    let st (i : Nat) : Nat :=
      let e := if i < 256 then i else 0x100 + (i - 256)
      if ! ms.contains e then 1 else if r.lost.contains e then 2 else if faulted || r.faulted then 3 else 0
    (d.onFab fun f => { f with repl := f.repl.erase grp }).finLong r.long .success ((List.range 258).map fun i => BitVec.ofNat 8 (st i))
  | none => d

/-- A request ends at the Weir with an error toward its initiator; it takes no tracker entry (Table RULE-4). Index 65,536
names none. -/
def Dev.endRequest (d : Dev) (x : Msg) (cls status : Nat) : Dev :=
  ((d.dequeue x).failTo x.link 65536 (d.asTrk x cls) status).finRepl x.grp true

end Sys2Proof.Machine
end

