-- ==== Sys2Proof/Machine/Queues.lean ====
section
/-! DEFINITION. Egress queues and pressure (chapters 3 and 6): thresholds and hold limits (R132, R133), the queue states of
Table BASIN-3, the overflow share, and the pressure index (R59, Table WEIR-4) with the hard holds (R61). -/

namespace Sys2Proof.Machine

/-- Overflow stops: a stack is lost, or one was returned and the next epoch has not come (R147, R148). -/
def Dev.noOverflow (d : Dev) : Bool := d.bas.stopOvf || d.bas.stack.any (· != .inService)

/-- L, the effective hold limit of a queue (R133, R139, R147). -/
def Dev.holdLimit (d : Dev) (p : Profile) (l q : Nat) : Nat :=
  let set : Nat := match d.cfg { op := 0x4085, a := l, b := q } with
    | some b => leN b 8 4
    | none => 0xFFFFFFFF
  if q ≥ 7 ∨ d.noOverflow ∨ (p = .deterministic ∧ q ≤ 4) then 0
  else if set ≠ 0xFFFFFFFF then set
  else
    let ns := if q ≤ 4 then d.bound .runBalanced p 3 - 100 else d.bound .runBalanced p 4 - 1000
    rateBytes (d.bas.rateU.getD l 0) ns / 64 - d.queueTeff p l q

/-- Cells of a queue that the Basin holds. -/
def Dev.heldCells (d : Dev) (l q : Nat) : Nat :=
  (d.fab.cells.filter fun c => decide (c.dst = l) && decide (c.q = q) && (match c.loc with
    | .basin _ => true
    | _ => false)).length

/-- The state of a queue (Table BASIN-3). -/
def Dev.qState (d : Dev) (l q : Nat) : QSt := d.bas.qst.getD (l, q) .direct

/-- The next state of a queue by Table BASIN-3, and by R138 while its link is stalled. -/
def Dev.qNext (d : Dev) (p : Profile) (l q : Nat) : QSt :=
  let occ := d.inQueue l q
  let held := d.heldCells l q
  let t := d.queueTeff p l q
  let lim := d.holdLimit p l q
  let stall := d.stalled l && decide (q ≤ 6) && ! d.noOverflow
  match d.qState l q with
  | .direct => if occ ≥ t then (if lim > 0 || stall then .overflow else .saturated) else .direct
  | .overflow =>
    if held = 0 ∧ 2 * occ < t then .direct
    else if ! stall && decide (held ≥ lim) then .saturated else .overflow
  | .saturated =>
    if held = 0 ∧ 2 * occ < t then .direct
    else if (2 * held < lim ∧ occ < t) ∨ (stall ∧ occ ≥ t) then .overflow else .saturated

/-- A queue of Q3–Q7 takes the state that its occupancy gives; entries into Overflow and Saturated are events (R135, R149). -/
def Dev.settle (d : Dev) (p : Profile) (l q : Nat) : Dev :=
  if q < 3 ∨ l ≥ 0x100 then d
  else
    let s := d.qNext p l q
    let old := d.qState l q
    if s = old then d
    else
      let d := d.onBas fun b => { b with qst := if s = .direct then b.qst.erase (l, q) else b.qst.set (l, q) s }
      let d := if old = .direct then d.count 0x106 (l / 4) 0x3F l else d
      match s with
      | .direct => d
      | .overflow => d.count 0x060 (l / 4) 0x3F l
      | .saturated => d.count 0x061 (l / 4) 0x3F l

/-- A cell is changed. -/
def Dev.onCell (d : Dev) (id : Nat) (f : Cell → Cell) : Dev :=
  d.onFab fun x => { x with cells := x.cells.map fun c => if c.id = id then f c else c }

/-- A cell joins the end of a FIFO. -/
def Dev.moveCell (d : Dev) (id : Nat) (loc : Loc) : Dev :=
  (d.onCell id fun c => { c with loc := loc, ord := d.fab.nextOrd, elig := d.clk.cyc }).onFab fun x =>
    { x with nextOrd := x.nextOrd + 1 }

/-- A cell enters its egress queue. -/
def Dev.toQueue (d : Dev) (p : Profile) (c : Cell) : Dev := (d.moveCell c.id (.egress c.q)).settle p c.dst c.q

/-! ### Overflow shares and pressure -/

/-- The overflow share of a Reach in bytes (R140). -/
def Dev.overflowShare (d : Dev) : Nat := (32 - d.basinK.1 - d.basinK.2) * gib / max 1 d.nReach

/-- Bytes of overflow that a Reach's held cells use, 80 for each (R137). -/
def Dev.overflowUse (d : Dev) (r : Nat) : Nat :=
  80 * (d.fab.cells.filter fun c => decide (c.reach = r) && (match c.loc with
    | .basin _ => true
    | _ => false)).length

/-- The Reach's overflow share cannot take another record. -/
def Dev.shareFull (d : Dev) (r : Nat) : Bool := decide (d.overflowUse r + 80 > d.overflowShare)

/-- The cell lies in the central cell buffer. -/
def Cell.onChip (c : Cell) : Bool :=
  match c.loc with
  | .basin _ | .sent | .lost => false
  | _ => true

/-- 255 × use / part, capped at 255. -/
def scale255 (use part : Nat) : Nat := min 255 (255 * use / max 1 part)

/-- The queue component of an egress (R59, R134): key 0 for the strict classes, else the queue. -/
def Dev.queueComponent (d : Dev) (p : Profile) (e q : Nat) : Nat :=
  if e ≥ 0x100 then
    scale255 (d.fab.cells.filter fun c => decide (c.dst = e) && c.loc == .port).length 4096
  else if q = 0 then
    scale255 (((List.range 3).map (d.inQueue e)).sum) (2048 / subLinks (d.tileCode (e / 4)))
  else scale255 (d.inQueue e q) (d.queueTeff p e q)

/-- The pressure components are sampled (R59, Table WEIR-4), with the egress links that are not idle (R114). -/
def Dev.samplePressure (d : Dev) (p : Profile) : Dev :=
  let es := (d.fab.cells.map (·.dst)).eraseDups
  let rs := List.range d.nReach
  d.onWeir fun w => { w with
    pQueue := es.flatMap fun e => [0, 3, 4, 5, 6, 7].map fun q => ((e, q), d.queueComponent p e q)
    pCentral := scale255 (d.fab.cells.filter Cell.onChip).length 1572864
    pBasin := rs.map fun r => (r, if d.noOverflow then 0 else scale255 (d.overflowUse r) d.overflowShare)
    pTrk := rs.flatMap fun r =>
      [((r, 1), scale255 (d.trkUsed r true + d.trkUsed r false) d.trkShare),
       ((r, 0), scale255 (d.trkUsed r false) (d.trkShare - d.trkShare / 8))]
    busyL := es.filter fun e => d.fab.cells.any fun c => decide (c.dst = e) && (match c.loc with
      | .egress _ | .sent => true
      | _ => false) }

/-- P of an egress for a class and Reach, as last computed (R59). -/
def Dev.pressure (d : Dev) (e cls r : Nat) (rsp : Bool) : Nat :=
  let w := d.weir
  let q := if strictCls cls then 0 else queueOf cls rsp
  [w.pQueue.getD (e, q) 0, w.pCentral, w.pBasin.getD r 0, w.pTrk.getD (r, b2n (strictCls cls)) 0].foldl max 0

/-- The Bulk cap of R61 applies: in Run-Deterministic, and in every profile while a stack is lost (R147). -/
def Dev.bulkCapped (d : Dev) (p : Profile) : Bool := p == .deterministic || d.bas.stack.any (· == .lost)

/-- The parts of one byte in which a Bulk cap bucket is held: every figure of R61 is then a whole number. -/
def capUnit : Nat := rateUnit * 6000 * 10 * 32

/-- The Bulk cap bucket of a Reach at an egress link, refilled to now (R61). -/
def Dev.capNow (d : Dev) (e r : Nat) : Int :=
  let full : Int := (64 * 64 * capUnit : Nat)
  match d.weir.bulkCap.get? (e, r) with
  | some (v, t) =>
    let per := d.curRate e * 4 * 32 / (if d.sharedEgress e then d.nReach else 1)
    min full (v + (per * d.since t : Nat))
  | none => full

/-- A message of Standard or Bulk is held hard (R61): a buffer component at 255, an exhausted overflow share, or an empty Bulk
cap bucket. -/
def Dev.hardHold (d : Dev) (p : Profile) (r cls : Nat) (rsp : Bool) (legs : List (Nat × Nat)) : Bool :=
  legs.any fun x =>
    decide (d.weir.pQueue.getD (x.1, queueOf cls rsp) 0 = 255) || decide (d.weir.pCentral = 255)
    || (! d.noOverflow && d.shareFull r)
    || (decide (cls = 4) && decide (x.1 < 0x100) && d.bulkCapped p && decide (d.capNow x.1 r < (x.2 * 64 * capUnit : Nat)))

/-- Bulk cells admitted toward a link take their bytes from the bucket. -/
def Dev.capTake (d : Dev) (p : Profile) (r cls : Nat) (legs : List (Nat × Nat)) : Dev :=
  if cls ≠ 4 ∨ ! d.bulkCapped p then d
  else legs.foldl (fun d x => if x.1 ≥ 0x100 then d
    else d.onWeir fun w => { w with bulkCap := w.bulkCap.set (x.1, r) (d.capNow x.1 r - (x.2 * 64 * capUnit : Nat), d.clk.t6) }) d

end Sys2Proof.Machine
end

