-- ==== Sys2Proof/Machine/Admission.lean ====
section
/-! DEFINITION. Admission (chapter 3): arrival in the ingress FIFOs, the admission algorithm for requests, responses and
device-generated messages, and what admission does; the events of the Weir. -/

namespace Sys2Proof.Machine

/-! ### Holds before the algorithm -/

/-- The tile of a service removal that has begun (Table CELL-8, step 2). -/
def Dev.leaving (d : Dev) (t : Nat) : Bool :=
  match d.ctl.svc with
  | some v => v.op == 5 && v.inst == t && v.begun
  | none => false

/-- The Weir stops admitting tenant requests for a change to Configure (R28). -/
def Dev.draining (d : Dev) : Bool :=
  match d.ctl.pend with
  | some q => q.begun && q.target == .configure
  | none => false

/-- The mode bars the message (R21, R28, R29): Control passes in Configure too; a response completes admitted work. -/
def Dev.barred (d : Dev) (m : Mode) (x : Msg) : Bool :=
  if d.weir.stopped then true
  else if x.rsp.isSome then ! (m.tenant || m == .configure)
  else if x.cls = 0 then ! (m.tenant || m == .configure)
  else ! m.tenant || (d.draining && x.acc != .none && ! x.queued)

/-- A tile that the Weir admits to or from: in the pattern, not leaving, and not switched off (R36, R123, R126, R461). -/
def Dev.tileOpen (d : Dev) (t : Nat) (rsp : Bool) : Bool :=
  d.tileIn t && (rsp || ! d.leaving t) && ! d.domOff t

/-- An egress that the Weir admits to (R37). -/
def Dev.egressOpen (d : Dev) (e : Nat) (rsp : Bool) : Bool :=
  decide (e ≥ 0x100) || (d.tileOpen (e / 4) rsp && (rsp || ! (d.port e).fenced))

/-- The tiles of the pattern after a pending change (R123). -/
def Repat.apply (r : Repat) (now : List Nat) : List Nat :=
  if r.join then now ++ r.tiles.filter (fun t => ! now.contains t) else now.filter fun t => ! r.tiles.contains t

/-- A pattern change affects a pinned pair (R123): its pin names another tile under the new M, or a changing tile is its
source, intermediate or destination. -/
def Dev.affected (d : Dev) (src dst : Nat) : Bool :=
  match d.fab.repat with
  | some r =>
    let now := d.fab.inSvc
    let new := r.apply now
    let a := tileAt now (pinPos src dst now.length)
    let b := tileAt new (pinPos src dst new.length)
    now.isEmpty || new.isEmpty || decide (a ≠ b)
      || r.tiles.any fun t => decide (a = t) || decide (destOf src = t) || decide (destOf dst = t)
  | none => false

/-- The link is time-degraded: either side says so (R225). -/
def Dev.timeDegraded (d : Dev) (l : Nat) : Bool := d.isIggevo l && ((d.igg l).tdOwn || (d.igg l).pFlags.testBit 1)

/-- The request waits for another owner's lock (R245): a near lock of its Reach, for bridged requests toward the locked link
and for locked reads; a far lock of its Reach, toward the target of the locked read. -/
def Dev.lockHeld (d : Dev) (x : Msg) (es : List Nat) : Bool :=
  x.acc != .none &&
  ((match d.brg.near.get? x.reach with
    | some k => (k.st == .held || k.st == .releasing) && x.init != .link k.owner && (es.contains k.link || x.acc == .lockRead)
    | none => false)
   || (match d.brg.far.get? x.reach with
    | some k => x.init != k.owner && es.contains k.dst
    | none => false))

/-- The Iggevo tile at which LOCK_WAIT is counted (R248): that of the near lock's link, or of the link a bridged request came over. -/
def Dev.lockTile (d : Dev) (x : Msg) : Nat :=
  if x.far.isSome then x.link / 4 else match d.brg.near.get? x.reach with
    | some k => k.link / 4
    | none => x.link / 4

/-- The owner of a broken lock uses the locked path again (R246). -/
def Dev.lockBroken (d : Dev) (x : Msg) (es : List Nat) : Bool :=
  match d.brg.near.get? x.reach with
  | some k => k.st == .broken && x.init == .link k.owner && es.contains k.link && x.acc != .none
  | none => false

/-! ### Charging -/

/-- The cells that a message forms toward a leg. -/
def Dev.legCells (d : Dev) (x : Msg) (t : Leg) : Nat :=
  cellCount (d.isIggevo t.e) (if x.rsp.isSome then x.data.length else (reqData x.acc t.len t.data).length)

/-- Every leg takes its cells, or none does (R116, the pseudocode of chapter 3). -/
def Dev.takeAll (d : Dev) (link : Nat) (legs : List (Nat × Nat)) (takers : List Nat) : Option Dev :=
  legs.foldl (fun o x => o.bind fun d => d.calTake x.1 link x.2 takers) (some d)

/-- The reserved cells of a green Expedited request at one egress: of the path whose tag it carries (R65), else of an active
path of its Reach there, which then tags it, else of its Reach. -/
def Dev.takeGreen (d : Dev) (x : Msg) (e n : Nat) : Option (Dev × Option (Nat × Nat)) :=
  match x.path with
  | some (o, h) =>
    match d.calTake e x.link n [pathTaker o h] with
    | some d => some (d, none)
    | none => (d.calTake e x.link n [x.reach]).map fun d => (d, none)
  | none =>
    let mine := (d.weir.paths.filter fun y => decide (y.2.reach = x.reach) && decide (y.2.egress = e) && y.2.active && ! y.2.suspended)
    match mine.findSome? fun y => (d.calTake e x.link n [pathTaker 0 y.1]).map fun d => (d, some (d.switchId, y.1)) with
    | some r => some r
    | none => (d.calTake e x.link n [x.reach]).map fun d => (d, none)

/-- Every leg of a green request takes reserved cells, or none does; the path tags in the order of the legs. -/
def Dev.takeGreens (d : Dev) (x : Msg) (legs : List (Nat × Nat)) : Option (Dev × List (Option (Nat × Nat))) :=
  legs.foldl (fun o y => o.bind fun r => (r.1.takeGreen x y.1 y.2).map fun z => (z.1, r.2 ++ [z.2])) (some (d, []))

/-- The message is not admitted on this evaluation (R46). -/
def Dev.wait (d : Dev) (x : Msg) : Dev :=
  d.onWeir fun w => { w with q := w.q.map fun y => if y.id = x.id then { x with evalT := some d.clk.t6 } else y }

/-- It waits for a hard hold or for calendar cells (HELD, Table WEIR-6). -/
def Dev.waitHeld (d : Dev) (x : Msg) (cls : Nat) : Dev := (d.wait x).count 0x10A (destOf x.link % 64) x.reach 0xFFF cls

/-! ### Deadlines and cut-through -/

/-- The deadline stamped at admission (R47); none for Datagram. -/
def Dev.deadline (d : Dev) (m : Mode) (p : Profile) (x : Msg) (cls : Nat) : Nat :=
  if cls = 5 then 0
  else
    let late := (d.now + 2 ^ 40 - x.tP) % 2 ^ 40
    (x.tIn + d.bound m p cls + (if late < 2 ^ 39 then late - 10 else 0)) % 2 ^ 40

/-- ct (R113, R114, R300): a pinned message from a link without IDE toward a link that was idle, at a rate no higher than its
own. -/
def Dev.cutThrough (d : Dev) (p : Profile) (x : Msg) (cls e : Nat) : Bool :=
  ! p.isSecure && strictCls cls && ! x.mcast && ! x.split && ! x.queued && decide (e < 0x100) && decide (x.link < 0x100)
  && decide (d.curRate e ≤ d.curRate x.link) && ! d.weir.busyL.contains e
  && (d.cxl.ide.getD x.link {}).cxl == 0 && (d.cxl.ide.getD x.link {}).io == 0

/-! ### Admission -/

/-- The cells of an admitted message enter the fabric, or, for a message toward its own tile's link that the device generated,
its egress queue (R69). -/
def Dev.send (d : Dev) (p : Profile) (x : Msg) (e : Nat) (ct : Bool) : Dev :=
  let (cells, d) := d.formCells p x e ct
  let d := d.onWeir fun w => { w with fly := w.fly.set x.id x }
  if x.queued ∧ x.link < 0x100 ∧ e < 0x100 ∧ x.link / 4 = e / 4 then
    let d := d.onFab fun f => { f with cells := f.cells ++ cells.map fun c => { c with loc := .egress c.q } }
    d.settle p e (queueOf x.cls x.rsp.isSome)
  else d.placeCells cells

/-- The tracker entry of one part of an admitted request, or of a multicast. -/
def Dev.entryOf (d : Dev) (x : Msg) (j : Judged) (cls colour parts : Nat) (t : Leg) (legs : List Leg) : Trk :=
  { grp := x.grp, reach := x.reach, cls := cls, strict := strictCls cls, init := x.init, src := x.link
    dst := if j.group.isSome then 0x1FF else t.e, ld := x.ld, kind := x.kind, acc := x.acc, addr := t.addr, off := t.off, len := t.len
    msg := d.weir.nextMsg, t6 := d.clk.t6, greenRq := cls == 1 && colour == 0, device := j.device, resv := j.resv, far := x.far
    gen := if j.group.isNone && d.isIggevo t.e then (d.igg t.e).gen else 0, group := j.group
    left := if j.group.isSome then (legs.filter fun y => decide (y.addr = t.addr)).map (·.e) else []
    faulted := ! j.bad.isEmpty, faultSt := 1, parts := parts, limit := if d.isIggevo t.e then d.brgLimit t.e else 0 }

/-- One leg of an admitted message is sent, under a tracker entry. -/
def Dev.sendLeg (d : Dev) (m : Mode) (p : Profile) (x : Msg) (j : Judged) (cls colour i : Nat) (multi : Bool) (t : Leg)
    (tag : Option (Nat × Nat)) : Dev :=
  let y : Msg := { x with
    id := d.weir.nextMsg, cls := cls, colour := colour, trk := some i, dst := some (.link t.e t.ld), addr := t.addr, off := t.off
    len := t.len, data := t.data, ld := t.ld, device := j.device, resv := j.resv, mcast := j.group.isSome, split := multi
    eaOk := x.far.isSome && x.eaOk || (! j.device && eEarly t.entry && t.addr % 64 == 0 && t.len % 64 == 0 && x.acc == .write)
    path := tag.or x.path, dl := d.deadline m p x cls, delta := cutDelta p }
  let d := d.onWeir fun w => { w with nextMsg := w.nextMsg + 1 }
  d.send p y t.e (d.cutThrough p y cls t.e)

/-- An admitted locked read begins a lock (R245): near, on its way to an Iggevo link; far, for the target of a bridged one. -/
def Dev.beginLock (d : Dev) (x : Msg) (e i : Nat) : Dev :=
  if x.acc ≠ .lockRead then d
  else match x.init with
    | .link l =>
      if d.isIggevo e then
        d.onBrg fun b => { b with near := b.near.set x.reach { st := .held, owner := l, link := e, reach := (d.farReach e x.reach).getD 0, t6 := d.clk.t6, trk := i } }
      else d
    | _ => d.onBrg fun b => { b with far := b.far.set x.reach { owner := x.init, link := x.link, dst := e, t6 := d.clk.t6 } }

/-- An eligible write is copied to the queue lines of its link and completed to its initiator (R176, R236). -/
def Dev.earlyAck (d : Dev) (x : Msg) (j : Judged) (i msg : Nat) : Dev :=
  if ! d.eligible x j then d
  else
    let d := d.onTrk i fun t => { t with early := true }
    let lines := (List.range (ceilDiv x.len 64)).map fun k =>
      ({ link := x.link, init := x.init, line := x.addr / 64 + k, data := slice x.data (64 * k) 64, trk := msg
         setT := d.conf.flipT.getD x.reach 0, reach := x.reach } : EaLine)
    let d := d.onOrd fun o => { o with ea := o.ea ++ lines }
    match d.weir.trk.get? i with
    | some t => d.genRsp x.link i t 0 [] false true
    | none => d

/-- A sample record of an admitted message (Table TELE-6); its byte 0 holds the ct flag until the record is taken. -/
def Dev.sampleOf (d : Dev) (x : Msg) (cls colour e i cells dl : Nat) (ct : Bool) : Adm :=
  { id := x.grp, reach := x.reach, cls := cls, link := x.link, egress := e
    body := nb 1 (b2n ct) ++ nb 1 cls ++ nb 1 colour ++ nb 1 x.reach ++ nb 1 (if x.far.isSome then 8 else x.kind) ++ nb 2 x.link ++ nb 2 e
      ++ nb 2 i ++ nb 2 cells ++ zeros 2 ++ nb 8 (if x.rsp.isSome then 0 else x.addr) ++ nb 5 x.tIn ++ nb 5 d.now ++ nb 5 dl ++ zeros 1 }

/-- The counts of an admission: ADMITTED, CELLS_IN and BYTES_IN of a message that arrived on a link, and the time of the
tiles' last admission (R36). -/
def Dev.noteIn (d : Dev) (x : Msg) (cls colour e i cells dl : Nat) (ct : Bool) : Dev :=
  let t := destOf x.link
  let d := d.onWeir fun w => { w with
    lastAdm := (w.lastAdm.set (t % 64) d.clk.t6).set (destOf e % 64) d.clk.t6 }
  if x.queued then d
  else
    let d := d.countN 0x100 t x.reach cls x.link 1
    let d := d.countN 0x101 t x.reach cls x.link cells
    let d := d.countN 0x104 t x.reach cls x.link (headerBytes + x.data.length)
    d.noteAdmitted t (d.sampleOf x cls colour e i cells dl ct)

/-- Admission of a request or of a one-way message (R47, R50, R94, R116): each part or multicast takes a tracker entry and
each leg becomes a message of its own; what failed the checks is logged. -/
def Dev.admitMsg (d : Dev) (m : Mode) (p : Profile) (x : Msg) (j : Judged) (cls colour : Nat) (tags : List (Option (Nat × Nat))) : Dev :=
  let d := d.dequeue x
  let d := j.bad.foldl (fun d c => d.pieceFault x c) d
  let addrs := (j.targets.map (·.addr)).eraseDups
  let cells := (j.targets.map (d.legCells x)).sum
  let e0 := (j.targets.head?.map (·.e)).getD 0
  let ct := d.cutThrough p x cls e0
  let first := d.freeTrk
  let d := addrs.foldl (fun d a =>
    match j.targets.find? fun t => decide (t.addr = a) with
    | some t =>
      let msg := d.weir.nextMsg
      let (i, d) := d.addTrk (d.entryOf x j cls colour addrs.length t j.targets)
      let d := (j.targets.zip (tags ++ j.targets.map fun _ => none)).foldl (fun d y =>
        if y.1.addr ≠ a then d
        else if (y.1.e < 0x100 ∧ ! d.reachable y.1.e) ∨ (y.1.e ≥ 0x100 ∧ j.group.isSome ∧ eKind y.1.entry ≠ 1) then
          d.partial_ i y.1.e
        else d.sendLeg m p x j cls colour i (decide (addrs.length > 1) || ! j.bad.isEmpty) y.1 y.2) d
      (d.earlyAck x j i msg).beginLock x t.e i
    | none => d) d
  let d := if x.init = .mpc then
      d.onFab fun f => { f with repl := f.repl.map fun e =>
        if e.1 = x.grp then (e.1, { e.2 with parts := addrs.length, faulted := ! j.bad.isEmpty }) else e }
    else d
  d.noteIn x cls colour e0 first cells (d.deadline m p x cls) ct

/-- A read that a queued line answers takes its entry and returns its data as a response (R178). -/
def Dev.admitForwarded (d : Dev) (x : Msg) (j : Judged) (cls colour : Nat) (e : EaLine) : Dev :=
  match j.targets with
  | t :: _ =>
    let (i, d) := (d.dequeue x).addTrk (d.entryOf x j cls colour 1 t j.targets)
    (d.noteIn x cls colour x.link i (d.legCells x t) 0 false).answered x.link i 0 e.data false
  | [] => d

/-- A response is admitted (R68, R69, R51): an Expedited or strict one by the calendar, a Standard or Bulk one unless held
hard; one that its initiator can no longer receive is discarded, and frees its entry (R243). An Expedited response that arrived on a
link is refused toward a time-degraded link (R67), and once demoted is admitted into Standard (the pseudocode, assumption 138). -/
def Dev.evalRsp (d : Dev) (m : Mode) (p : Profile) (x : Msg) (i : Nat) : Dev :=
  let x : Msg := { x with firstT := x.firstT.or (some d.clk.t6) }
  let cls := if x.demoted then 3 else x.cls
  let entry := (d.weir.trk.get? i).filter fun t => decide (t.grp = x.forGrp)
  let lost := match entry with
    | some t => ! d.canReceive t
    | none => (match x.dst with
        | some (.link e _) => decide (e < 0x100) && ! d.reachable e
        | _ => true)
  if lost then
    let d := d.dequeue x
    let d := if d.isIggevo x.link then d.count 0x119 (x.link / 4) 0x3F x.link else d
    match entry with
    | some _ => d.endTrk i
    | none => d
  else match x.dst with
  | some (.link e _) =>
    let j : Judged := { targets := [{ e, addr := x.addr, len := x.len, data := x.data }], cls := cls }
    let n := cellCount (d.isIggevo e) x.data.length
    let green := match entry with
      | some t => t.greenRq
      | none => false
    if ! d.egressOpen e true ∨ (x.link < 0x100 ∧ ! d.tileOpen (x.link / 4) true) then d.wait x
    else if strictCls cls ∧ d.affected x.link e then d.wait x
    else if d.orderHeld p x j cls then (d.wait x).count 0x111 (destOf x.link % 64) 0x3F x.link
    else if ! d.room x.link cls n then d.wait x
    else if cls = 1 ∧ ! x.queued ∧ d.timeDegraded e then (d.wait x).count 0x030 (destOf x.link % 64) 0x3F e
    else
      let charged : Option Dev :=
        if strictCls cls then d.takeAll x.link [(e, n)] (if cls = 1 && green then [x.reach, 32, 33] else [32, 33])
        else if d.hardHold p x.reach cls true [(e, n)] then none
        else some (d.capTake p x.reach cls [(e, n)])
      match charged with
      | none => d.waitHeld x cls
      | some d =>
        let y := { x with cls := cls, dl := d.deadline m p x cls, colour := 0, delta := cutDelta p }
        let d := d.dequeue x
        let d := d.send p y e (d.cutThrough p y cls e)
        d.noteIn y cls 0 e i n y.dl (d.cutThrough p y cls e)
  | _ => d.dequeue x

/-- The algorithm of chapter 3 from the choice of class on, for a message whose checks passed. -/
def Dev.decide_ (d : Dev) (m : Mode) (p : Profile) (x : Msg) (j : Judged) (cls : Nat) (e0 : Bool) : Dev :=
  let legs := j.targets.map fun t => (t.e, d.legCells x t)
  let n := (legs.map (·.2)).sum
  let tile := destOf x.link % 64
  let polled := ! x.queued && x.acc != .none
  let pressure := (legs.map fun y => d.pressure y.1 cls x.reach false).foldl max 0
  if cls = 5 then d.admitMsg m p x j 5 0 []
  else if x.demoted then
    if d.hardHold p x.reach 3 false legs then d.waitHeld x 3
    else (d.capTake p x.reach 3 legs).admitMsg m p x j 3 x.colour []
  else if cls = 0 ∨ cls = 2 then
    match d.takeAll x.link legs [32, 33] with
    | some d => d.admitMsg m p x j cls 0 []
    | none => d.waitHeld x cls
  else if cls = 1 then
    match legs.find? fun y => d.timeDegraded y.1 with
    | some y => (d.wait x).count 0x030 tile 0x3F y.1
    | none =>
      let c := d.mark x.reach 1 x.link n x.arrCol
      match (if c = 0 then d.takeGreens x legs else none) with
      | some (d, tags) => (d.debit x.reach 1 x.link n 0).admitMsg m p x j 1 0 tags
      | none =>
        let excess := legs.filter fun y => c == 0 && ((d.contract x.reach 1 x.link).isSome || decide (d.resvQ false x.reach y.1 > 0))
        let d := excess.foldl (fun d y => d.count 0x000 tile x.reach y.1 1) d
        let c := max c 1
        let x := { x with colour := c }
        let (ref, d) := d.refuseDraw tile (d.profileOf x.reach 1 x.link c) pressure
        if ref then d.wait x
        else match d.takeAll x.link legs [32] with
          | some d => (d.debit x.reach 1 x.link n c).admitMsg m p x j 1 c []
          | none => d.waitHeld x 1
  else if d.hardHold p x.reach cls false legs then d.waitHeld x cls
  else if ! polled then (d.capTake p x.reach cls legs).admitMsg m p x j cls 0 []
  else
    let pol := if e0 then 1 else cls
    let c := d.mark x.reach pol x.link n x.arrCol - (if x.refusals ≥ 128 then 2 else if x.refusals ≥ 64 then 1 else 0)
    let (ref, d) := d.refuseDraw tile (d.profileOf x.reach pol x.link c) pressure
    if ref then (d.wait { x with refusals := x.refusals + 1, colour := c }).count 0x109 tile x.reach 0xFFF cls
    else ((d.debit x.reach pol x.link n c).capTake p x.reach cls legs).admitMsg m p x j cls c []

/-- The Unlock of a legacy locked sequence (R245, R246): it ends its owner's near lock along the path, or clears a broken one. -/
def Dev.evalUnlock (d : Dev) (x : Msg) : Dev :=
  let d := d.dequeue x
  match d.brg.near.get? x.reach with
  | some k =>
    if x.init ≠ .link k.owner then d
    else
      let d := if k.st = .broken then d else (d.brgAsk k.link x.reach x.init .unlock 0).2
      d.onBrg fun b => { b with near := b.near.erase x.reach }
  | none => d

/-- A flush at the head of its FIFO begins (R181, R182): it takes one entry of the Standard part and no cell. -/
def Dev.evalFlush (d : Dev) (x : Msg) : Dev :=
  if ! d.trkFree x.reach 3 1 then (d.wait x).count 0x020 (destOf x.link % 64) x.reach x.reach
  else
    let (i, d) := (d.dequeue x).addTrk { d.asTrk x 3 with acc := .flush, parts := 1 }
    d.startFlush {
      id := 0, init := x.init, reach := x.reach, t6 := d.clk.t6, waits := [], host := some i, hdr := x.far, hop := x.refusals
      limit := 600000 / 2 ^ x.refusals }

/-- An earlier access of the message's initiator still waits in a FIFO. -/
def Dev.behind (d : Dev) (x : Msg) : Bool :=
  d.weir.q.any fun y => decide (y.id < x.id) && decide (y.init = x.init) && y.acc != .none && y.rsp.isNone && ! y.queued

/-- One evaluation of a message that is not a response (the pseudocode of chapter 3 with the holds of R46). -/
def Dev.evalReq (d : Dev) (m : Mode) (p : Profile) (x : Msg) : Dev :=
  let tile := destOf x.link % 64
  let owned : Option Nat := if x.far.isSome ∨ x.queued then some x.reach else d.owner x.link x.ld
  let x : Msg := { x with reach := owned.getD x.reach, firstT := x.firstT.or (some d.clk.t6) }
  let resetting : Bool := match d.reset.get? x.reach with
    | some r => r.e1
    | none => false
  if x.cls ≠ 0 ∧ (owned.isNone ∨ resetting = true) then d.wait x
  else if x.link < 0x100 ∧ ! x.queued ∧ ((d.port x.link).fenced ∨ ! d.tileOpen (x.link / 4) false) then d.wait x
  else if x.acc = .unlock ∧ x.far.isNone then d.evalUnlock x
  else if x.acc = .flush then (if x.far.isSome || ! d.behind x then d.evalFlush x else (d.wait x).count 0x111 tile 0x3F x.link)
  else
    let j := d.judgeMsg p x
    let es := j.targets.map (·.e)
    let e0 := decide (j.cls = 1) && x.acc != .none && es.any fun e => decide (d.calE e = 0)
    let cls := if x.demoted || e0 then 3 else j.cls
    let n := if j.group.isSome then (j.targets.map (·.addr)).eraseDups.length else j.targets.length
    if j.page then d.wait x
    else if j.targets.isEmpty then
      let c := (j.bad.head?.map fun b => if eValid b.entry then eClass b.entry else 3).getD x.cls
      (j.bad.foldl (fun d b => d.pieceFault x b) d).endRequest x c 1
    else if es.any fun e => ! d.egressOpen e false then d.wait x
    else if strictCls cls ∧ (es.any fun e => d.affected x.link e) then d.wait x
    else if d.lockBroken x es then d.endRequest x cls 6
    else if d.lockHeld x es then (d.wait x).count 0x11B (d.lockTile x) x.reach x.reach
    else if d.orderHeld p x j cls then (d.wait x).count 0x111 tile 0x3F x.link
    else if d.eligible x j ∧ d.eaUsed x.link + ceilDiv x.len 64 > d.eaLines x.link then (d.wait x).count 0x112 tile 0x3F x.link
    else if ! d.trkFree x.reach cls n then (d.wait x).count 0x020 tile x.reach x.reach
    else match d.forwarded x j with
      | some e => d.admitForwarded x j cls 0 e
      | none =>
        if ! d.room x.link cls ((j.targets.map (d.legCells x)).sum) then d.wait x
        else d.decide_ m p x j cls e0

/-- One evaluation of a waiting message. -/
def Dev.evaluate (d : Dev) (m : Mode) (p : Profile) (x : Msg) : Dev :=
  match x.rsp with
  | some i => d.evalRsp m p x i
  | none => d.evalReq m p x

/-! ### Arrival -/

/-- Parts of the ingress buffer of a tile in bytes, by class (R42). -/
def ingressPart : Nat → Nat
  | 0 => 8192 | 1 | 2 => 57344 | _ => 458752

/-- Classes that share a part of the ingress buffer. -/
def ingressGroup (c : Nat) : Nat := if c = 0 then 0 else if c ≤ 2 then 1 else 2

/-- Bytes that a waiting message takes in the ingress buffer: its cells. -/
def Msg.bytes (x : Msg) : Nat := 64 * cellCount false x.data.length

/-- The part of a link's ingress buffer for a class has room (R42, R43): without it the sender has no credit. -/
def Dev.ingressRoom (d : Dev) (l cls n : Nat) : Bool :=
  let used := (d.weir.q.filter fun y => decide (y.link = l) && ! y.queued && ingressGroup y.cls == ingressGroup cls).map Msg.bytes
  decide (used.sum + n ≤ ingressPart cls / subLinks (d.tileCode (l / 4)))

/-- Bytes received on a link join its bandwidth window (R423). -/
def Dev.rxBytes (d : Dev) (l n : Nat) : Dev := d.onTele fun t => { t with bw := t.bw.upd l {} fun w => { w with rx := w.rx + n } }

/-- A message joins its ingress FIFO (R42). -/
def Dev.ingress (d : Dev) (x : Msg) : Dev :=
  if d.ingressRoom x.link x.cls x.bytes then (d.rxBytes x.link (headerBytes + x.data.length)).enqueue x else d

/-- A completion status as it arrives on a CXL link (PCIe Base 7.0 codes, PRESUMED): 0 success, 1 Unsupported Request, else
Completer Abort. -/
def arrStatus : Nat → Nat
  | 0 => 0 | 1 => 2 | _ => 3

/-- The strongest of two MESI states, in the order E, S, I (R117): 2, 1, 0. -/
def strongest (a b : Nat) : Nat := max a b

/-- A response arrives from the target of an entry (R41, R94, R117, R243): a copy's joins the aggregate, an orphan's is
discarded, and a whole answer goes on to its initiator. -/
def Dev.response (d : Dev) (x : Msg) (i : Nat) : Dev :=
  match d.weir.trk.get? i with
  | none => d
  | some t =>
    let from_ := x.link
    if t.orphan.isSome ∧ ! t.early ∧ t.dst = from_ then
      let d := if d.isIggevo from_ then d.count 0x119 (from_ / 4) 0x3F from_ else d
      d.dropTrk i
    else if t.group.isSome then
      if t.left.contains from_ then
        d.onTrk i fun t => { t with left := t.left.filter (fun y => decide (y ≠ from_)), coh := strongest t.coh x.coh }
      else d
    else if t.dst ≠ from_ ∨ t.done then d
    else if t.early ∨ t.parts > 1 ∨ t.faulted ∨ x.status ≠ 0 then d.answered from_ i x.status x.data x.poison
    else
      let to_ : Option Dest := match t.init, t.far with
        | .far _ _, some h => some (.link h.link 0)
        | .link l, _ => some (.link l t.ld)
        | _, _ => none
      let host := match t.init with
        | .link _ => true
        | _ => false
      match to_ with
      | none => d.answered from_ i 0 x.data x.poison
      | some _ =>
        let d := d.onTrk i fun t => { t with done := true, performed := true, rspOut := true, poison := x.poison }
        let ndr := x.kind == 2 && host && (d.port from_).hdmdb
        d.ingress { x with
          kind := if host then (if x.kind = 8 then rspKind t.kind t.acc else x.kind) else 8, cls := if ndr then 2 else t.cls, reach := t.reach
          init := t.init, acc := t.acc, addr := t.addr, rsp := some i, forGrp := t.grp, dst := to_, far := t.far }

/-- A message arrives on a CXL link (R42, R47, Table CXLP-3, R303): a failed MAC check discards it and fences the link. A
misaligned AtomicOp is a malformed TLP, discarded and recorded at the port (R184; AER bit 18, PRESUMED). -/
def Dev.arrive (d : Dev) (p : Profile) (a : Arrival) : Dev :=
  if ! d.isCxl a.link ∨ ! (d.port a.link).up then d
  else if ! a.macOk then
    if (d.cxl.ide.getD a.link {}).cxl = 2 ∨ (d.cxl.ide.getD a.link {}).io = 2 then
      let d := (d.ideInsecure a.link).linkLost a.link
      (d.count 0x0E0 (a.link / 4) 0x3F a.link).sendFault 8 a.link 4 1 ((d.owner a.link a.ld).getD 0x3F) 0
    else d
  else
    let priv := (d.port a.link).mgr
    let base : Msg := {
      id := 0, link := a.link, kind := a.kind, cls := 3, reach := (d.owner a.link a.ld).getD 0, init := .link a.link, acc := a.acc
      priv := priv, addr := a.addr, len := a.len, data := a.data, ld := a.ld, tIn := d.now, tP := (d.now + a.tP) % 2 ^ 40
      poison := a.poison, status := 0, be := a.be, coh := a.coh }
    match d.route a with
    | .nowhere => d
    | .answer i => d.response { base with status := arrStatus a.status } i
    | .fixed dst cls w => d.ingress { base with dst := some dst, cls := cls, window := w }
    | .art =>
      match a.acc with
      | .atomic _ n => if n = 0 ∨ a.addr % n ≠ 0 then d.aerSet a.link 18
        else d.ingress { base with cls := (d.judgeMsg p base).cls }
      | .none => d
      | _ => d.ingress { base with cls := (d.judgeMsg p base).cls }

def execIngressArrival (dt : Nat) (m : Arrival) (s : State) : Host.Outcome State Fault Refusal :=
  event dt s fun _ p d => d.arrive p m

/-! ### The events of the Weir -/

/-- The head of the FIFO of a link and class, past requests that the mode bars: an answer passes those (R28, R44). -/
def Dev.head (d : Dev) (m : Mode) (l cls : Nat) : Option Msg :=
  d.weir.q.find? fun x => decide (x.link = l) && decide (x.cls = cls) && ! x.queued && ! d.barred m x

/-- A head is ready (R46, R130): it was presented, its back-off is over, and the fabric has room for its cells. -/
def Dev.headReady (d : Dev) (x : Msg) : Bool :=
  tGe d.now x.tP && (match x.evalT with
    | some t => decide (d.since t ≥ 192)
    | none => true)
  && d.room x.link x.cls (cellCount false x.data.length)

/-- The head that a tile's Weir serves in this cycle (R45). -/
def Dev.weirPick (d : Dev) (m : Mode) (t : Nat) : Option Msg :=
  [[0], [1, 2], [3, 4, 5]].findSome? fun g =>
    let pairs := (d.tileLinks t).flatMap fun l => g.map fun c => (l, c)
    let ready (k : Nat) : Option Msg :=
      match pairs[k]? with
      | some (l, c) => (d.head m l c).filter d.headReady
      | none => none
    (rotate pairs.length (d.clk.cyc % max 1 pairs.length) fun k => (ready k).isSome).bind ready

def execWeirEvaluate (dt tile : Nat) (s : State) : Host.Outcome State Fault Refusal :=
  event dt s fun m p d =>
    match d.weirPick m tile with
    | some x => d.evaluate m p x
    | none => d

/-- The answer of a lookup from a bank pair (R86): a correctable entry is corrected and logged; two that disagree are put to a
vote with a third bank, whose minority leaves service; without a vote, or when all differ, the head of the FIFO that asked
ends as a rule fault. Tiles 0–31 use banks 0 and 1, the others banks 2 and 3. -/
def execArtLookupAnswer (dt tile r idx : Nat) (a b : EntryRead) (third : Option EntryRead) (link cls : Nat) (s : State) :
    Host.Outcome State Fault Refusal :=
  event dt s fun m _ d =>
    let k := if tile < 32 then 0 else 2
    let fix (d : Dev) (e : EntryRead) (bank : Nat) : Dev :=
      if e.ecc = 1 then d.sendFault 1 bank 0x10 0 r (idx % 65536) else d
    let lose (d : Dev) : Dev :=
      match d.head m link cls with
      | some x => (d.sendFault 1 k 0x12 1 x.reach x.addr).endRequest x 3 1
      | none => d
    if ! d.art.up.getD k true ∨ ! d.art.up.getD (k + 1) true then d
    else if a.ecc = 0 ∧ b.ecc = 0 then
      if a.entry = b.entry then d
      else match third with
        | none => lose d
        | some c =>
          if c.entry = a.entry then d.artBankOut (k + 1)
          else if c.entry = b.entry then d.artBankOut k
          else lose d
    else if a.ecc = 2 ∧ b.ecc = 2 then lose d
    else if a.ecc = 2 then (fix d b (k + 1)).artBankOut k
    else if b.ecc = 2 then (fix d a k).artBankOut (k + 1)
    else fix (fix d a k) b (k + 1)

/-- An Expedited request that was last marked yellow or red, or that waits for a time-degraded link, and has been held for
2,048 ns is demoted (R62, R67). -/
def execExpeditedDemoted (dt link : Nat) (s : State) : Host.Outcome State Fault Refusal :=
  event dt s fun m p d =>
    match d.head m link 1 with
    | some x =>
      let held : Bool := match x.firstT with
        | some t => decide (d.since t ≥ 2048 * 6)
        | none => false
      let slow := (d.judgeMsg p x).targets.any fun t => d.timeDegraded t.e
      if held ∧ ! x.demoted ∧ (slow ∨ (x.rsp.isNone ∧ x.acc ≠ .none ∧ x.colour ≥ 1)) then
        (d.onWeir fun w => { w with q := w.q.map fun y => if y.id = x.id then { x with demoted := true } else y }).count
          0x108 (link / 4) x.reach x.reach
      else d
    | none => d

/-- The next message that a source holds is admitted at its source, without link credit (R69). -/
def execSelfGeneratedAdmission (dt src : Nat) (s : State) : Host.Outcome State Fault Refusal :=
  event dt s fun m p d =>
    match d.weir.q.find? fun x => decide (x.link = src) && x.queued && ! d.barred m x with
    | some x => d.evaluate m p x
    | none => d

/-- Pressure is recomputed at a timebase multiple of 8 ns (R59). -/
def execPressureRecompute (dt : Nat) (s : State) : Host.Outcome State Fault Refusal :=
  event dt s fun _ p d => d.samplePressure p

/-- A tile has a bound link. -/
def Dev.tileBound (d : Dev) (t : Nat) : Bool :=
  d.cxl.order.any fun x => decide (x.1 / 4 = t) || (match d.binding x.1 x.2 with
    | some b => decide (b.link / 4 = t)
    | none => false)

/-- A tile has admitted work: a tracker entry or a cell from it or toward it, or a queue line. -/
def Dev.tileWork (d : Dev) (t : Nat) : Bool :=
  (d.weir.trk.any fun e => e.2.orphan.isNone && (decide (destOf e.2.src = t) || decide (destOf e.2.dst = t)
    || (e.2.left.any fun l => decide (destOf l = t))))
  || (d.fab.cells.any fun c => decide (destOf c.src = t) || decide (destOf c.dst = t))
  || (d.ord.ea.any fun e => decide (e.link / 4 = t))

/-- In Run-Power-Capped, a tile with no bound link and no admitted work for 1 ms is parked (R36). -/
def execTilePark (dt t : Nat) (s : State) : Host.Outcome State Fault Refusal :=
  event dt s fun m p d =>
    if capped m p ∧ t < 64 ∧ ! d.tileBound t ∧ ! d.tileWork t ∧ d.since (d.weir.lastAdm.getD t 0) ≥ ms6 then d.fence t 1 else d

/-- A parked tile is woken by an admission request (R36). -/
def execTileUnpark (dt t : Nat) (s : State) : Host.Outcome State Fault Refusal :=
  event dt s fun _ _ d => if t < 64 then d.powerOn t else d

end Sys2Proof.Machine
end

