-- ==== Sys2Proof/Machine/Fabric.lean ====
section
/-! DEFINITION. The cell fabric (chapter 5): stage selection and transfers (R98–R101, R119), the Lock chambers (R109–R112),
missing numbers (R110), multicast (R115–R118, R129), planes (R120–R122) and pattern epochs (R123–R126). -/

namespace Sys2Proof.Machine

/-! ### Numbers of a sequence space -/

/-- The new space of a pair waits for the epoch close of its old one (R124). -/
def Dev.gated (d : Dev) (k : SpaceKey) : Bool := d.fab.closing.contains { k with par := ! k.par }

/-- A cell is gone from the device; a message ended by R110 is forgotten with its last cell. -/
def Dev.removeCell (d : Dev) (c : Cell) : Dev :=
  d.onFab fun f =>
    let cells := f.cells.filter fun x => decide (x.id ≠ c.id)
    { f with cells := cells, dead := f.dead.filter fun m => decide (m ≠ c.msg) || cells.any fun x => decide (x.msg = m) }

/-- The tile at which a Lock chamber's event is counted (R127). -/
def Cell.detTile (c : Cell) : Nat := (if c.dst ≥ 0x100 then c.src else c.dst) / 4 % 64

/-- A cell on its way that arrives at its destination later. -/
def Loc.enRoute : Loc → Bool
  | .input _ _ | .flight _ _ _ _ | .inter _ | .aside _ | .basin _ => true
  | _ => false

/-- A message leaves the fabric: its numbers not yet released count as declared missing, and its waiting cells are
discarded, or, unless `keep`, all of them. -/
def Dev.voidMsg (d : Dev) (p : Profile) (msg : Nat) (keep : Bool) : Dev :=
  let mine := (d.cellsOf msg).filter fun c => decide (c.kind ≠ 0xB)
  let nums := (mine.filter fun c => c.numbered && decide (c.seq ≥ d.relNext c.space)).map fun c => (c.space, c.seq)
  let stay (c : Cell) : Bool := decide (c.msg ≠ msg) || (keep && c.numbered && decide (c.kind ≠ 0xB) && c.loc.enRoute)
  let d := d.onFab fun f => { f with
    gone := f.gone ++ nums, cells := f.cells.filter stay
    dead := if f.cells.any fun c => decide (c.msg = msg) && stay c then f.dead ++ [msg] else f.dead }
  let d := d.onWeir fun w => { w with fly := w.fly.erase msg }
  let d := (nums.map (·.1)).eraseDups.foldl (fun d k => d.advance k (d.relNext k)) d
  match mine with
  | c :: _ => d.settle p c.dst c.q
  | [] => d

/-- The message of a cell is declared missing (R110): it is ended in the fabric and toward its initiator, counted and
logged. -/
def Dev.missing (d : Dev) (p : Profile) (c : Cell) (keep : Bool) : Dev :=
  let m := d.weir.fly.get? c.msg
  let d := d.voidMsg p c.msg keep
  let d := (d.count 0x051 c.detTile c.reach c.dst).sendFault 2 c.detTile 4 1 c.reach (c.src + 512 * c.trk)
  match m with
  | some m => d.endMsg m (if m.rsp.isSome then m.link else c.dst) 1
  | none => d

/-! ### Delivery -/

/-- The link is idle for R113: Q0–Q2 are empty and it is not sending. -/
def Dev.linkIdle (d : Dev) (l : Nat) : Bool :=
  ! d.fab.cells.any fun c => decide (c.dst = l) && (match c.loc with
    | .egress q => decide (q ≤ 2)
    | .sent => true
    | _ => false)

/-- A cell in sequence goes to its egress queue or Basin memory port. An epoch close cell closes its space (R124); a
Datagram message whose first cell finds Q7 of an Iggevo egress at its threshold is dropped whole (R139); the first
cell of a cut-through message counts the crossing (R113). -/
def Dev.deliver (d : Dev) (p : Profile) (c : Cell) : Dev :=
  if c.kind = 0xC then (d.removeCell c).onFab fun f => { f with closing := f.closing.filter fun k => decide (k ≠ c.space) }
  else if c.dst ≥ 0x100 then d.moveCell c.id .port
  else if c.cls = 5 ∧ c.sop ∧ d.isIggevo c.dst ∧ d.inQueue c.dst 7 ≥ d.queueTeff p c.dst 7 then
    (d.voidMsg p c.msg false).count 0x10E (c.dst / 4) 0x3F c.dst
  else
    let d := if c.sop && c.ct && d.linkIdle c.dst then
        (d.onEgr fun e => { e with cutMsgs := e.cutMsgs ++ [c.msg] }).count 0x10D (c.dst / 4) 0x3F c.dst
      else d
    d.toQueue p c

/-- A cell with the next number of its space is released. -/
def Dev.release (d : Dev) (p : Profile) (c : Cell) : Dev := (d.advance c.space (c.seq + 1)).deliver p c

/-- Cells that wait in the Lock chamber of a destination; epoch close cells take no waiting place (R112). -/
def Dev.lockUse (d : Dev) (dest : Nat) : Nat :=
  (d.fab.cells.filter fun c => c.loc == .lock && decide (destOf c.dst = dest) && decide (c.kind ≠ 0xC)).length

/-- A pinned cell shows every lower number of its space to be missing (R110). -/
def Dev.pinnedGap (p : Profile) (k : SpaceKey) (seq : Nat) : Nat → Dev → Dev
  | 0, d => d
  | f + 1, d =>
    if d.relNext k ≥ seq then d
    else
      let d := match d.fab.cells.find? fun x => x.numbered && decide (x.kind ≠ 0xB) && decide (x.space = k) && decide (x.seq = d.relNext k) with
        | some x => d.missing p x true
        | none => d.advance k (d.relNext k + 1)
      Dev.pinnedGap p k seq f d

/-- A cell reaches its destination from an intermediate (R109–R112). -/
def Dev.atDest (d : Dev) (p : Profile) (via : Nat) (c : Cell) : Dev :=
  let k := c.space
  let late (d : Dev) : Dev := (d.removeCell c).count 0x10C c.detTile 0x3F c.dst
  if c.kind = 0xB then
    (d.removeCell c).onFab fun f => { f with
      holds := if c.seq ≥ f.relNext.getD k 0 ∧ ! f.holds.contains (k, c.seq) then f.holds ++ [(k, c.seq)] else f.holds }
  else if d.fab.dead.contains c.msg ∨ c.seq < d.relNext k then late d
  else if c.pin then
    let d := Dev.pinnedGap p k c.seq (c.seq - d.relNext k) d
    if d.fab.dead.contains c.msg ∨ c.seq < d.relNext k then late d else d.release p c
  else if c.seq = d.relNext k ∧ ! d.gated k then d.release p c
  else if c.kind ≠ 0xC ∧ d.lockUse (destOf c.dst) ≥ 16384 then
    let d := (d.moveCell c.id (.aside via)).onFab fun f => { f with
      holds := if f.holds.contains (k, c.seq) then f.holds else f.holds ++ [(k, c.seq)] }
    d.count 0x127 c.detTile 0x3F c.dst
  else d.moveCell c.id .lock

/-! ### At the intermediate -/

/-- The state of a queue as the intermediates last received it; with overflow stopped none diverts (R135, R147). -/
def Dev.bcastState (d : Dev) (l q : Nat) : QSt :=
  match d.fab.bcast.getD (l, q) .direct with
  | .overflow => if d.noOverflow then .saturated else .overflow
  | x => x

/-- A hold notice for a cell sets out from an intermediate (R111). -/
def Dev.notice (d : Dev) (t : Nat) (c : Cell) : Dev :=
  d.onFab fun f => { f with
    cells := f.cells ++ [{ c with
      id := f.nextId, kind := 0xB, sop := true, eop := true, len := 0, data := [], loc := .inter t, ord := f.nextOrd
      elig := d.clk.cyc, bsn := false, resent := false }]
    nextId := f.nextId + 1, nextOrd := f.nextOrd + 1 }

/-- A cell is diverted to the Basin: stacks alternate for a queue (R137). -/
def Dev.divert (d : Dev) (c : Cell) : Dev :=
  let st := d.bas.next.getD (c.dst, c.q) 0
  (d.moveCell c.id (.basin st)).onBas fun b => { b with next := b.next.set (c.dst, c.q) (1 - st) }

/-- A sprayed cell for a link finds its queue's broadcast state at the intermediate (Table BASIN-3, R136, R138, R139). -/
def Dev.atInter (d : Dev) (t : Nat) (c : Cell) : Dev :=
  let hold (d : Dev) : Dev := (d.moveCell c.id (.aside t)).notice t c
  if c.pin ∨ c.kind = 0xC ∨ c.q < 3 ∨ (c.q = 7 ∧ d.isIggevo c.dst) then d.moveCell c.id (.inter t)
  else match d.bcastState c.dst c.q with
    | .direct => d.moveCell c.id (.inter t)
    | .overflow => if c.q = 7 ∨ d.shareFull c.reach then hold d else (d.divert c).notice t c
    | .saturated => hold d

/-! ### Selection -/

/-- The first cell of a FIFO. -/
def firstCell (l : List Cell) : Option Cell := l.foldl (fun o c => match o with
  | some x => if c.ord < x.ord then some c else o
  | none => some c) none

/-- The first cell, in FIFO order, of those for which `q` holds. -/
def Dev.fifo (d : Dev) (q : Cell → Bool) : Option Cell := firstCell (d.fab.cells.filter q)

/-- The tile that a pattern change takes out (R123). -/
def Dev.isLeaving (d : Dev) (t : Nat) : Bool :=
  match d.fab.repat with
  | some r => ! r.join && r.tiles.contains t
  | none => false

/-- A cell may take this plane: one that failed goes on the plane set for its resend (R101, R120). -/
def Cell.takes (c : Cell) (single : Bool) (plane : Nat) : Bool := ! c.resent || single || decide (c.plane = plane)

/-- The cell that an input sends to an intermediate on a plane (R106–R108, R119, Table CELL-7). -/
def Dev.pick1 (d : Dev) (plane t inter : Nat) : Option Cell :=
  let n := d.clk.cyc
  let single := decide (d.planesUsed.length ≤ 1)
  let pin := (d.fifo fun c => c.loc == .input t (some inter)).filter fun c => decide (c.elig ≤ n) && c.takes single plane
  match pin with
  | some c => some c
  | none =>
    if d.isLeaving inter then none
    else
      let head (g k : Nat) : Option Cell :=
        (d.fifo fun c => c.loc == .input t none && decide (c.cls = g) && decide (destOf c.dst = k)).filter fun c =>
          let k : SpaceKey := if c.numbered then c.space else { c with epoch := d.fab.parity }.space
          let num := if c.numbered then c.seq else d.fab.seqNext.getD k 0
          decide (c.elig ≤ n) && (single || decide (c.plane = plane)) && decide (num + 1 < d.fab.acked.getD k 0 + 4096)
      [3, 4, 5].findSome? fun g => (rotate 66 (n % 66) fun k => (head g k).isSome).bind (head g)

/-- The cell that an intermediate sends to an output tile on a plane (R111, R112, R119, Table CELL-7). -/
def Dev.pick2 (d : Dev) (plane t out : Nat) : Option Cell :=
  let n := d.clk.cyc
  let single := decide (d.planesUsed.length ≤ 1)
  let ok (c : Cell) : Bool := decide (c.elig ≤ n) && c.takes single plane
  let here (c : Cell) : Bool := c.loc == .inter t && decide (c.dst < 0x100) && decide (c.dst / 4 = out)
  let pinned := (List.range 4).findSome? fun i =>
    let l := 4 * out + (n + i) % 4
    (d.fifo fun c => here c && c.pin && decide (c.dst = l)).filter ok
  let notice := (d.fifo fun c => here c && ! c.pin && decide (c.kind = 0xB)).filter ok
  let back := (d.fifo fun c => here c && ! c.pin && decide (c.kind ≠ 0xB) && c.bsn).filter ok
  let spr (g : Nat) : Option Cell :=
    (d.fifo fun c => here c && ! c.pin && decide (c.kind ≠ 0xB) && ! c.bsn && decide (c.cls = g)).filter ok
  let aside := (d.fifo fun c => c.loc == .aside t && decide (c.dst / 4 = out) && decide (c.dst < 0x100)
    && (c.bsn || (c.q == 7 && d.isIggevo c.dst) || d.bcastState c.dst c.q == .direct)).filter ok
  pinned.or (notice.or (back.or ((spr 3).or ((spr 4).or ((spr 5).or aside)))))

/-- A cell sets out on a stage transfer; entering stage 1 it takes its number (R98, R107). -/
def Dev.fly (d : Dev) (stage plane src tile : Nat) (c : Cell) : Dev :=
  let c' : Cell := if c.numbered then c else { c with epoch := d.fab.parity, numbered := true }
  let (s, d) := if c.numbered then (c.seq, d) else d.takeSeq c'.space
  d.onCell c.id fun _ => { c' with seq := s, plane := plane, loc := .flight stage src tile plane, elig := d.clk.cyc + 4 }

/-- One cycle of a stage of a plane (R98, R100, Table CELL-7): one cell of each sending tile. -/
def execStageTransfer (dt plane stage : Nat) (s : State) : Host.Outcome State Fault Refusal :=
  event dt s fun _ p d =>
    let sv := ascending d.fab.inSvc
    let m := sv.length
    let shift := d.clk.cyc + plane * (m / 2)
    if ! d.planesUsed.contains plane then d
    else if stage = 1 then
      sv.foldl (fun d t =>
        let inter := tileAt sv ((posOf sv t + shift) % m)
        match d.pick1 plane t inter with
        | some c => d.fly 1 plane t inter c
        | none => d) d
    else if stage = 2 then
      let d := sv.foldl (fun d t =>
        let out := tileAt sv ((posOf sv t + shift) % m)
        match d.pick2 plane t out with
        | some c => d.fly 2 plane t out c
        | none => d) d
      sv.foldl (fun d t =>
        match d.fifo fun c => c.loc == .aside t && decide (c.dst ≥ 0x100) with
        | some c => d.atDest p t c
        | none => d) d
    else d

/-! ### The cell header -/

/-- Fields of a width and a value, the most significant first, as one number. -/
def packFields (l : List (Nat × Nat)) : Nat := l.foldl (fun v f => v * 2 ^ f.1 + f.2 % 2 ^ f.1) 0

/-- Bits [127:8] of the header that a cell carries (Table CELL-1), in the table's order: reserved bits are 0, and of the deadline the low
20 bits travel. -/
def Cell.headerBits (c : Cell) : Nat :=
  packFields [(9, c.dst), (9, c.src), (3, c.cls), (5, c.reach), (1, c.plane), (1, b2n c.pin), (1, b2n c.mcast), (2, c.colour)
    , (1, b2n c.epoch), (16, c.seq), (20, c.dl), (16, c.trk), (4, c.kind), (1, b2n c.sop), (1, b2n c.eop), (6, c.len), (1, b2n c.bsn)
    , (1, b2n c.ct), (22, 0)]

/-- The 128-bit header with its hcrc: the CRC-8 over bits [127:8], most significant bit first (R102). -/
def Cell.header (c : Cell) : Nat := c.headerBits * 256 + (crc8 (nb 15 c.headerBits).reverse).toNat

/-- The hcrc of a header word checks. -/
def headerChecks (w : Nat) : Bool := w % 256 == (crc8 (nb 15 (w / 256)).reverse).toNat

/-- A number names a destination or source (Table CELL-2). -/
def cellEnd (e : Nat) : Bool := decide (e ≤ 0x101)

/-- A header word whose hcrc checks holds a reserved value or a non-zero reserved bit, so that its cell is discarded (R104); kinds 0xB and
0xC are header only. -/
def headerMalformed (w : Nat) : Bool :=
  ! cellEnd (bits w 127 119) || ! cellEnd (bits w 118 110) || decide (bits w 109 107 ≥ 6) || bits w 98 97 == 3
  || decide (bits w 43 40 ≥ 0xD) || ((bits w 43 40 == 0xB || bits w 43 40 == 0xC) && bits w 37 32 != 0) || bits w 29 8 != 0

/-! ### Arrival of a transfer -/

/-- Two cells of one sending queue (R101). -/
def sameQueue (stage : Nat) (a b : Cell) : Bool :=
  a.pin == b.pin && (a.kind == 0xB) == (b.kind == 0xB) && a.bsn == b.bsn
  && (if a.pin then stage == 1 || a.dst == b.dst else a.cls == b.cls && (stage == 2 || destOf a.dst == destOf b.dst))

/-- A cell is discarded after it took its number; the message is incomplete (R101, R104). A discarded notice is forgotten,
and a discarded epoch close closes its space. -/
def Dev.loseCell (d : Dev) (c : Cell) : Dev :=
  if c.kind = 0xB then d.removeCell c
  else if c.kind = 0xC then (d.removeCell c).onFab fun f => { f with closing := f.closing.filter fun k => decide (k ≠ c.space) }
  else d.onCell c.id fun x => { x with loc := .lost }

/-- A transfer fails (R101, R120): the cell and those behind it from the same queue go back to be sent again, the first on
the other plane; one that failed before is discarded. -/
def Dev.xferFailed (d : Dev) (stage src tile plane : Nat) (c : Cell) : Dev :=
  let now := d.clk.t6
  let d := d.onFab fun f => { f with fails := f.fails.upd plane [] fun l => l.filter (fun t => decide (now - t < ms6)) ++ [now] }
  if c.resent then (d.sendFault 2 tile 2 1 c.reach 0).loseCell c
  else
    let other := match d.planesUsed.find? (fun x => decide (x ≠ plane)) with
      | some x => x
      | none => plane
    let back (x : Cell) : Bool := x.loc == .flight stage src tile plane && sameQueue stage c x && decide (x.ord ≥ c.ord)
    let n := (d.fab.cells.filter back).length
    let home (x : Cell) : Loc := if stage = 1 then .input src (if x.pin then some tile else none) else .inter src
    let cyc := d.clk.cyc
    let turn (x : Cell) : Cell :=
      if x.id = c.id then { x with loc := home x, elig := cyc, resent := true, plane := other }
      else if back x then { x with loc := home x, elig := cyc }
      else x
    let d := d.onFab fun f => { f with cells := f.cells.map turn }
    d.countN 0x10B tile 0x3F 7 plane n

def execCellArrival (dt id : Nat) (check : XferCheck) (s : State) : Host.Outcome State Fault Refusal :=
  event dt s fun _ p d =>
    match d.fab.cells.find? fun c => decide (c.id = id) with
    | some c =>
      match c.loc with
      | .flight stage src tile plane =>
        if d.clk.cyc < c.elig then d
        else match check with
          | .failed => d.xferFailed stage src tile plane c
          | .malformed => ((d.count 0x050 tile 0x3F tile).sendFault 2 tile 1 1 c.reach 0).loseCell c
          | _ =>
            let d := if check = .corrected then d.sendFault 2 tile 3 0 c.reach 0 else d
            let d := d.onCell id fun x => { x with resent := false }
            let c := { c with resent := false }
            if stage = 1 ∧ c.dst < 0x100 then d.atInter tile c
            else d.atDest p (if stage = 1 then tile else src) c
      | _ => d
    | none => d

/-! ### Lock chamber -/

/-- A waiting cell can be released. -/
def Dev.lockReady (d : Dev) (c : Cell) : Bool := c.loc == .lock && decide (c.seq = d.relNext c.space) && ! d.gated c.space

/-- The number of a source among the 66 of Table CELL-7. -/
def sourceIndex (src : Nat) : Nat := if src ≥ 0x100 then 64 + src % 2 else src / 4

/-- One release of a Lock chamber (R109, Table CELL-7). -/
def Dev.releaseOne (d : Dev) (p : Profile) (dest : Nat) : Dev :=
  let ready := d.fab.cells.filter fun c => decide (destOf c.dst = dest) && d.lockReady c
  let at_ (k g : Nat) : Option Cell := ready.find? fun c => decide (sourceIndex c.src = k) && decide (c.cls = g)
  let pick := (rotate 66 (d.clk.cyc % 66) fun k => ready.any fun c => decide (sourceIndex c.src = k)).bind fun k =>
    [3, 4, 5].findSome? fun g => at_ k g
  match pick with
  | some c => d.release p c
  | none => d

def execLockChamberRelease (dt dest : Nat) (s : State) : Host.Outcome State Fault Refusal :=
  event dt s fun _ p d => (d.releaseOne p dest).releaseOne p dest

/-- A Lock chamber acknowledges the releases of every sprayed space that has advanced (R108). -/
def execLockAck (dt dest : Nat) (s : State) : Host.Outcome State Fault Refusal :=
  event dt s fun _ _ d =>
    let moved := d.fab.relNext.filter fun e =>
      decide (destOf e.1.dst = dest) && decide (e.1.sp ≠ .pinned) && decide (d.fab.acked.getD e.1 0 < e.2)
    if moved.isEmpty then d
    else (d.onFab fun f => { f with acked := moved.foldl (fun t e => t.set e.1 e.2) f.acked }).nocSend
      (if dest < 64 then dest else dest + 14) 1

/-- Sixths of a nanosecond of a number of fabric cycles. -/
def Dev.cycles6 (d : Dev) (n : Nat) : Nat := n * (if d.clk.slow then 3 else 2)

/-- A sprayed number is declared missing (R110): it is the next of its space, it has no hold notice, and a later number has
waited 2 µs. -/
def execSeqMissing (dt src dest : Nat) (space : SeqSpace) (seq : Nat) (s : State) : Host.Outcome State Fault Refusal :=
  event dt s fun _ p d =>
    let due (par : Bool) : Bool :=
      let k : SpaceKey := { src, dst := dest, sp := space, par }
      let n := d.relNext k
      n % 65536 == seq && ! d.fab.holds.contains (k, n) && ! d.gated k
      && d.fab.cells.any fun c => c.loc == .lock && decide (c.space = k) && decide (d.cycles6 (d.clk.cyc - c.elig) ≥ 2 * us6)
    if space = .pinned then d
    else match [! d.fab.parity, d.fab.parity].find? due with
      | some par =>
        let k : SpaceKey := { src, dst := dest, sp := space, par }
        match d.fab.cells.find? fun c => c.numbered && decide (c.kind ≠ 0xB) && decide (c.space = k) && decide (c.seq = d.relNext k) with
        | some c => d.missing p c true
        | none => d.advance k (d.relNext k + 1)
      | none => d

/-! ### Multicast -/

/-- The Reach that owns a multicast group (R115). -/
def Dev.groupReach (d : Dev) (g : Nat) : Option Nat :=
  (List.range d.nReach).find? fun r => decide (r * 1024 / d.nReach ≤ g) && decide (g < (r + 1) * 1024 / d.nReach)

/-- The group at offset 0 (R128). -/
def groupIndex : Check := fun c =>
  match c.f.mbx with
  | .reach r => if c.u16 0 < 1024 ∧ c.d.groupReach (c.u16 0) = some r then none else some (plain .accessDenied)
  | _ => if c.u16 0 < 1024 then none else some (invalid 0)

/-- MCAST_GROUP_SET (R115, Table CELL-6). -/
def cmdMcastGroupSet : Cmd where
  op := 0x7001
  len := 44
  src := Src.operator
  fields := [groupIndex, rsvd 2 2,
    need 4 fun c => (bits (c.u8 4) 2 1 == 1 || bits (c.u8 4) 2 1 == 2) && bits (c.u8 4) 7 3 == 0,
    need 5 fun c => c.d.groupReach (c.u16 0) == some (c.u8 5),
    rsvdBits 6 7 2, rsvd 7 1, rsvd 40 4]
  state := stageChecks (fun c => c.u8 5) false fun _ => 1
  body := stages (fun c => c.u8 5) fun c => [({ op := 0x7001, a := c.u16 0 }, some (fit 44 c.f.payload))]

def execMcastGroupSet (dt : Nat) (f : Frame) (s : State) : Host.Outcome State Fault Refusal :=
  bilod cmdMcastGroupSet dt f s

/-- MCAST_GROUP_GET. -/
def cmdMcastGroupGet : Cmd where
  op := 0x7002
  len := 4
  src := Src.watch
  fields := [groupIndex, atMost 2 1, rsvd 3 1]
  body := reads fun c =>
    match c.d.view (c.u8 2 == 1) ((c.d.groupReach (c.u16 0)).getD 0) { op := 0x7001, a := c.u16 0 } with
    | some b => slice b 4 40
    | none => zeros 40

def execMcastGroupGet (dt : Nat) (f : Frame) (s : State) : Host.Outcome State Fault Refusal :=
  bilod cmdMcastGroupGet dt f s

/-- FABRIC_STATUS_GET. -/
def cmdFabricStatusGet : Cmd where
  op := 0x7000
  src := Src.watch
  body := reads fun c =>
    let f := c.d.fab
    nb 1 (bitsOf (fun i => c.d.planesUsed.contains i) 2) ++ nb 1 (b2n c.d.clk.slow) ++ nb 1 f.inSvc.length
      ++ nb 1 (b2n f.parity + 2 * b2n f.repat.isSome) ++ nb 8 (bitsOf f.inSvc.contains 64) ++ nb 4 f.count

def execFabricStatusGet (dt : Nat) (f : Frame) (s : State) : Host.Outcome State Fault Refusal :=
  bilod cmdFabricStatusGet dt f s

/-- The active entry of a replication group. -/
def Dev.isReplication (d : Dev) (g : Nat) : Bool :=
  match d.cfg { op := 0x7001, a := g } with
  | some b => (byteAt b 4).testBit 0 && bits (byteAt b 4) 2 1 == 2
  | none => false

/-- REPLICATE_WRITE (R129): a privileged write of the group's Reach toward every member, admitted as one multicast message. -/
def cmdReplicateWrite : Cmd where
  op := 0x7003
  len := 16
  ext := fun c => c.u32 12
  src := Src.operator
  long := true
  fields := [groupIndex, need 0 fun c => c.d.isReplication (c.u16 0), rsvd 2 2,
    need 4 fun c => c.u64 4 % 64 == 0,
    need 12 fun c => decide (64 ≤ c.u32 12) && decide (c.u32 12 ≤ 2048) && c.u32 12 % 64 == 0
      && decide (c.f.payload.length ≥ 16 + c.u32 12)]
  body := fun c =>
    let g := c.u16 0
    let r := (c.d.groupReach g).getD 0
    let from_ := (c.d.members g).head?.getD 0x100
    let id := c.d.weir.nextMsg
    let d := c.d.onFab fun f => { f with repl := f.repl.set id { long := (c.f.mbx, c.f.tag), group := g, parts := 1 } }
    let d := d.enqueue {
      id := 0, link := from_, kind := 1, cls := 3, reach := r, init := .mpc, acc := .write, priv := true, addr := c.u64 4
      len := c.u32 12, data := slice c.f.payload 16 (c.u32 12), dst := some (.group g), queued := true
      tIn := c.d.now, tP := c.d.now }
    (d, .started [])

def execReplicateWrite (dt : Nat) (f : Frame) (s : State) : Host.Outcome State Fault Refusal :=
  bilod cmdReplicateWrite dt f s

/-- Every copy of a multicast has answered: one aggregated response is sent (R117), or one part of a replication write
is over (R129). -/
def execMcastAggregate (dt tracker : Nat) (s : State) : Host.Outcome State Fault Refusal :=
  event dt s fun _ _ d =>
    match d.weir.trk.get? tracker with
    | some t =>
      if t.group.isNone ∨ t.left ≠ [] ∨ t.done then d
      else if t.init = .mpc then
        let d := d.dropTrk tracker
        match d.fab.repl.get? t.grp with
        | some r =>
          let d := d.onFab fun f => { f with repl := f.repl.set t.grp { r with parts := r.parts - 1, lost := r.lost ++ t.lost } }
          if r.parts ≤ 1 then d.finRepl t.grp false else d
        | none => d
      else
        let d := d.onTrk tracker fun t => { t with done := true, performed := true, rspOut := true }
        d.genRsp t.src tracker t 0 [] false false
    | none => d

/-! ### Planes and pattern epochs -/

/-- A plane goes out of service (R121): its transfers in flight are resent on the other plane; the loss of both is fatal. The fault
message has a detail if it is a loss (R523). -/
def Dev.planeOut (d : Dev) (p : Nat) (detail : Option Nat) : Dev :=
  let d := (d.onFab fun f => { f with planes := f.planes.set p false, fails := f.fails.erase p }).countDev 0x200 p
  let d := match detail with
    | some n => d.sendFault 2 p 0x10 0 0x3F n
    | none => d
  let d := if d.fab.planes.all (! ·) then d.sendFault 2 p 0x11 2 0x3F 0 else d
  let hit := d.fab.cells.filter fun c => match c.loc with
    | .flight _ _ _ q => decide (q = p)
    | _ => false
  let d := hit.foldl (fun d c => match c.loc with
    | .flight stage src tile _ =>
      (d.onCell c.id fun x => { x with
        loc := if stage = 1 then .input src (if x.pin then some tile else none) else .inter src
        elig := d.clk.cyc, plane := 1 - p }).count 0x10B tile 0x3F p
    | _ => d) d
  d.fence (72 + p) 1

/-- A plane is declared lost (R121): by 16 transfers failed within 1 ms, or by its built-in test. -/
def execPlaneLost (dt p : Nat) (builtInTestFailed : Bool) (s : State) : Host.Outcome State Fault Refusal :=
  event dt s fun _ _ d =>
    let n := ((d.fab.fails.getD p []).filter fun t => decide (d.since t < ms6)).length
    if p ≥ 2 ∨ ! d.fab.planes.getD p false ∨ ! (builtInTestFailed || decide (n ≥ 16)) then d
    else d.planeOut p (some (if builtInTestFailed then 0 else n))

/-- A cell that a pattern change waits for (R123, R125): one of an affected pair, or one in or on its way to the leaving
tile's intermediate. -/
def Dev.owed (d : Dev) (r : Repat) (c : Cell) : Bool :=
  let at_ : Bool := match c.loc with
    | .input _ (some t) | .inter t | .aside t | .flight 1 _ t _ | .flight 2 t _ _ => ! r.join && r.tiles.contains t
    | _ => false
  let inFabric : Bool := match c.loc with
    | .egress _ | .port | .sent => false
    | _ => true
  inFabric && (at_ || (if c.pin then d.affected c.src c.dst else r.tiles.contains (destOf c.src) || r.tiles.contains (destOf c.dst)))

/-- The epoch close cells of the old sprayed spaces (R124). -/
def Dev.closeCells (d : Dev) (keys : List SpaceKey) : Dev :=
  keys.foldl (fun d k =>
    let (sq, d) := d.takeSeq k
    let port := decide (k.src ≥ 0x100)
    let c : Cell := {
      id := d.fab.nextId, msg := 0, dst := k.dst, src := if port then k.src else 4 * k.src
      cls := match k.sp with
        | .bulk => 4
        | .datagram => 5
        | _ => 3
      reach := 0, pin := false, kind := 0xC, epoch := k.par, seq := sq, numbered := true, elig := d.clk.cyc
      plane := (d.planesUsed.head?).getD 0
      loc := if port then .inter (tileAt d.fab.inSvc (d.clk.cyc % max 1 d.fab.inSvc.length)) else .input k.src none }
    d.onFab fun f => { f with cells := f.cells ++ [c], nextId := f.nextId + 1 }) d

/-- The pattern changes at a commit epoch (R123, R124, R126): every source closes its old spaces and starts new ones at 0
with the new parity; copies toward a removed tile are undeliverable (R118), and its Sluice fences it (Table CELL-8). -/
def Dev.patternEpoch (d : Dev) (r : Repat) : Dev :=
  let f := d.fab
  let open_ := (f.seqNext.filter fun e => decide (e.1.par = f.parity) && decide (e.1.sp ≠ .pinned)).map (·.1)
  let touches (k : SpaceKey) : Bool := ! r.join && (r.tiles.contains (sourceIndex (if k.src ≥ 0x100 then k.src else 4 * k.src)) || r.tiles.contains (destOf k.dst))
  let keys := open_.filter fun k => ! touches k
  let d := d.closeCells keys
  let old (k : SpaceKey) : Bool := decide (k.par = f.parity)
  let d := d.onFab fun x => { x with
    closing := keys, parity := ! f.parity, count := f.count + 1, repat := none, inSvc := r.apply f.inSvc
    seqNext := x.seqNext.filter fun e => old e.1
    relNext := x.relNext.filter fun e => old e.1
    acked := x.acked.filter fun e => old e.1
    holds := x.holds.filter fun e => old e.1
    gone := x.gone.filter fun e => old e.1
    removed := if r.join then x.removed.filter fun t => ! r.tiles.contains t else x.removed ++ r.tiles }
  let d := d.countDev 0x201
  if r.join then d
  else
    let d := d.copiesLost fun l => r.tiles.contains (destOf l)
    r.tiles.foldl (fun d t => d.fence t 2) d

def execPatternEpoch (dt : Nat) (s : State) : Host.Outcome State Fault Refusal :=
  event dt s fun _ _ d =>
    match d.fab.repat with
    | some r => if d.fab.closing = [] ∧ ! d.fab.cells.any (d.owed r) then d.patternEpoch r else d
    | none => d

/-- 100 µs after a pattern change was requested, what is still owed is declared missing (R125). -/
def execPatternChangeTimeout (dt : Nat) (s : State) : Host.Outcome State Fault Refusal :=
  event dt s fun _ p d =>
    match d.fab.repat with
    | some r =>
      if d.since r.t6 < 100 * us6 then d
      else
        let due := d.fab.cells.filter fun c => d.owed r c || (d.fab.closing.contains c.space && c.numbered && decide (c.kind ≠ 0xB)
          && decide (c.seq ≥ d.relNext c.space))
        let d := due.foldl (fun d c =>
          if ! d.fab.cells.any (fun x => decide (x.id = c.id)) then d
          else if c.kind = 0xC ∨ c.kind = 0xB then d.removeCell c
          else d.missing p c false) d
        d.onFab fun f => { f with closing := [] }
    | none => d

end Sys2Proof.Machine
end

