-- ==== Sys2Proof/Machine/Basin.lean ====
section
/-! DEFINITION. Buffers and the Basin (chapter 6), with the Basin memory ports of chapter 8: diversion and return, Basin
memory reads, writes and AtomicOps, scrubbing, the loss of a stack, and the commands of Table BASIN-6. -/

namespace Sys2Proof.Machine

/-! ### Diversion and return -/

/-- A cell set aside for a Saturated queue diverts once the queue is in Overflow and its Reach has room (Table BASIN-3). -/
def Dev.divertWaiting (d : Dev) (c : Cell) : Dev :=
  match c.loc with
  | .aside _ =>
    if c.dst < 0x100 && ! c.bsn && decide (3 ≤ c.q) && decide (c.q ≤ 6) && ! d.shareFull c.reach
        && d.bcastState c.dst c.q == .overflow then d.divert c else d
  | _ => d

/-- Every egress broadcasts the states of its queues (R135); cells that wait at intermediates follow them. -/
def execQueueStateBroadcast (dt : Nat) (s : State) : Host.Outcome State Fault Refusal :=
  event dt s fun _ _ d =>
    let d := d.onFab fun f => { f with bcast := d.bas.qst }
    d.fab.cells.foldl (fun d c => d.divertWaiting c) d

/-- The oldest held cell of a queue. -/
def Dev.firstHeld (d : Dev) (l q : Nat) : Option Cell :=
  d.fifo fun c => decide (c.dst = l) && decide (c.q = q) && (match c.loc with
    | .basin _ => true
    | _ => false)

/-- The queue takes cells back from the Basin (Table BASIN-3). -/
def Dev.takesBack (d : Dev) (p : Profile) (l q : Nat) : Bool :=
  match d.qState l q with
  | .direct => false
  | .overflow => decide (2 * d.inQueue l q < d.queueTeff p l q)
  | .saturated => decide (d.inQueue l q < d.queueTeff p l q)

/-- A held cell returns: it enters stage 2 with bsn set, at position n mod M (R137, R119). -/
def execBasinReturn (dt link q : Nat) (s : State) : Host.Outcome State Fault Refusal :=
  event dt s fun _ p d =>
    match d.firstHeld link q with
    | some c =>
      if d.takesBack p link q then
        let m := d.fab.inSvc.length
        let d := d.moveCell c.id (.inter (tileAt d.fab.inSvc (d.clk.cyc % max 1 m)))
        (d.onCell c.id fun x => { x with bsn := true }).settle p link q
      else d
    | none => d

/-- A held cell is lost (R146): its hold notice is withdrawn, and the cell is counted and logged. -/
def Dev.heldLost (d : Dev) (p : Profile) (c : Cell) (stack : Nat) : Dev :=
  let d := d.onFab fun f => { f with
    holds := f.holds.filter fun x => decide (x ≠ (c.space, c.seq))
    cells := f.cells.filter fun x => ! (decide (x.kind = 0xB) && decide (x.msg = c.msg) && decide (x.seq = c.seq) && decide (x.space = c.space)) }
  let d := if d.fab.dead.contains c.msg then d.removeCell c else d.onCell c.id fun x => { x with loc := .lost }
  ((d.countDev 0x202 stack).sendFault 3 stack 3 1 c.reach (c.dst + 512 * c.q)).settle p c.dst c.q

def execBasinCellLost (dt id : Nat) (s : State) : Host.Outcome State Fault Refusal :=
  event dt s fun _ p d =>
    match d.fab.cells.find? fun c => decide (c.id = id) with
    | some c => match c.loc with
      | .basin st => d.heldLost p c st
      | _ => d
    | none => d

/-! ### Basin controllers -/

/-- A requester of Table BASIN-4 has work: 0 overflow write, 1 overflow return, 2 the Basin memory port, 3 the Dredger. A
diverted cell is written when it diverts. -/
def Dev.hasWork (d : Dev) (stack : Nat) : Nat → Bool
  | 0 => false
  | 1 => d.fab.cells.any fun c => c.loc == .basin stack
  | 2 => d.fab.cells.any fun c => c.loc == .port && decide (c.dst = 0x100 + stack)
  | _ => true

/-- The owner of a slot of a frame (Table BASIN-4), its slots in the order of the table. With the other stack lost, the
overflow slots go to the Basin memory port (R147). -/
def slotOwner (overflow : Bool) (slot : Nat) : Nat :=
  if slot < 5 then (if overflow then 0 else 2) else if slot < 10 then (if overflow then 1 else 2)
  else if slot < 15 then 2 else 3

/-- One frame slot is granted (R144, R529): to its owner, or, if that leaves it unused, in rotating priority. -/
def execBasinSlot (dt stack : Nat) (s : State) : Host.Outcome State Fault Refusal :=
  event dt s fun _ _ d =>
    if stack ≥ 2 ∨ d.bas.stack.getD stack .lost ≠ .inService then d
    else
      let slot := d.bas.frame.getD stack 0
      let own := slotOwner (! d.bas.stack.contains .lost) slot
      let got := if d.hasWork stack own then own else (rotate 4 (d.clk.cyc % 4) (d.hasWork stack)).getD own
      d.onBas fun b => { b with frame := b.frame.set stack ((slot + 1) % 16), grant := b.grant.set stack got }

/-! ### Basin memory ports -/

/-- The message whose cells all lie at a Basin memory port and that the port serves next among those of its lines (R144). -/
def Dev.portMsg (d : Dev) (port id : Nat) : Option Msg :=
  match d.weir.fly.get? id with
  | some x =>
    let mine := d.cellsOf id
    let here (c : Cell) : Bool := c.loc == .port && decide (c.dst = 0x100 + port)
    let first := ((firstCell mine).map (·.ord)).getD 0
    let ahead := d.fab.cells.any fun c => here c && decide (c.msg ≠ id) && decide (c.ord < first)
      && (match d.weir.fly.get? c.msg with
        | some y => decide (y.off / 64 ≤ (x.off + max 1 x.len - 1) / 64) && decide (x.off / 64 ≤ (y.off + max 1 y.len - 1) / 64)
        | none => false)
    let whole := mine.any (·.sop) && mine.any (·.eop) && mine.all here
    if whole && ! ahead then some x else none
  | none => none

/-- The bytes that a write changes: every byte of a CXL.mem write; of a CXL.io write those that the byte enables of its first
(bits 3:0) and last (bits 7:4) doubleword leave. -/
def Msg.writeCells (x : Msg) : List Host.Cell :=
  let all := cellsAt x.off (fit x.len x.data)
  if x.kind ≠ 7 ∨ x.be = 0xFF then all
  else
    let first := x.addr / 4
    let last := (x.addr + max 1 x.len - 1) / 4
    all.filter fun c =>
      let a := x.addr + (c.1 - x.off)
      if a / 4 = first then x.be.testBit (a % 4) else if a / 4 = last then x.be.testBit (4 + a % 4) else true

/-- A write reaches Basin memory: the bytes, the poison marks, and what it does to reservations (R145, R190). -/
def Dev.applyWrite (d : Dev) (m : Mem) (init : Init) (port off len : Nat) (cells : List Host.Cell) (poison : Bool) : Dev × Mem :=
  let m := m.putAll cells
  let m := if poison then (List.range (ceilDiv (off % 64 + len) 64)).foldl (fun m k => m.mark ((off / 64 + k) * 64)) m else m.unmark fun k => decide ((cells.filter fun c => decide (k ≤ c.1) && decide (c.1 < k + 64)).length = 64)
  (d.monWrite init (0x100 + port) off len, m)

/-- The request at a Basin memory port has been served. -/
def Dev.portDone (d : Dev) (x : Msg) (port i status : Nat) (data : Bytes) (poison : Bool) : Dev :=
  ((d.dropCells x.id).lineDone x.id).answered (0x100 + port) i status data poison

/-- A Basin memory port serves a read or a write (R141, R188, R189). -/
def execBasinMemoryAccess (dt port id : Nat) (s : State) : Host.Outcome State Fault Refusal :=
  memEvent dt s fun _ _ d m =>
    match d.portMsg port id with
    | some x =>
      let i := x.trk.getD 65536
      if d.bas.stack.getD port .lost = .lost then ((d.sendFault 1 (x.link % 256 / 4) 2 1 x.reach x.addr).portDone x port i 1 [] false, m)
      else match x.acc with
        | .read | .lockRead =>
          let d := if x.resv then d.monSet x.init x.reach (0x100 + port) x.off else d
          (d.portDone x port i 0 (m.read x.off x.len) (m.poisoned x.off x.len), m)
        | .write =>
          let (ok, d) := if x.resv then d.monStore x.init x.reach (0x100 + port) x.off else (true, d)
          let (d, m) := if ok then d.applyWrite m x.init port x.off x.len x.writeCells x.poison else (d, m)
          (d.portDone x port i 0 [] false, m)
        | _ => (d, m)
    | none => (d, m)

/-- The value that an AtomicOp writes (0 FetchAdd, 1 Swap, 2 CAS with the compare value first), from the original value and
the operands of `n` bytes; `none` if it does not write. -/
def aopResult (aop n : Nat) (old operand : Bytes) : Option Bytes :=
  match aop with
  | 0 => some (nb n (leN old 0 n + leN operand 0 n))
  | 1 => some (fit n operand)
  | _ => if old = slice operand 0 n then some (slice operand n n) else none

/-- A Basin memory port executes an AtomicOp and returns the original value (R184, R185). FetchAdd and Swap take 4 or 8
bytes, CAS 4, 8 or 16; another size is an Unsupported Request. -/
def execBasinAtomicop (dt port id : Nat) (s : State) : Host.Outcome State Fault Refusal :=
  memEvent dt s fun _ _ d m =>
    match d.portMsg port id with
    | some x =>
      let i := x.trk.getD 65536
      match x.acc with
      | .atomic aop n =>
        if d.bas.stack.getD port .lost = .lost then ((d.sendFault 1 (x.link % 256 / 4) 2 1 x.reach x.addr).portDone x port i 1 [] false, m)
        else if ! (n = 4 ∨ n = 8 ∨ (n = 16 ∧ aop = 2)) then (d.portDone x port i 1 [] false, m)
        else
          let old := m.read x.off n
          let bad := m.poisoned x.off n
          let (d, m) := match aopResult aop n old x.data with
            | some v => d.applyWrite m x.init port x.off n (cellsAt x.off v) bad
            | none => (d, m)
          (d.portDone x port i 0 old bad, m)
      | _ => (d, m)
    | none => (d, m)

/-! ### Scrubbing -/

/-- The Basin memory offset of a stack address, if it lies in Basin memory (R141). -/
def Dev.stackOffset (d : Dev) (stack addr : Nat) : Option Nat :=
  if stack = 0 then (if addr < d.basinK.1 * gib then some addr else none)
  else if addr < d.basinK.2 * gib then some (d.basinK.1 * gib + addr) else none

/-- Lines of 64 bytes of a stack of 16 GiB (R11). -/
def stackLines : Nat := 16 * gib / 64

/-- An uncorrectable line was seen in a stack (R147). -/
def Dev.lineError (d : Dev) (stack : Nat) : Dev :=
  let now := d.clk.t6
  d.onBas fun b => { b with errs := b.errs.upd stack [] fun l => l.filter (fun t => decide (now - t < s6)) ++ [now] }

/-- The Dredger has read a line; a pass of both stacks, a lost one left out, ends task 0 (R145, R427, R428). -/
def Dev.scrubbed (d : Dev) (stack line : Nat) : Dev :=
  let d := d.onBas fun b => { b with scrubAt := b.scrubAt.set stack (line + 1) }
  let excess (k : Nat) : Bool := d.bas.stack.getD k .lost != .inService || decide (d.bas.scrubAt.getD k 0 ≥ stackLines)
  if excess 0 && excess 1 then (d.onBas fun b => { b with scrubAt := [] }).taskPass 0 else d

/-- The Dredger reads a line (R145, R146). -/
def execDredgerScrub (dt stack line : Nat) (found : ScrubResult) (s : State) : Host.Outcome State Fault Refusal :=
  memEvent dt s fun _ p d m =>
    if stack ≥ 2 ∨ line ≥ stackLines ∨ d.bas.stack.getD stack .lost ≠ .inService then (d, m)
    else
      let addr := line * 64
      match found with
      | .clean => (d.scrubbed stack line, m)
      | .corrected _ => (((d.count 0x123 64 0x3F stack).sendFault 3 stack 1 0 0x3F addr).scrubbed stack line, m)
      | .uncorrectable cell =>
        let d := (d.lineError stack).scrubbed stack line
        match d.stackOffset stack addr with
        | some off => (d.sendFault 3 stack 2 1 ((d.gibOwner false 0 (off / gib)).getD 0x3F) off, m.mark off)
        | none =>
          match cell.bind fun id => d.fab.cells.find? fun c => decide (c.id = id) && c.loc == .basin stack with
          | some c => (d.heldLost p c stack, m)
          | none => (d, m)

/-- A stack goes out of service (R147): overflow stops, its held cells are lost, reservations on it are lost. The fault message has
a cause if it is a loss (R523). -/
def Dev.stackOut (d : Dev) (p : Profile) (stack : Nat) (cause : Option Nat) : Dev :=
  let d := d.onBas fun b => { b with stack := b.stack.set stack .lost, stopOvf := true }
  let d := (d.bas.qst.filter fun e => e.2 == .overflow).foldl (fun d e =>
    (d.onBas fun b => { b with qst := b.qst.set e.1 .saturated }).count 0x061 (e.1.1 / 4) 0x3F e.1.1) d
  let held := d.fab.cells.filter fun c => c.loc == .basin stack
  let d := (held.foldl (fun d c => d.heldLost p c stack) d).countDev 0x203 stack
  let d := match cause with
    | some n => d.sendFault 3 stack 4 1 0x3F n
    | none => d
  (d.loseMons (fun x => decide (x.dst = 0x100 + stack)) 5).fence (78 + stack) 2

/-- A stack is lost (R147); cause 2 needs 16 uncorrectable lines within 1 s. -/
def execStackLost (dt stack cause : Nat) (s : State) : Host.Outcome State Fault Refusal :=
  event dt s fun _ p d =>
    let n := ((d.bas.errs.getD stack []).filter fun t => decide (d.since t < s6)).length
    if stack ≥ 2 ∨ d.bas.stack.getD stack .lost = .lost ∨ cause = 0 ∨ cause > 3 ∨ (cause = 2 ∧ n < 16) then d
    else d.stackOut p stack (some cause)

/-- Zeroing of an unbound GiB is complete (R142). -/
def execBasinGibCleared (dt g : Nat) (s : State) : Host.Outcome State Fault Refusal :=
  memEvent dt s fun _ _ d m =>
    if d.bas.clearing.contains g then
      (d.onBas fun b => { b with clearing := b.clearing.filter fun x => decide (x ≠ g) }, m.clear (g * gib) gib)
    else (d, m)

/-! ### Commands -/

/-- BASIN_LAYOUT_SET (R140). -/
def cmdBasinLayoutSet : Cmd where
  op := 0x4080
  len := 4
  src := Src.admin
  mode := fun m => m == .configure
  fields := [atMost 0 12, atMost 1 12, rsvd 2 2]
  state := stageChecks (fun _ => devSet) false fun _ => 1
  body := stages (fun _ => devSet) fun c => [({ op := 0x4080 }, some (fit 4 c.f.payload))]

def execBasinLayoutSet (dt : Nat) (f : Frame) (s : State) : Host.Outcome State Fault Refusal :=
  bilod cmdBasinLayoutSet dt f s

/-- BASIN_STATUS_GET. -/
def cmdBasinStatusGet : Cmd where
  op := 0x4081
  len := 1
  src := Src.watch
  fields := [reachAt 0]
  body := reads fun c =>
    let st (k : Nat) : Nat := match c.d.bas.stack.getD k .inService with
      | .inService => 0
      | .lost => 1
      | .returning => 2
    nb 1 (st 0) ++ nb 1 (st 1) ++ nb 1 c.d.basinK.1 ++ nb 1 c.d.basinK.2 ++ nb 8 c.d.overflowShare
      ++ nb 8 (c.d.overflowUse (c.u8 0)) ++ nb 4 (c.d.task 0).passes

def execBasinStatusGet (dt : Nat) (f : Frame) (s : State) : Host.Outcome State Fault Refusal :=
  bilod cmdBasinStatusGet dt f s

/-- The set in which a bind or an unbind is staged (R142). -/
def Ctx.bindSet (c : Ctx) : Nat := if c.u8 1 = 0xFF then (c.d.gibOwner false 0 (c.u8 0)).getD devSet else c.u8 1

/-- BASIN_MEMORY_BIND (R142). -/
def cmdBasinMemoryBind : Cmd where
  op := 0x4082
  len := 4
  src := Src.operator
  fields := [need 0 fun c => decide (c.u8 0 < c.d.basinK.1 + c.d.basinK.2),
    need 1 fun c => if c.u8 1 = 0xFF then (c.d.gibOwner false 0 (c.u8 0)).isSome else decide (c.u8 1 < c.d.nReach),
    rsvd 2 2]
  state := require .busy (fun c => ! c.d.bas.clearing.contains (c.u8 0)) :: stageChecks Ctx.bindSet false fun _ => 1
  body := stages Ctx.bindSet fun c => [({ op := 0x4082, a := c.u8 0 }, some (fit 4 c.f.payload))]

def execBasinMemoryBind (dt : Nat) (f : Frame) (s : State) : Host.Outcome State Fault Refusal :=
  bilod cmdBasinMemoryBind dt f s

/-- What BASIN_MEMORY_GET shows of a GiB. A staged view is that of the lowest set that stages the GiB, on a Reach mailbox of
its own set. -/
def Ctx.gibByte (c : Ctx) (g : Nat) : Nat :=
  let key : CfgKey := { op := 0x4082, a := g }
  let sets := match c.f.mbx with
    | .reach r => [r]
    | _ => List.range 32
  let set := (sets.find? fun i => ((c.d.set i).changes.get? key).isSome).getD 0
  if g ≥ c.d.basinK.1 + c.d.basinK.2 then 0xFC
  else if c.u8 0 = 0 ∧ c.d.bas.clearing.contains g then 0xFE
  else match c.d.gibOwner (c.u8 0 == 1) set g, c.f.mbx with
    | some o, .reach r => if o = r then o else 0xFD
    | some o, _ => o
    | none, _ => 0xFF

/-- BASIN_MEMORY_GET. -/
def cmdBasinMemoryGet : Cmd where
  op := 0x4083
  len := 1
  src := Src.watch
  fields := [atMost 0 1]
  body := reads fun c => (List.range 24).flatMap fun g => nb 1 (c.gibByte g)

def execBasinMemoryGet (dt : Nat) (f : Frame) (s : State) : Host.Outcome State Fault Refusal :=
  bilod cmdBasinMemoryGet dt f s

/-- The write of BASIN_FILL as a message of the management processor. -/
def Ctx.fillMsg (c : Ctx) : Msg :=
  { id := 0, link := 0, kind := 1, cls := 3, reach := c.u8 0, init := .mpc, acc := .write, priv := true, addr := c.u64 4, len := c.u64 12 }

/-- The bursts of BASIN_FILL: the range cut at multiples of 64 KiB (R143). -/
def bursts (addr len : Nat) : List (Nat × Nat) :=
  let first := addr / 65536
  (List.range (ceilDiv (addr % 65536 + len) 65536)).map fun k =>
    let a := max addr ((first + k) * 65536)
    (a, min (addr + len) ((first + k + 1) * 65536) - a)

/-- The parts of BASIN_FILL with their checks; a part that is not of Basin memory is a permission fault (R143). -/
def Ctx.fillParts (c : Ctx) : List Piece :=
  (bursts (c.u64 4) (c.u64 12)).flatMap fun b =>
    (c.d.split c.p c.fillMsg b.2 b.1 b.2).map fun x => if x.fault = 0 ∧ x.e < 0x100 then { x with fault := 2 } else if x.fault = 4 then { x with fault := 2 } else x

/-- BASIN_FILL (R143): what it does to the device; the memory follows in the row. -/
def cmdBasinFill : Cmd where
  op := 0x4084
  len := 28
  src := Src.operator
  long := true
  fields := [reachAt 0, rsvd 1 3, need 4 fun c => c.u64 4 % 64 == 0,
    need 12 fun c => c.u64 12 % 64 == 0 && decide (c.u64 12 ≤ gib)]
  body := fun c =>
    let parts := c.fillParts
    let ok := parts.filter fun x => decide (x.fault = 0)
    let bad := parts.filter fun x => decide (x.fault ≠ 0)
    let d := bad.foldl (fun d x => d.pieceFault c.fillMsg x) c.d
    let d := ok.foldl (fun d x => d.monWrite .mpc x.e x.off x.len) d
    (d, .ended .success (nb 8 (ok.map (·.len)).sum ++ nb 8 ((bad.head?.map (·.addr)).getD (2 ^ 64 - 1))))

/-- The memory after BASIN_FILL: its pattern over every part that passed. -/
def Ctx.filled (c : Ctx) (m : Mem) : Mem :=
  (c.fillParts.filter fun x => decide (x.fault = 0)).foldl (fun m x =>
    (m.putAll ((List.range x.len).map fun i => (x.off + i, BitVec.ofNat 8 (byteAt c.f.payload (20 + (x.addr + i) % 8))))).unpoison x.off x.len) m

/-- The context in which an accepted frame is served. -/
def State.ctx (s : State) (f : Frame) : Ctx := { m := s.mode, p := s.profile, d := s.dev.served f, f := f }

def execBasinFill (dt : Nat) (f : Frame) (s : State) : Host.Outcome State Fault Refusal :=
  let t := s.elapse dt
  .next { t with
    dev := cmdBasinFill.serve f t.mode t.profile t.dev
    mem := if cmdBasinFill.accepts f t.mode t.profile t.dev then (t.ctx f).filled t.mem else t.mem }

/-- The sum of the thresholds with the one of the frame (R132). -/
def Ctx.poolSum (c : Ctx) : Nat :=
  (c.d.links.map fun l => ((List.range 5).map fun k =>
    if l = c.u16 0 ∧ k + 3 = c.u8 2 then c.u32 4 else c.d.queueT true l (k + 3)).sum).sum

/-- QUEUE_THRESHOLD_SET (R132, R133). -/
def cmdQueueThresholdSet : Cmd where
  op := 0x4085
  len := 12
  src := Src.operator
  fields := [linkAt 0, need 2 fun c => decide (3 ≤ c.u8 2) && decide (c.u8 2 ≤ 7), rsvd 3 1,
    need 4 fun c => decide (64 ≤ c.u32 4) && decide (c.u32 4 ≤ 65536),
    need 8 fun c => c.u8 2 != 7 || c.u32 8 == 0]
  state := require .resourceExhausted (fun c => decide (c.poolSum ≤ 786432))
    :: stageChecks (fun c => c.d.linkSet (c.u16 0)) false fun _ => 1
  body := stages (fun c => c.d.linkSet (c.u16 0)) fun c => [({ op := 0x4085, a := c.u16 0, b := c.u8 2 }, some (fit 12 c.f.payload))]

def execQueueThresholdSet (dt : Nat) (f : Frame) (s : State) : Host.Outcome State Fault Refusal :=
  bilod cmdQueueThresholdSet dt f s

/-- QUEUE_STATUS_GET. -/
def cmdQueueStatusGet : Cmd where
  op := 0x4086
  len := 3
  src := Src.watch
  fields := [linkAt 0, ownLinkAt 0, need 2 fun c => decide (3 ≤ c.u8 2) && decide (c.u8 2 ≤ 7)]
  body := reads fun c =>
    let l := c.u16 0
    let q := c.u8 2
    let st : Nat := match c.d.qState l q with
      | .direct => 0
      | .overflow => 1
      | .saturated => 2
    nb 4 st ++ nb 4 (c.d.queueT false l q) ++ nb 4 (c.d.queueTeff c.p l q) ++ nb 4 (c.d.holdLimit c.p l q)
      ++ nb 4 (c.d.inQueue l q) ++ nb 4 (c.d.heldCells l q)

def execQueueStatusGet (dt : Nat) (f : Frame) (s : State) : Host.Outcome State Fault Refusal :=
  bilod cmdQueueStatusGet dt f s

/-- On a Reach mailbox the tile at an offset has a link of the Reach. -/
def ownTileAt (o : Nat) : Check := fun c =>
  match c.f.mbx with
  | .reach r => if (c.d.tileLinks (c.u8 o)).any (c.d.ownsPart r) then none else some (plain .accessDenied)
  | _ => none

/-- BUFFER_STATUS_GET. -/
def cmdBufferStatusGet : Cmd where
  op := 0x4087
  len := 1
  src := Src.watch
  fields := [atMost 0 63, ownTileAt 0]
  body := reads fun c =>
    nb 4 (c.d.strictUse (c.u8 0)) ++ nb 4 (c.d.pinnedUse (c.u8 0)) ++ nb 4 c.d.egressUse ++ nb 4 c.d.transitUse

def execBufferStatusGet (dt : Nat) (f : Frame) (s : State) : Host.Outcome State Fault Refusal :=
  bilod cmdBufferStatusGet dt f s

end Sys2Proof.Machine
end

