-- ==== Sys2Proof/Machine/Flits.lean ====
section
/-! DEFINITION. The flits of an Iggevo link (chapter 9): credit classes and the credit test (R199, R211), tracks (R204), and
sending flits (R197, R206, R208, R214). -/

namespace Sys2Proof.Machine

/-- The credit class of a queue's messages (Tables LINK-6 and SCHED-2). -/
def creditClass (q : Nat) (rsp : Bool) : Nat :=
  match q with
  | 0 | 7 => 5 | 1 | 2 => if rsp then 1 else 0 | 3 => 3 | 4 => 2 | _ => 4

/-- The minimum and maximum that the MH-6410 advertises for a class (Table LINK-6). -/
def creditMin : Nat := 64
/-- The advertised maximum of a class. -/
def creditMax (c : Nat) : Nat := [448, 448, 3712, 3712, 3712, 128].getD c 0

/-- A message of `n` slots in a class has credit (R211). -/
def Ig.credit (g : Ig) (c n : Nat) : Bool :=
  let u (k : Nat) : Nat := g.u.getD k 0 + (if k = c then n else 0)
  decide (u c ≤ g.pMax.getD c 0)
  && decide (((List.range 6).map fun k => u k - g.pMin.getD k 0).sum + g.pMin.sum ≤ g.pPool)

/-- No message is open on a track: the messages of queue `q` travel on track `q` (R232). -/
def Ig.trackFree (g : Ig) (q : Nat) : Bool := (g.txTrk.get? q).isNone

/-- A slot descriptor (Table LINK-5). -/
def slotDesc (cls track : Nat) (sop eop : Bool) : Nat := 32 * cls + 4 * track + 2 * b2n sop + b2n eop

/-- The lanes of a mask, ascending. -/
def maskLanes (m : Nat) : List Nat := (List.range 8).filter m.testBit

/-- Every bit of `a` is set in `b`. -/
def subMask (a b : Nat) : Bool := (maskLanes a).all b.testBit

/-- The link command and argument of a header that leaves (Table LINK-4): the announcement of a countdown (R214), a request to the
partner until its announcement comes (R215), or NOP. -/
def Ig.command (g : Ig) : Nat × Nat :=
  match g.cd, g.req, g.cdRx with
  | some (m, c), _, _ => if c = 0 then (0, 0) else (if subMask m g.txMask then 2 else 3, 256 * m + c)
  | none, some m, none => (if subMask m g.rxMask then 2 else 3, 256 * m)
  | none, _, _ => (0, 0)

/-- The header of a flit that leaves (Table LINK-3): flit n reports the credit counter of class n mod 6 (R212), and an empty slot has
descriptor 0xE0. -/
def Ig.header (g : Ig) (cmd : Nat × Nat) (seq : Nat) (descs : List Nat) : BitVec 128 :=
  let c := g.txN % 6
  BitVec.ofNat 128 (2 ^ 124 * cmd.1 + 2 ^ 112 * seq + 2 ^ 100 * g.ack + 2 ^ 98 * g.rr + 2 ^ 95 * c + 2 ^ 82 * g.f.getD c 0
    + 2 ^ 64 * cmd.2 + ((List.range 8).map fun k => 2 ^ (8 * k) * descs.getD k 0xE0).sum)

/-- A flit of any kind leaves with a command, a seq and slots, and a countdown that runs is announced one lower next (R214). -/
def Ig.emit (g : Ig) (cmd : Nat × Nat) (seq : Nat) (slots : List (Nat × Bytes)) : Ig :=
  { g with
    out := some { hdr := g.header cmd seq (slots.map (·.1)), slots := (List.range 8).map fun k => fit 64 ((slots.getD k (0, [])).2) }
    txN := g.txN + 1
    cd := g.cd.map fun x => (x.1, x.2 - 1) }

/-- An idle flit leaves: its seq repeats that of the last sequenced flit (R197). -/
def Ig.sendAny (g : Ig) : Ig := g.emit g.command g.lastSeq []

/-- A held flit is sent again, its live fields new (R198, R208). -/
def Ig.sendHeld (g : Ig) (h : Held) : Ig := { g.emit g.command h.seq h.slots with lastSeq := h.seq }

/-- RETRAIN_REQ with a reason (Table LINK-4). -/
def Ig.sendRetrain (g : Ig) (reason : Nat) : Ig := g.emit (4, reason) g.lastSeq []

/-- The flit being built leaves as a sequenced flit and is held for replay (R206). -/
def Ig.close (g : Ig) : Ig :=
  if g.build = [] then g.sendAny
  else { g.emit g.command g.seq g.build with
    lastSeq := g.seq, seq := (g.seq + 1) % 4096, sentAny := true, build := []
    replay := g.replay ++ [{ seq := g.seq, slots := g.build }] }

/-- A slot joins the flit being built, which leaves when it is full. -/
def Ig.addSlot (g : Ig) (desc : Nat) (b : Bytes) : Ig :=
  let g := { g with build := g.build ++ [(desc, b)] }
  if g.build.length ≥ 8 then g.close else g

/-- The replay buffer is full (R206). -/
def Ig.full (g : Ig) : Bool := decide (g.replay.length ≥ 512)

/-- A slot of a message of queue `q` is sent: its first slot opens the track and takes the credit of the whole message, its last
closes the track. -/
def Ig.sendSlot (g : Ig) (msg q cls n : Nat) (sop eop : Bool) (b : Bytes) : Ig :=
  let g := if sop then { g with txTrk := g.txTrk.set q msg, u := g.u.set cls (g.u.getD cls 0 + n) } else g
  let g := if eop then { g with txTrk := g.txTrk.erase q } else g
  g.addSlot (slotDesc cls q sop eop) b

/-- A full replay buffer is counted when it becomes full. -/
def Dev.afterFlit (d : Dev) (l : Nat) (was : Bool) : Dev :=
  if (d.igg l).full && ! was then d.count 0x118 (l / 4) 0x3F l else d

end Sys2Proof.Machine
end

