-- ==== Sys2Proof/Machine/Egress.lean ====
section
/-! DEFINITION. Egress scheduling and shaping (chapter 7): the choice of a transmit unit (R152–R160), the shapers
(R161–R163), departure with its checks (R48, R177, R188–R191), stalls (R138), and the commands of Table SCHED-4. -/

namespace Sys2Proof.Machine

/-! ### Heads and their eligibility -/

/-- The cell waits in queue `q` of a link, in the sub-queue of a Reach if one is given. -/
def Cell.queued (c : Cell) (l q : Nat) (r : Option Nat) : Bool :=
  decide (c.dst = l) && decide (c.q = q) && (match r with
    | some r => decide (c.reach = r)
    | none => true)

/-- The head message of a queue or sub-queue: one that has begun and has cells left, else the first in FIFO order (R151,
R153). -/
def Dev.headMsg (d : Dev) (l q : Nat) (r : Option Nat) : Option Nat :=
  match d.egr.begun.find? fun e => d.fab.cells.any fun c => decide (c.msg = e.1) && c.queued l q r && c.loc != .sent with
  | some e => some e.1
  | none => (d.fifo fun c => c.queued l q r && c.loc == .egress q).map (·.msg)

/-- The cells of a head are present as R154 asks: all of them, or, under cut-through, its next one. -/
def Dev.present (d : Dev) (msg q : Nat) : Bool :=
  let cs := d.cellsOf msg
  (cs.any fun c => c.loc == .egress q)
  && (d.egr.cutMsgs.contains msg || cs.all fun c => c.loc == .egress q || c.loc == .sent)

/-- The link has transmit credit for a head (R154, R164, R211): on an Iggevo link for its credit class, with its queue's track free,
unless it has begun; on a CXL link, whose credit the device does not count here, always (assumption 23). -/
def Dev.hasCredit (d : Dev) (l q msg : Nat) : Bool :=
  if ! d.isIggevo l || (d.egr.begun.get? msg).isSome then true
  else
    let rsp : Bool := match d.weir.fly.get? msg with
      | some m => m.rsp.isSome
      | none => false
    (d.igg l).credit (creditClass q rsp) (d.cellsOf msg).length && (d.igg l).trackFree q

/-- An ordered earlier message of the same Reach in another queue of the egress has not begun to depart (R152). -/
def Dev.barredBy (d : Dev) (l q msg : Nat) : Bool :=
  match d.weir.fly.get? msg with
  | some m =>
    d.weir.fly.any fun e =>
      let y := e.2
      decide (y.id < m.id) && decide (y.reach = m.reach) && (d.egr.begun.get? y.id).isNone
      && (d.fab.cells.any fun c => decide (c.msg = y.id) && decide (c.dst = l) && decide (c.q ≠ q) && c.loc == .egress c.q)
      && (match m.trk, y.trk with
        | some i, some k =>
          match d.weir.trk.get? i, d.weir.trk.get? k with
          | some a, some b => decide (a.init = b.init) && a.access.ordered b.access
          | _, _ => false
        | none, some _ => m.rsp.isSome && m.kind == 7 && postedReq y.kind y.acc && decide (y.link = m.link)
        | _, _ => false)
  | none => false

/-- A head that only credit and shapers may still hold. -/
def Dev.standing (d : Dev) (l q msg : Nat) : Bool := d.present msg q && ! d.barredBy l q msg

/-! ### Shapers -/

/-- A shaper lets its queue send (R161). -/
def Shaper.allows (s : Shaper) : Bool := ! s.on || decide (s.tok > 0)

/-- Queue `q` of the weighted group is allowed by its shaper and the port shaper. -/
def Dev.shaped (d : Dev) (l q : Nat) : Bool := (d.egr.shp.getD (l, q) {}).allows && (d.egr.shp.getD (l, 8) {}).allows

/-- A shaper setting in force in the configuration: enabled, rate in MB/s, burst. -/
def Dev.shaperCfg (d : Dev) (stg : Bool) (l t : Nat) : Bool × Nat × Nat :=
  match d.view stg (d.linkSet l) { op := 0x6011, a := l, b := t } with
  | some b => ((byteAt b 3).testBit 0, leN b 4 4, leN b 8 4)
  | none => (false, 0, 0)

/-- One refill (R161–R163): a changed setting acts, a newly enabled shaper starts at its burst, the tokens of 128 ns are added
at no more than the link's current rate, and the count is limited to the burst. -/
def Dev.refill (d : Dev) (l t : Nat) : Dev :=
  let (on, rate, burst) := d.shaperCfg false l t
  let s := d.egr.shp.getD (l, t) {}
  let full : Int := (burst * 256 : Nat)
  let tok := if on && ! s.on then full else min s.tok full
  let now := d.curRate l / rateUnit
  let per := (if now = 0 then rate else min rate now) * 128 * 256 / 1000
  d.onEgr fun e => { e with shp := e.shp.set (l, t) { on, rate, burst, tok := if on then min full (tok + (per : Nat)) else 0 } }

/-- Every shaper of a link refills (R162). -/
def execShaperRefill (dt link : Nat) (s : State) : Host.Outcome State Fault Refusal :=
  event dt s fun _ _ d => if d.isLink link then [3, 4, 5, 6, 7, 8].foldl (fun d t => d.refill link t) d else d

/-! ### The weighted group -/

/-- The weight of a queue of the weighted group (R157, Table SCHED-1). -/
def Dev.weight (d : Dev) (stg : Bool) (l q : Nat) : Nat :=
  match d.view stg (d.linkSet l) { op := 0x6010, a := l } with
  | some b => byteAt b (4 + (q - 3))
  | none => [64, 64, 32, 32, 4].getD (q - 3) 1

/-- The deadline that a cell header shows (R103): the value nearest to now with the same 20 low bits. -/
def deadlineOf (now dl : Nat) : Nat :=
  let k := (dl % 2 ^ 20 + 2 ^ 20 - now % 2 ^ 20) % 2 ^ 20
  if k ≤ 2 ^ 19 then (now + k) % 2 ^ 40 else (now + k + 2 ^ 40 - 2 ^ 20) % 2 ^ 40

/-- The signed distance from `b` to `a` on the 40-bit timebase. -/
def tDiff (a b : Nat) : Int := signed 40 (a + 2 ^ 40 - b % 2 ^ 40)

/-- The head of Q3 or Q4 has slack below 64 ns (R160). -/
def Dev.urgent (d : Dev) (l msg : Nat) : Bool :=
  let left := ((d.cellsOf msg).filter fun c => c.loc != .sent).length
  match (d.cellsOf msg).head? with
  | some c =>
    let u := d.curRate l
    let slack := tDiff (deadlineOf d.now c.dl) d.now
    decide (slack * (u : Int) - ((left * 64 * rateUnit * 1000 : Nat) : Int) < 64 * (u : Int))
  | none => false

/-- A queue may be overridden by its head (R160): it is, or has been since the head's first override. -/
def Dev.overrides (d : Dev) (l q msg : Nat) : Bool := decide (q = 3 ∨ q = 4) && (d.egr.overMsg.contains msg || d.urgent l msg)

/-- The queues of a Reach at an egress that can take a unit, by override or by turn. -/
def Dev.groupReady (d : Dev) (l r q : Nat) : Option Nat :=
  match d.headMsg l q (some r) with
  | some msg =>
    if d.standing l q msg && d.hasCredit l q msg && (d.shaped l q || d.overrides l q msg) then some msg else none
  | none => none

/-- The deficit of a queue of a Reach. -/
def Dev.deficit (d : Dev) (l r q : Nat) : Int := d.egr.def_.getD (l, r, q) 0

/-- The next queue in the rotation of R157. -/
def nextQ (q : Nat) : Nat := if q ≥ 7 ∨ q < 3 then 3 else q + 1

/-- The rotation of R157 from queue `q`: each eligible queue that it reaches gains its quantum; it stops at one that can send. -/
def Dev.spin (d : Dev) (l r : Nat) (ok : Nat → Bool) : Nat → Nat → Dev × Nat
  | 0, q => (d, q)
  | f + 1, q =>
    let n := nextQ q
    if ok n then
      let d := d.onEgr fun e => { e with
        def_ := e.def_.set (l, r, n) (d.deficit l r n + (d.weight false l n * 512 : Nat)), turn := e.turn.set (l, r) n }
      if d.deficit l r n ≥ 64 then (d, n) else d.spin l r ok f n
    else d.spin l r ok f n

/-- The queue of a Reach that sends (R157, R160). -/
def Dev.pickQueue (d : Dev) (l r : Nat) : Dev × Option (Nat × Nat) :=
  let ready (q : Nat) : Option Nat := d.groupReady l r q
  let excess := [3, 4].filterMap fun q => match ready q with
    | some msg => if d.overrides l q msg then some (q, msg) else none
    | none => none
  let dl (msg : Nat) : Nat := match (d.cellsOf msg).head? with
    | some c => deadlineOf d.now c.dl
    | none => 0
  match excess with
  | [x] => (d, some x)
  | x :: y :: _ =>
    let k := tDiff (dl x.2) (dl y.2)
    (d, some (if k < 0 ∨ (k = 0 ∧ d.clk.cyc % 2 = 0) then x else y))
  | [] =>
    let ok (q : Nat) : Bool := (ready q).isSome
    if ! [3, 4, 5, 6, 7].any ok then (d, none)
    else
      let cur := d.egr.turn.getD (l, r) 7
      let (d, q) := if ok cur && decide (d.deficit l r cur ≥ 64) && (d.egr.turn.get? (l, r)).isSome then (d, cur)
        else d.spin l r ok 1000 cur
      (d, (ready q).map fun m => (q, m))

/-- The Reach that the group's unit goes to (R156). -/
def Dev.pickReach (d : Dev) (l : Nat) : Dev × Option Nat :=
  let ok (r : Nat) : Bool := [3, 4, 5, 6, 7].any fun q => (d.groupReady l r q).isSome
  let cur := d.egr.rTurn.getD l 31
  if ok cur && decide (d.egr.rDef.getD (l, cur) 0 ≥ 64) then (d, some cur)
  else match rotate 32 ((cur + 1) % 32) ok with
    | some r => (d.onEgr fun e => { e with
        rTurn := e.rTurn.set l r, rDef := e.rDef.set (l, r) (min (e.rDef.getD (l, r) 0) 0 + 512) }, some r)
    | none => (d, none)

/-! ### Transmit units -/

/-- Cells that one unit of a link carries (R153): a cell position of an Iggevo flit, one cell of a 68B flit, three of a 256B
flit. -/
def Dev.unitCells (d : Dev) (l : Nat) : Nat := if d.isIggevo l then 1 else if (d.port l).flit256 then 3 else 1

/-- Bytes of a cell. -/
def Cell.bytes (c : Cell) : Nat := if c.len = 0 then 64 else c.len

/-- One cell of a message leaves on a link. -/
def Dev.sendCell (d : Dev) (l : Nat) (c : Cell) (n : Nat) : Dev :=
  let rsp : Bool := match d.weir.fly.get? c.msg with
    | some m => m.rsp.isSome
    | none => false
  let d := d.onCell c.id fun x => { x with loc := .sent }
  let d := (d.countN 0x102 (l / 4) c.reach c.cls l 1).countN 0x103 (l / 4) c.reach c.cls l c.bytes
  let d := d.onTele fun t => { t with bw := t.bw.upd l {} fun w => { w with tx := w.tx + c.bytes } }
  if d.isIggevo l then d.onIg l fun g => g.sendSlot c.msg c.q (creditClass c.q rsp) n c.sop c.eop c.data else d

/-- A message sends its unit: its first bit out is noted, its cells leave, and a queue of the group is charged (R156, R157,
R161). -/
def Dev.sendUnit (d : Dev) (p : Profile) (l q r msg : Nat) : Dev :=
  let d := if (d.egr.begun.get? msg).isSome then d else d.onEgr fun e => { e with begun := e.begun.set msg d.now }
  let total := (d.cellsOf msg).length
  let cs := (sortBy (fun a b => decide (a.ord ≤ b.ord)) ((d.cellsOf msg).filter fun c => c.loc == .egress q)).take (d.unitCells l)
  let d := cs.foldl (fun d c => d.sendCell l c total) d
  let bytes : Int := (cs.length * 64 : Nat)
  let d := if q < 3 then d
    else
      let left := d.fab.cells.any fun c => c.queued l q (some r) && c.loc == .egress q
      let pay (s : Shaper) : Shaper := if s.on then { s with tok := s.tok - bytes * 256 } else s
      d.onEgr fun e => { e with
        def_ := e.def_.set (l, r, q) (if left then e.def_.getD (l, r, q) 0 - bytes else 0)
        rDef := e.rDef.set (l, r) (e.rDef.getD (l, r) 0 - bytes)
        shp := e.shp.map fun x => if x.1 = (l, q) ∨ x.1 = (l, 8) then (x.1, pay x.2) else x }
  d.settle p l q

/-- A head of Q3 or Q4 that goes ahead of its turn is counted once (R160). -/
def Dev.noteOverride (d : Dev) (l q r msg : Nat) : Dev :=
  if d.overrides l q msg && ! d.egr.overMsg.contains msg then
    (d.onEgr fun e => { e with overMsg := e.overMsg ++ [msg] }).count 0x070 (l / 4) r l
  else d

/-- What barred queues in this unit: only credit, or only a shaper (R165). -/
def Dev.countBarred (d : Dev) (l : Nat) : Dev :=
  let heads : List (Nat × Nat) := (List.range 8).flatMap fun q =>
    (if q < 3 then [d.headMsg l q none] else (List.range 32).map fun r => d.headMsg l q (some r)).filterMap fun x => x.map fun m => (q, m)
  let able := heads.filter fun x => d.standing l x.1 x.2
  let starved := (able.filter fun x => ! d.hasCredit l x.1 x.2).map (·.1) |>.eraseDups
  let limited := (able.filter fun x => decide (x.1 ≥ 3) && d.hasCredit l x.1 x.2 && ! d.shaped l x.1 && ! d.overrides l x.1 x.2).map (·.1) |>.eraseDups
  (d.countN 0x110 (l / 4) 0x3F 7 l starved.length).countN 0x10F (l / 4) 0x3F 7 l limited.length

/-- A message of the bridge that has no cells takes a unit, if its class has credit: of the Control class with Q0, of the
others ahead of the weighted group (assumption 24). -/
def Dev.sendOut (d : Dev) (l : Nat) (control : Bool) : Option Dev :=
  match d.brg.out.find? fun x => decide (x.1 = l) && (byteAt x.2 2 == 0) == control with
  | some x =>
    let n := ceilDiv x.2.length 64
    let q := if control then 0 else if byteAt x.2 0 ≥ 0x10 then 3 else 4
    let cls := creditClass q (q == 3)
    if (d.igg l).credit cls n && (d.igg l).trackFree q then
      let slots := (List.range n).map fun k => (k, slice x.2 (64 * k) 64)
      some ((d.onBrg fun b => { b with out := b.out.erase x }).onIg l fun g =>
        slots.foldl (fun g y => g.sendSlot 0 q cls n (y.1 == 0) (y.1 + 1 == n) y.2) g)
    else none
  | none => none

/-- One unit of a link that can send (R153–R160). -/
def Dev.transmit (d : Dev) (p : Profile) (l : Nat) : Dev :=
  let d := d.countBarred l
  let strict (q : Nat) : Option Nat := (d.headMsg l q none).filter fun m => d.standing l q m && d.hasCredit l q m
  let idle (d : Dev) : Dev := if d.isIggevo l then d.onIg l Ig.close else d
  match d.sendOut l true with
  | some d => d
  | none =>
    match [0, 1, 2].findSome? fun q => (strict q).map fun m => (q, m) with
    | some (q, m) => d.sendUnit p l q 0 m
    | none =>
      match d.sendOut l false with
      | some d => d
      | none =>
        match d.pickReach l with
        | (d, some r) =>
          match d.pickQueue l r with
          | (d, some (q, m)) => (d.noteOverride l q r m).sendUnit p l q r m
          | (d, none) => idle d
        | (d, none) => idle d

/-- The stall of a link ends: its queues take the states that their occupancy gives (R138). -/
def Dev.unstall (d : Dev) (p : Profile) (l : Nat) : Dev :=
  let d := d.onEgr fun e => { e with stall := e.stall.filter fun x => decide (x ≠ l) }
  [3, 4, 5, 6, 7].foldl (fun d q => d.settle p l q) d

/-- The scheduler of a link makes one choice (R153). A unit on a link that was stalled for want of credit shows that credit has
come. An Iggevo link resends held flits before new ones (R208), and sends only idle flits while its replay buffer is
full (R206). -/
def execTransmitUnit (dt link : Nat) (s : State) : Host.Outcome State Fault Refusal :=
  event dt s fun _ p d =>
    if d.curRate link = 0 then d
    else
      let waits := (List.range 8).any fun q => match d.headMsg link q none with
        | some m => d.hasCredit link q m
        | none => false
      let d := if d.egr.stall.contains link && (d.isCxl link || waits) then d.unstall p link else d
      if d.egr.stall.contains link then d
      else if d.isIggevo link then
        let g := d.igg link
        match g.resend with
        | h :: rest => d.onIg link fun g => { g.sendHeld h with resend := rest }
        | [] => if g.full then d.onIg link Ig.sendAny else (d.transmit p link).afterFlit link g.full
      else d.transmit p link

/-! ### Departure -/

/-- A message has departed late (R48, R114): DEADLINE_MISSED, and a corrected fault for Expedited and Standard. -/
def Dev.checkDeadline (d : Dev) (l : Nat) (m : Msg) : Dev :=
  let t := d.egr.begun.getD m.id d.now
  let dl := deadlineOf t m.dl
  let limit := if d.egr.cutMsgs.contains m.id then (dl + 2 ^ 40 - m.delta) % 2 ^ 40 else dl
  if m.cls = 5 ∨ tDiff t limit ≤ 0 then d
  else
    let d := d.count 0x010 (l / 4) 0x3F l m.cls
    if m.cls = 1 ∨ m.cls = 3 then d.sendFault 0 (l / 4) 1 0 m.reach (l + 512 * m.cls) else d

/-- A request departs on a target link: monitors (R188–R190), queue lines (R177), and its entry (Table ORDER-1): a one-way or
posted message ends here. -/
def Dev.requestOut (d : Dev) (l : Nat) (m : Msg) (i : Nat) : Dev :=
  match d.weir.trk.get? i with
  | none => d
  | some t =>
    if t.grp ≠ m.grp then d
    else
      let far := d.isIggevo l
      let writes : Bool := match m.acc with
        | .write | .atomic _ _ => true
        | _ => false
      let (stored, d) := if m.resv && writes && ! far then d.monStore m.init m.reach l m.addr else (true, d)
      let d := if m.resv && m.acc == .read && ! far then d.monSet m.init m.reach l m.addr else d
      let d := if writes && stored && ! far then d.monWrite m.init l m.addr (max 1 m.len) else d
      let d := d.lineDone m.id
      if ! stored then d.answered l i 0 [] false
      else if t.group.isSome then d
      else if awaits m.kind m.acc far then
        let done := ! t.device && (match m.acc with
          | .read | .write | .lockRead => true
          | _ => false) && ! far
        d.onTrk i fun t => { t with performed := t.performed || t.early || done }
      else if postedReq m.kind m.acc then d.answered l i 0 [] false
      else d.endTrk i

/-- A response departs: the entry that it answers is freed. -/
def Dev.responseOut (d : Dev) (m : Msg) (i : Nat) : Dev :=
  match d.weir.trk.get? i with
  | some t => if t.grp = m.forGrp ∧ ! m.early then d.endTrk i else d
  | none => d

/-- The last cell of a message has left on its link (R48). -/
def execEgressDeparture (dt link id : Nat) (s : State) : Host.Outcome State Fault Refusal :=
  event dt s fun _ p d =>
    match d.weir.fly.get? id with
    | some m =>
      let cs := d.cellsOf id
      if cs = [] ∨ ! cs.all (fun c => decide (c.dst = link) && c.loc == .sent) then d
      else
        let d := d.checkDeadline link m
        let d := d.dropCells id
        let d := d.onEgr fun e => { e with
          begun := e.begun.erase id, overMsg := e.overMsg.filter (fun x => decide (x ≠ id))
          cutMsgs := e.cutMsgs.filter (fun x => decide (x ≠ id)) }
        match m.trk, m.rsp with
        | some i, _ => d.requestOut link m i
        | none, some i => d.responseOut m i
        | none, none => d
    | none => d

/-- A link that has had no transmit credit for 1 µs is stalled (R138). -/
def execEgressStall (dt link : Nat) (s : State) : Host.Outcome State Fault Refusal :=
  event dt s fun _ p d =>
    if d.curRate link = 0 ∨ d.egr.stall.contains link then d
    else
      let d := (d.onEgr fun e => { e with stall := e.stall ++ [link] }).count 0x107 (link / 4) 0x3F link
      [3, 4, 5, 6].foldl (fun d q => d.settle p link q) d

/-! ### Commands -/

/-- The set in which scheduling settings of the link at offset 0 are staged (R167). -/
def Ctx.schedSet (c : Ctx) : Nat := c.d.linkSet (c.u16 0)

/-- A scheduling command finds its set in resynchronisation (R167). -/
def schedChecks : List Check :=
  (require .busy fun c => ! (c.d.set c.schedSet).resync) :: stageChecks Ctx.schedSet false fun _ => 1

/-- SCHED_WEIGHT_SET (R157, R159). -/
def cmdSchedWeightSet : Cmd where
  op := 0x6010
  len := 12
  src := Src.operator
  fields := [linkAt 0, rsvd 2 2] ++ ([4, 5, 6, 7, 8].map fun o => need o fun c => c.u8 o != 0) ++ [rsvd 9 3]
  state := schedChecks
  body := stages Ctx.schedSet fun c => [({ op := 0x6010, a := c.u16 0 }, some (fit 12 c.f.payload))]

def execSchedWeightSet (dt : Nat) (f : Frame) (s : State) : Host.Outcome State Fault Refusal :=
  bilod cmdSchedWeightSet dt f s

/-- SHAPER_SET (R161, Table SCHED-5). -/
def cmdShaperSet : Cmd where
  op := 0x6011
  len := 12
  src := Src.operator
  fields :=
    let on (c : Ctx) : Bool := (c.u8 3).testBit 0
    [linkAt 0, need 2 fun c => decide (3 ≤ c.u8 2) && decide (c.u8 2 ≤ 8), rsvdBits 3 7 1,
     need 4 fun c => if on c then decide (1 ≤ c.u32 4) && decide (c.u32 4 ≤ c.d.confRate (c.u16 0) / rateUnit) else c.u32 4 == 0,
     need 8 fun c => if on c then burstOk (c.u32 8) (2 ^ 22) else c.u32 8 == 0]
  state := schedChecks
  body := stages Ctx.schedSet fun c => [({ op := 0x6011, a := c.u16 0, b := c.u8 2 }, some (fit 12 c.f.payload))]

def execShaperSet (dt : Nat) (f : Frame) (s : State) : Host.Outcome State Fault Refusal :=
  bilod cmdShaperSet dt f s

/-- SCHED_GET. -/
def cmdSchedGet : Cmd where
  op := 0x6012
  len := 4
  src := Src.watch
  fields := [linkAt 0, ownLinkAt 0, atMost 2 1, rsvd 3 1]
  body := reads fun c =>
    let l := c.u16 0
    let stg := c.u8 2 == 1
    ((List.range 5).flatMap fun k => nb 1 (c.d.weight stg l (k + 3))) ++ zeros 3
      ++ ([3, 4, 5, 6, 7, 8].flatMap fun t =>
        let (on, rate, burst) := c.d.shaperCfg stg l t
        nb 4 (b2n on) ++ nb 4 rate ++ nb 4 burst)

def execSchedGet (dt : Nat) (f : Frame) (s : State) : Host.Outcome State Fault Refusal :=
  bilod cmdSchedGet dt f s

/-- SCHED_STATUS_GET. -/
def cmdSchedStatusGet : Cmd where
  op := 0x6013
  len := 4
  src := Src.watch
  fields := [linkAt 0, ownLinkAt 0, rsvd 2 2]
  body := reads fun c =>
    let l := c.u16 0
    ((List.range 8).flatMap fun q => nb 4 (c.d.inQueue l q))
      ++ ([3, 4, 5, 6, 7, 8].flatMap fun t => intBytes 4 ((c.d.egr.shp.getD (l, t) {}).tok / 256))
      ++ nb 8 (c.d.tally (l / 4) 0x070)

def execSchedStatusGet (dt : Nat) (f : Frame) (s : State) : Host.Outcome State Fault Refusal :=
  bilod cmdSchedStatusGet dt f s

end Sys2Proof.Machine
end

