-- ==== Sys2Proof/Machine/Order.lean ====
section
/-! DEFINITION. Ordering commands and events (chapter 8): Fabric Flushes (R181–R183), reservation alias windows, granules
and monitors (R186–R192), and the commands of Table ORDER-7. -/

namespace Sys2Proof.Machine

/-! ### Fabric Flush -/

/-- The links that a FABRIC_FLUSH acts on (R182): one, those of a Reach, or all. -/
def Ctx.flushLinks (c : Ctx) : List Nat :=
  match c.u8 0 with
  | 0 => [c.u16 2]
  | 1 => c.d.links.filter fun l => c.d.ownsPart (c.u8 1) l
  | _ => c.d.links

/-- The flush of one link starts, with a tracker entry of its Reach while the share has one (R181). -/
def Dev.flushLink (d : Dev) (k : Mbx × Nat) (l : Nat) : Dev :=
  let r := (d.reachesOf l).head?.getD 0
  let (host, d) := if d.trkFree r 3 1 then
      let (i, d) := d.addTrk {
        grp := 0, reach := r, cls := 3, strict := false, init := .mpc, src := l, dst := l, kind := 7, acc := .flush
        addr := 0, len := 0, msg := 0, t6 := d.clk.t6 }
      (some i, d)
    else (none, d)
  d.startFlush { id := 0, init := .link l, reach := r, t6 := d.clk.t6, waits := [], host := host, long := some k }

/-- FABRIC_FLUSH. -/
def cmdFabricFlush : Cmd where
  op := 0x0F00
  len := 4
  src := Src.measure
  long := true
  fields := [
    fun c => if c.u8 0 > 2 then some (invalid 0)
      else match c.f.mbx with
        | .reach _ | .tunnel => if c.u8 0 = 2 then some (plain .accessDenied) else none
        | _ => none,
    fun c => if c.u8 0 = 1 then reachAt 1 c else if c.u8 1 = 0 then none else some (invalid 1),
    fun c => if c.u8 0 = 0 then firstFail [linkAt 2, ownLinkAt 2] c else if c.u16 2 = 0 then none else some (invalid 2)]
  body := fun c =>
    let k := (c.f.mbx, c.f.tag)
    match c.flushLinks with
    | [] => (c.d, .ended .success (nb 4 0))
    | ls =>
      let d := c.d.onOrd fun o => { o with flushed := o.flushed.set k (ls.length, 0) }
      (ls.foldl (fun d l => d.flushLink k l) d, .started [])

def execFabricFlush (dt : Nat) (f : Frame) (s : State) : Host.Outcome State Fault Refusal :=
  bilod cmdFabricFlush dt f s

/-- A host issues a Fabric Flush as a zero-length CXL.io read (R182): it joins the Standard FIFO of its link, and begins there at
once if it is the head and no earlier access of the link waits. -/
def execFabricFlushRead (dt link : Nat) (s : State) : Host.Outcome State Fault Refusal :=
  event dt s fun m p d =>
    if ! d.isCxl link ∨ ! (d.port link).up then d
    else
      let id := d.weir.nextMsg
      let x : Msg := {
        id := 0, link := link, kind := 7, cls := 3, reach := (d.owner link 0xFF).getD 0, init := .link link, acc := .flush
        tIn := d.now, tP := d.now }
      let d := d.ingress x
      match d.head m link 3 with
      | some y => if y.id = id ∧ ! d.behind y then d.evaluate m p y else d
      | none => d

/-- A flush completes when its conditions hold (R181). -/
def execFlushComplete (dt id : Nat) (s : State) : Host.Outcome State Fault Refusal :=
  event dt s fun _ _ d =>
    match d.ord.flush.find? fun f => decide (f.id = id) with
    | some f => if d.flushReady f then d.endFlush f else d
    | none => d

/-- The tile at which a flush is counted. -/
def Flush.tile (f : Flush) : Nat :=
  match f.init, f.hdr with
  | .link l, _ => l / 4
  | _, some h => h.link / 4
  | _, none => 0

/-- A flush that still waits at its limit ends (R183, R238): every write of it that is not performed is treated as lost, and so
is every write that the far switch of an unanswered FLUSH may hold. `far` names a flush that another switch asked for. -/
def Dev.flushLate (d : Dev) (id : Nat) (far : Bool) : Dev :=
    match d.ord.flush.find? fun f => decide (f.id = id) with
    | some f =>
      if f.hdr.isSome ≠ far ∨ d.since f.t6 < f.limit ∨ d.flushReady f then d
      else
        let ws := d.weir.trk.filter fun e =>
          f.waits.contains e.2.msg && decide (e.2.init = f.init) && e.2.writes && ! e.2.performed && ! e.2.faulted
        let d := ws.foldl (fun d e => (d.earlyLost e.2).onTrk e.1 fun t => { t with faulted := t.early }) d
        let gone := (f.far.map (·.2)).sum
        let d := (d.sendFault 4 f.tile 2 1 f.reach (ws.length + gone)).count 0x081 f.tile 0x3F (match f.init with
          | .link l => l
          | _ => (f.hdr.map (·.link)).getD 0xFFF)
        d.endFlush { f with sum := f.sum + gone }
    | none => d

/-- A flush of this device reaches 100 µs (R183). -/
def execFlushTimeout (dt id : Nat) (s : State) : Host.Outcome State Fault Refusal :=
  event dt s fun _ _ d => d.flushLate id false

/-! ### Reservations -/

/-- Monitors reach their age limit (R190, cause 0x03). -/
def execMonitorAgeExpiry (dt : Nat) (s : State) : Host.Outcome State Fault Refusal :=
  event dt s fun _ _ d => d.loseMons (fun m => decide (d.since m.t6 ≥ 600000)) 3

/-- A status record (Table ORDER-6). -/
def Srec.bytes (r : Srec) : Bytes := nb 1 r.outcome ++ nb 1 r.cause ++ zeros 6 ++ nb 5 r.time ++ zeros 51

/-- A read of a status page at the head of its FIFO is answered once no earlier access holds it (R192): every line of the page
holds the initiator's record, and bytes 0 and 1 of that clear. -/
def execStatusPageRead (dt link window : Nat) (s : State) : Host.Outcome State Fault Refusal :=
  event dt s fun m p d =>
    match d.head m link 3 with
    | some x =>
      let j := d.judgeMsg p x
      let here : Bool := match d.aliasAt x.reach x.addr with
        | some (w, _, page) => w == window && page
        | none => false
      if ! j.page ∨ ! here ∨ d.orderHeld p x j 3 then d
      else
        let rec_ := (d.ord.srec.getD x.init {}).bytes
        let data := (List.range x.len).map fun k => rec_.getD ((x.addr + k) % 64) 0
        let d := (d.dequeue x).onSrec x.init fun r => { r with outcome := 0, cause := 0 }
        d.genRsp x.link 65536 (d.asTrk x 3) 0 data false false
    | none => d

/-- An access page number field: bits [51:12] of an address in the low 40 bits at `o`, aligned to the window's size. -/
def aliasAligned (o : Nat) : Check := need o fun c => c.u40 o % 2 ^ c.u8 3 == 0

/-- ALIAS_WINDOW_SET (R186, Table ORDER-4). -/
def cmdAliasWindowSet : Cmd where
  op := 0x0F01
  len := 16
  src := Src.operator
  fields :=
    let valid (c : Ctx) : Bool := (c.u8 2).testBit 0
    [reachAt 0, atMost 1 7, rsvdBits 2 7 1,
     need 3 fun c => if valid c then decide (c.u8 3 ≤ 18) else c.u8 3 == 0,
     fun c => if valid c then aliasAligned 4 c else need 4 (fun c => c.u40 4 == 0) c,
     fun c => if valid c then aliasAligned 9 c else need 9 (fun c => c.u40 9 == 0) c,
     rsvd 14 2]
  state := stageChecks (fun c => c.u8 0) false fun _ => 1
  body := stages (fun c => c.u8 0) fun c =>
    [({ op := 0x0F01, a := c.u8 0, b := c.u8 1 }, if (c.u8 2).testBit 0 then some (fit 16 c.f.payload) else none)]

def execAliasWindowSet (dt : Nat) (f : Frame) (s : State) : Host.Outcome State Fault Refusal :=
  bilod cmdAliasWindowSet dt f s

/-- ALIAS_WINDOW_GET. -/
def cmdAliasWindowGet : Cmd where
  op := 0x0F02
  len := 3
  src := Src.watch
  fields := [reachAt 0, atMost 1 7, atMost 2 1]
  body := reads fun c =>
    fit 16 ((c.d.view (c.u8 2 == 1) (c.u8 0) { op := 0x0F01, a := c.u8 0, b := c.u8 1 }).getD (nb 1 (c.u8 0) ++ nb 1 (c.u8 1)))

def execAliasWindowGet (dt : Nat) (f : Frame) (s : State) : Host.Outcome State Fault Refusal :=
  bilod cmdAliasWindowGet dt f s

/-- RESV_GRANULE_SET (R187): staged; every monitor of the Reach is lost at the epoch. -/
def cmdResvGranuleSet : Cmd where
  op := 0x0F03
  len := 4
  src := Src.operator
  fields := [reachAt 0, atMost 1 4, rsvd 2 2]
  state := stageChecks (fun c => c.u8 0) false fun _ => 1
  body := stages (fun c => c.u8 0) fun c => [({ op := 0x0F03, a := c.u8 0 }, some (fit 4 c.f.payload))]

def execResvGranuleSet (dt : Nat) (f : Frame) (s : State) : Host.Outcome State Fault Refusal :=
  bilod cmdResvGranuleSet dt f s

/-- ORDER_STATUS_GET. -/
def cmdOrderStatusGet : Cmd where
  op := 0x0F04
  len := 2
  src := Src.watch
  fields := [linkAt 0, ownLinkAt 0]
  body := reads fun c =>
    let l := c.u16 0
    nb 2 (c.d.eaLines l) ++ nb 2 (c.d.eaUsed l) ++ nb 4 (c.d.ord.lost.getD (.link l) 0)
      ++ nb 2 (c.d.ord.mons.filter fun m => decide (m.init = .link l)).length

def execOrderStatusGet (dt : Nat) (f : Frame) (s : State) : Host.Outcome State Fault Refusal :=
  bilod cmdOrderStatusGet dt f s

/-- RESV_STATUS_GET. -/
def cmdResvStatusGet : Cmd where
  op := 0x0F05
  len := 1
  src := Src.watch
  fields := [reachAt 0]
  body := reads fun c =>
    let r := c.u8 0
    nb 2 (16384 / max 1 c.d.nReach) ++ nb 2 (c.d.ord.mons.filter fun m => decide (m.reach = r)).length
      ++ nb 1 (byteAt ((c.d.cfg { op := 0x0F03, a := r }).getD []) 1) ++ zeros 3
      ++ ((List.range 6).flatMap fun k => nb 8 (c.d.ord.losses.getD (r, k + 1) 0))

def execResvStatusGet (dt : Nat) (f : Frame) (s : State) : Host.Outcome State Fault Refusal :=
  bilod cmdResvStatusGet dt f s

end Sys2Proof.Machine
end

