-- ==== Sys2Proof/Machine/Iggevo.lean ====
section
/-! DEFINITION. The Iggevo link layer (chapter 9): flits with their check, sequence, replay and credits (R196–R212), lane
changes (R213–R216), bring-up exchange, retrain and down (R217–R220), time distribution (R221–R225), and the commands
of Table LINK-10. -/

namespace Sys2Proof.Machine

/-! ### Check (R202) -/

/-- One bit step of the CRC-64 register. -/
def crc64Step (c : BitVec 64) : BitVec 64 :=
  if c.msb then (c <<< 1) ^^^ 0x42F0E1EBA9EA3693#64 else c <<< 1

/-- One byte, most significant bit first. -/
def crc64Byte (c : BitVec 64) (b : Byte) : BitVec 64 :=
  (List.range 8).foldl (fun c _ => crc64Step c) (c ^^^ (b.setWidth 64 <<< 56))

/-- The CRC of R202. -/
def crc64 (bs : Bytes) : BitVec 64 := (bs.foldl crc64Byte (BitVec.allOnes 64)) ^^^ BitVec.allOnes 64

/-- Flit bytes 0–527 (Table LINK-2): the header with bit 127 first, and the slots. -/
def flitBody (f : Flit) : Bytes := (nb 16 f.hdr.toNat).reverse ++ (List.range 8).flatMap fun k => fit 64 (f.slots.getD k [])

/-- Slot descriptor `k` of a header (Table LINK-3). -/
def flitDesc (h k : Nat) : Nat := bits h (8 * k + 7) (8 * k)

/-- A valid lane mask holds 1, 2, 4 or 8 lanes (R213). -/
def maskOk (m : Nat) : Bool := decide (m < 256) && [1, 2, 4, 8].contains (popcount m)

/-- The widest valid mask among some lanes, of the lowest lane numbers (R215, R267). -/
def widestMask (m : Nat) : Nat :=
  let ls := maskLanes m
  let n := if ls.length ≥ 8 then 8 else if ls.length ≥ 4 then 4 else if ls.length ≥ 2 then 2 else ls.length
  bitsOf (fun k => (ls.take n).contains k) 8

/-! ### Settings of a link -/

/-- Byte `k` of the link's IGGEVO_LINK_SET payload: the limits default to 4 (R209), and the link may be the upstream (assumption
25). -/
def Dev.igSet (d : Dev) (l k : Nat) : Nat :=
  byteAt ((d.cfg { op := 0x7011, a := l }).getD (nb 2 l ++ nb 1 4 ++ nb 1 4 ++ nb 1 1 ++ zeros 3)) k

/-- The link in DETECT (R265): its transmitter drives the forwarded clock and the scrambler output. -/
def Dev.igStart (d : Dev) (l : Nat) : Dev :=
  d.onIg l fun g => { g with st := .detect, stageT := d.clk.t6, clkOn9 := false, pOn9 := false, exCd := 0, pCd := 0 }

/-- The queues of a link take the states that their occupancy gives. -/
def Dev.settleAll (d : Dev) (p : Profile) (l : Nat) : Dev := [3, 4, 5, 6, 7].foldl (fun d q => d.settle p l q) d

/-! ### Replay -/

/-- A replay is requested (R207, R208): ack advances, and rr unless a request is outstanding. -/
def Ig.askReplay (g : Ig) (now : Nat) : Ig :=
  let g := { g with ack := if g.gotAny then (g.e + 4095) % 4096 else 0xFFF, since := 0, ackT := none }
  if g.outst.isSome then g else { g with rr := (g.rr + 1) % 4, outst := some now }

/-- The transmitter frees every held flit up to and including `a`, and the replay count of a freed flit clears (R207, R209). -/
def Ig.free (g : Ig) (a : Nat) : Ig :=
  if g.replay.any fun h => decide (h.seq = a) then
    let keep := (g.replay.dropWhile fun h => decide (h.seq ≠ a)).drop 1
    let gone : Bool := ! keep.any fun h => decide (h.seq = g.rfirst)
    { g with
      replay := keep, resend := g.resend.filter keep.contains
      rcount := if gone then 0 else g.rcount, limitHit := g.limitHit && ! gone }
  else g

/-- The cells of a class that the partner newly reports freed (R212). -/
def Ig.creditBack (g : Ig) (c total : Nat) : Ig :=
  let n := (total + 8192 - g.crLast.getD c 0) % 8192
  { g with u := g.u.set c (g.u.getD c 0 - n), crLast := g.crLast.set c total }

/-! ### Messages in slots (R204, R205) -/

/-- The slots of an accepted flit join their tracks: the tracks after it and the messages that it ends, each with its class; none
for a sequence that breaks R204. -/
def takeSlots : Tbl Nat (Nat × List Bytes) → List (Nat × Bytes) → Option (Tbl Nat (Nat × List Bytes) × List (Bytes × Nat))
  | tr, [] => some (tr, [])
  | tr, (x, b) :: rest =>
    let c := x / 32
    let k := x / 4 % 8
    let sop := x.testBit 1
    let eop := x.testBit 0
    if c = 7 then takeSlots tr rest
    else
      let cur : Option (List Bytes) := match tr.get? k, sop with
        | none, true => some [b]
        | some (c', bs), false => if c' = c ∧ bs.length < 64 then some (bs ++ [b]) else none
        | _, _ => none
      match cur with
      | none => none
      | some bs =>
        if eop then (takeSlots (tr.erase k) rest).map fun y => (y.1, (bs.flatten, c) :: y.2)
        else takeSlots (tr.set k (c, bs)) rest

/-- A header breaks R200, but for the slot sequence: `exch` while the partner's flits are exchange flits. -/
def badHeader (exch : Bool) (h : Nat) : Bool :=
  let cmd := bits h 127 124
  let arg := bits h 79 64
  let ds := (List.range 8).map (flitDesc h)
  decide (cmd ≥ 5) || decide (bits h 97 95 ≥ 6) || decide (bits h 81 80 ≠ 0)
  || ds.any (fun x => decide (x / 32 = 6) || (decide (x / 32 = 7) && decide (x ≠ 0xE0)))
  || (decide (cmd = 4) && (decide (arg / 256 ≠ 0) || ! [1, 2, 3].contains (arg % 256)))
  || ((exch || decide (cmd = 1)) && (decide (ds.head? ≠ some 0xA3) || (ds.drop 1).any fun x => decide (x ≠ 0xE0)))
  || (exch && decide (cmd ≠ 0))

/-! ### Time-degraded links (R67, R225) -/

/-- Every path reservation through a link is suspended, each counted once (R67). -/
def Dev.suspendPaths (d : Dev) (l : Nat) : Dev :=
  let near := d.weir.paths.filter fun x => decide (x.2.egress = l) && ! x.2.suspended
  let far := d.brg.paths.filter fun x => (decide (x.2.egress = l) || decide (x.2.link = l)) && ! x.2.suspended
  let d := d.onWeir fun w => { w with paths := w.paths.map fun x => if x.2.egress = l then (x.1, { x.2 with suspended := true }) else x }
  let d := d.onBrg fun b => { b with
    paths := b.paths.map fun x => if x.2.egress = l ∨ x.2.link = l then (x.1, { x.2 with suspended := true }) else x }
  (List.range (near.length + far.length)).foldl (fun d _ => d.count 0x031 (l / 4) 0x3F l) d

/-- A link's own or partner's time_degraded flag changes; on entry into the time-degraded state the link is counted and logged,
and its path reservations are suspended (R225). -/
def Dev.degrade (d : Dev) (l : Nat) (f : Ig → Ig) : Dev :=
  let was := d.timeDegraded l
  let d := d.onIg l f
  if d.timeDegraded l && ! was then
    let th := ((d.igg l).thetas.getLast?.getD 0 % 65536).toNat
    ((d.count 0x032 (l / 4) 0x3F l).sendFault 5 (l / 4) 3 0 0x3F th).suspendPaths l
  else d

/-! ### Retrain and down -/

/-- A far lock ends by force (R246): a request of its owner that still waits for the lock's target is answered ERR 0x06. -/
def Dev.dropFarLock (d : Dev) (r : Nat) : Dev :=
  match d.brg.far.get? r with
  | some k =>
    let d := d.onBrg fun b => { b with far := b.far.erase r }
    (d.weir.q.filter fun x => decide (x.init = k.owner) && decide (x.reach = r) && x.far.isSome && x.rsp.isNone && x.acc != .none).foldl
      (fun d x => d.endRequest x x.cls 6) d
  | none => d

/-- A path record goes back or onward in a path message (R247, Tables BRIDGE-1, BRIDGE-9). -/
def pathMsg (op status reach origin : Nat) (rec_ : Bytes) : Bytes :=
  ({ op := op, cls := 0, reach := reach, status := status, len := 64, be := 0, origId := origin } : BHead).bytes ++ fit 64 rec_

/-- The far Reach that a path record names for hop `k` (Table BRIDGE-9). -/
def recReach (r : Bytes) (k : Nat) : Nat := byteAt r (26 + 4 * k)

/-- The far egress link that a path record names for hop `k`. -/
def recLink (r : Bytes) (k : Nat) : Nat := leN r (24 + 4 * k) 2

/-- The far path cells that an egress link held are freed, and PATH_FREE goes back toward the near switch (R247, step 6). -/
def Dev.freeFarPaths (d : Dev) (p : (Nat × Nat) × FarPath → Bool) (onward : Bool) : Dev :=
  let gone := d.brg.paths.filter p
  let d := d.onBrg fun b => { b with paths := b.paths.filter fun x => ! p x }
  gone.foldl (fun d x =>
    let back := pathMsg 0x0A 0 (recReach x.2.record (max 1 (x.2.hop - 1))) x.1.1 (put x.2.record 17 (nb 1 x.2.hop))
    let d := d.brgSend x.2.link back
    if onward && decide (x.2.hop < x.2.hops) then
      d.brgSend x.2.egress (pathMsg 0x0A 0 (recReach x.2.record (x.2.hop + 1)) x.1.1 (put x.2.record 17 (nb 1 (x.2.hop + 1))))
    else d) d

/-- The commands that wait on a link's width or substitution end without it. -/
def Dev.dropWidth (d : Dev) (l : Nat) : Dev :=
  let g := d.igg l
  let d := (d.finLong? g.widthLong .aborted []).finLong? g.subLong .aborted []
  d.onIg l fun g => { g with widthLong := none, subLong := none, cd := none, cdRx := none, req := none, subT := none, subReady := false
                             mirror := none, pend := [] }

/-- A link retrains (R219): its egress stalls, and it starts again at PATTERN with everything kept. `detail` is that of
LINK_RETRAIN. -/
def Dev.igRetrain (d : Dev) (p : Profile) (l detail : Nat) : Dev :=
  if (d.igg l).st ≠ .active then d
  else
    let g := d.igg l
    let long := g.subLong.filter fun _ => g.endSub
    let d := d.finLong? long .success []
    let d := d.onIg l fun g => if g.endSub then { g with subLong := none, endSub := false } else g
    let d := d.dropWidth l
    let d := d.onIg l fun g => { g with
      st := .retrain, resume := true, t6 := d.clk.t6, stageT := d.clk.t6, bad8 := 0, exCd := 0, pCd := 0
      width0 := 16 * popcount g.txMask + popcount g.rxMask }
    let d := (d.count 0x0A0 (l / 4) 0x3F l).sendFault 5 (l / 4) 1 0 0x3F detail
    (d.count 0x107 (l / 4) 0x3F l).settleAll p l

/-- A link goes down (R220, R242): its replay buffer, tracks and credit go, every near entry that crossed it ends, entries of
requests that came over it become orphans, and the next bring-up is fresh. -/
def Dev.igDown (d : Dev) (p : Profile) (l : Nat) : Dev :=
  let g := d.igg l
  let d := (d.finLong? g.trainLong .aborted []).dropWidth l
  let crossed := d.weir.trk.filter fun e => ! e.2.done && decide (e.2.dst = l) && (match e.2.init with
    | .link _ => e.2.acc != .none
    | _ => false)
  let firsts := crossed.filter fun e => (crossed.find? fun x => decide (x.2.grp = e.2.grp)).map (·.1) == some e.1
  let d := firsts.foldl (fun d e => d.sendFault 6 (l / 4) 0x18 1 e.2.reach e.2.addr) d
  let d := (d.onIg l fun g => { st := .detect, stageT := d.clk.t6, gen := (g.gen + 1) % 4, trained := 0 }).onWeir fun w => { w with
    calU := w.calU.erase l }
  let d := d.linkLost l
  let d := d.loseMons (fun m => match m.init with
    | .far i _ => decide (i = g.pId)
    | _ => false) 5
  let d := d.onWeir fun w => { w with
    trk := w.trk.map fun e =>
      if (e.2.far.map (·.link)) = some l ∧ e.2.orphan.isNone ∧ ! e.2.rspOut then (e.1, { e.2 with orphan := some d.clk.t6 }) else e }
  let d := (d.brg.far.filter fun e => decide (e.2.link = l)).foldl (fun d e => d.dropFarLock e.1) d
  let d := d.onBrg fun b => { b with out := b.out.filter fun x => decide (x.1 ≠ l) }
  let d := d.freeFarPaths (fun x => decide (x.2.egress = l)) false
  let d := (d.weir.paths.filter fun x => decide (x.2.egress = l) && x.2.freeing).foldl (fun d x =>
    (d.onWeir fun w => { w with paths := w.paths.erase x.1 }).finLong? x.2.long .success []) d
  let d := d.onEgr fun e => { e with stall := e.stall.filter fun x => decide (x ≠ l) }
  ((d.count 0x0A1 (l / 4) 0x3F l).sendFault 5 (l / 4) 2 1 0x3F 0).settleAll p l

/-! ### Lane changes (R213–R216) -/

/-- A countdown for the transmit direction starts, unless one runs (R214). -/
def Dev.startChange (d : Dev) (l mask : Nat) : Dev :=
  d.onIg l fun g => if g.cd.isSome then g else { g with cd := some (mask, 16) }

/-- A mask keeps R213 against the mask in use: a subset, or a superset whose added lanes are trained. -/
def Ig.changeOk (g : Ig) (add : Bool) (cur mask : Nat) : Bool :=
  maskOk mask && (if add then subMask cur mask && subMask mask (cur ||| g.trained) else subMask mask cur)

/-- A lane command of a header is used: an announcement is followed, a request is answered, and one that breaks R213 is counted. -/
def Dev.laneCommand (d : Dev) (l cmd arg : Nat) : Dev :=
  let g := d.igg l
  let mask := arg / 256
  let c := arg % 256
  if ! g.changeOk (cmd = 3) (if c = 0 then g.txMask else g.rxMask) mask then d.count 0x116 (l / 4) 0x3F l
  else if c = 0 then d.startChange l mask
  else d.onIg l fun g => { g with cdRx := some (mask, c) }

/-- The rate from which a link's calendar derives stays `u` until the next commit epoch, unless it stays already (R216). -/
def Dev.holdCal (d : Dev) (l u : Nat) : Dev :=
  d.onWeir fun w => { w with calU := if (w.calU.get? l).isSome then w.calU else w.calU.set l u }

/-- The width of a direction changed (R216); `send` for the transmit direction, from which the calendar derives. -/
def Dev.widthChanged (d : Dev) (l old new : Nat) (send : Bool) : Dev :=
  if popcount old = popcount new then d
  else (if send then d.holdCal l (iggRate (popcount old)) else d).count 0x093 (l / 4) 0x3F l

/-- A direction narrows for a failing lane without a spare (R215): the receiver asks for the widest valid mask without it. -/
def Dev.askNarrow (d : Dev) (l lane : Nat) : Dev :=
  d.onIg l fun g => { g with req := some (widestMask (clrBit g.rxMask lane)) }

/-! ### Receiving flits -/

/-- A replay begins, or one of the limits of R209 is reached. -/
def Dev.startReplay (d : Dev) (p : Profile) (l rr : Nat) : Dev :=
  let d := d.onIg l fun g => { g with rrActed := rr }
  let g := d.igg l
  match g.replay.head? with
  | none => d.count 0x117 (l / 4) 0x3F l
  | some h =>
    let n := if g.rfirst = h.seq then g.rcount else 0
    let hit := g.limitHit && decide (g.rfirst = h.seq)
    if n ≥ d.igSet l 2 + d.igSet l 3 then d.igDown p l
    else if n ≥ d.igSet l 2 ∧ ! hit then
      let d := d.onIg l fun g => { g with rfirst := h.seq, rcount := n, limitHit := true }
      (d.onIg l fun g => g.sendRetrain 1).igRetrain p l 1
    else
      let d := d.onIg l fun g => { g with rfirst := h.seq, rcount := n + 1, limitHit := hit, resend := g.replay }
      d.count 0x117 (l / 4) 0x3F l

/-- A flit is discarded (R200, R202): it is counted, and in ACTIVE a replay is requested; the eighth in a row that fails its
check is a loss of lock (R263). -/
def Dev.discardFlit (d : Dev) (p : Profile) (l : Nat) (check : Bool) : Dev :=
  let d := d.count 0x116 (l / 4) 0x3F l
  let d := d.onIg l fun g =>
    let act := g.pCd == 1
    let g := { g with
      bad8 := if check then g.bad8 + 1 else 0, cdRx := g.cdRx.map fun x => (x.1, x.2 - 1)
      pCd := if ! act && decide (g.pCd > 1) then g.pCd - 1 else g.pCd }
    if act then g.askReplay d.clk.t6 else g
  if (d.igg l).bad8 ≥ 8 then (d.onIg l fun g => { g with bad8 := 0 }).igRetrain p l 0x10 else d

/-- The live fields of a header that passed its checks are used (R198, R206, R208, R212, R213, R219). -/
def Dev.liveFields (d : Dev) (p : Profile) (l h : Nat) : Dev :=
  let d := d.onIg l fun g => (g.free (bits h 111 100)).creditBack (bits h 97 95) (bits h 94 82)
  let d := if bits h 99 98 = (d.igg l).rrActed then d else d.startReplay p l (bits h 99 98)
  match bits h 127 124 with
  | 2 => d.laneCommand l 2 (bits h 79 64)
  | 3 => d.laneCommand l 3 (bits h 79 64)
  | 4 => d.igRetrain p l (bits h 71 64)
  | _ => d

/-- A flit was accepted in order (R206, R207): E advances, ack after 16, and an outstanding request is met. -/
def Ig.accept (g : Ig) (now : Nat) : Ig :=
  let g := { g with e := (g.e + 1) % 4096, gotAny := true, outst := none }
  if g.since + 1 ≥ 16 then { g with ack := (g.e + 4095) % 4096, since := 0, ackT := none }
  else { g with since := g.since + 1, ackT := g.ackT.or (some now) }

/-- STUFF_ERROR is counted for each lane on which a removed symbol had the wrong level (R260). -/
def Dev.stuffErrors (d : Dev) (l : Nat) (fl : Flit) : Dev := fl.stuff.foldl (fun d n => d.count 0x11E (l / 4) 0x3F n) d

/-- A flit arrives on an Iggevo link (R197–R208). The slots of a sequenced flit are accepted only in order. -/
def execFlitReceived (dt link : Nat) (fl : Flit) (s : State) : Host.Outcome State Fault Refusal :=
  event dt s fun _ p d =>
    let g := d.igg link
    if ! d.isIggevo link ∨ ! (g.st = .active ∨ g.st = .exchange) then d
    else
      let d := d.stuffErrors link fl
      let h := fl.hdr.toNat
      let exch := g.pCd != 1
      if fl.errs.any fun n => decide (n > 5) then d.discardFlit p link true
      else
        let d := if fl.errs.sum = 0 then d else d.countN 0x115 (link / 4) 0x3F 7 link fl.errs.sum
        if crc64 (flitBody fl) ≠ fl.crc then d.discardFlit p link true
        else
          let descs := (List.range 8).map (flitDesc h)
          let sequenced : Bool := ! exch && decide (bits h 127 124 ≠ 1) && descs.any fun x => decide (x / 32 ≠ 7)
          let slots := descs.zip ((List.range 8).map fun k => fit 64 (fl.slots.getD k []))
          let inOrder : Bool := sequenced && decide (bits h 123 112 = g.e)
          let taken := if inOrder then takeSlots g.tracks slots else some (g.tracks, [])
          match taken with
          | none => d.discardFlit p link false
          | some (tr, msgs) =>
            if badHeader exch h then d.discardFlit p link false
            else
              let d := d.onIg link fun g => { g with bad8 := 0 }
              let d := if inOrder then d.onIg link fun g =>
                  { g.accept d.clk.t6 with tracks := tr, rx := g.rx ++ msgs.map fun m => (m.1, m.2, d.now) }
                else if sequenced ∧ ! (1 ≤ (g.e + 4096 - bits h 123 112) % 4096 ∧ (g.e + 4096 - bits h 123 112) % 4096 ≤ 2048) then
                  d.onIg link fun g => g.askReplay d.clk.t6
                else d
              d.liveFields p link h

/-- ack advances 200 ns after the first flit accepted since it last advanced (R207). -/
def execAckTimer (dt link : Nat) (s : State) : Host.Outcome State Fault Refusal :=
  event dt s fun _ _ d =>
    match (d.igg link).ackT with
    | some t => if d.since t < 1200 then d
      else d.onIg link fun g => { g with ack := (g.e + 4095) % 4096, since := 0, ackT := none }
    | none => d

/-- A replay request lapses after 2 µs (R208). -/
def execReplayRequestTimeout (dt link : Nat) (s : State) : Host.Outcome State Fault Refusal :=
  event dt s fun _ _ d =>
    match (d.igg link).outst with
    | some t => if d.since t < 2 * us6 then d else d.onIg link fun g => { g with outst := none }
    | none => d

/-- A link retrains for a cause of LINK_RETRAIN (R219): a request of the partner, the replay limit, loss of lock, or a command. -/
def execRetrain (dt link cause : Nat) (s : State) : Host.Outcome State Fault Refusal :=
  event dt s fun _ p d =>
    if d.isIggevo link ∧ [1, 2, 3, 0x10, 0x11].contains cause = true then d.igRetrain p link cause else d

/-- A link goes down (R220): a retrain that does not reach ACTIVE within 10 ms, the replay limit, loss of signal, or a partner
that has lost its state. -/
def execLinkDown (dt link : Nat) (cause : DownCause) (s : State) : Host.Outcome State Fault Refusal :=
  event dt s fun _ p d =>
    let g := d.igg link
    let up : Bool := g.st == .active || g.resume
    let holds : Bool := match cause with
      | .retrainTimeout => g.resume && g.st != .active && decide (d.since g.t6 ≥ 10 * ms6)
      | .lossOfSignal => g.resume && g.st != .active && ((List.range 8).filter g.rxMask.testBit).all fun n =>
          (d.phy.lane.getD (link / 4, n) {}).los && decide (d.since (d.phy.lane.getD (link / 4, n) {}).losT ≥ ms6)
      | _ => up
    if d.isIggevo link && holds then d.igDown p link else d

/-! ### Exchange -/

/-- The sequence, replay, credit and track state of a link before the first flit of a fresh bring-up (R206, R212, R220). The
partner's flits can be ACTIVE before this side's are, so it stands from the entry into EXCHANGE. -/
def Ig.fresh (g : Ig) : Ig :=
  { g with
    seq := 0, sentAny := false, e := 0, gotAny := false, ack := 0xFFF, since := 0, ackT := none, rr := 0, rrActed := 0
    outst := none, replay := [], resend := [], rcount := 0, rfirst := 0, limitHit := false, build := [], tracks := [], rx := []
    txTrk := [], u := [0, 0, 0, 0, 0, 0], crLast := [0, 0, 0, 0, 0, 0], f := [0, 0, 0, 0, 0, 0], txN := 0, lastSeq := 0xFFF, moved := false }

/-- EXCHANGE failed (R217, R218): the link returns to DETECT. -/
def Dev.exFail (d : Dev) (l : Nat) : Dev := (d.igStart l).count 0x0A2 (l / 4) 0x3F l

/-- A reserved bit of a link record is set (Table LINK-7, R221). -/
def recordBad (r : Bytes) : Bool :=
  decide (byteAt r 1 ≥ 16) || decide (byteAt r 13 ≠ 0) || decide (leN r 60 4 ≠ 0)
  || decide (byteAt r 45 ≥ 16)
  || (decide (leN r 46 6 ≠ 2 ^ 48 - 1) && decide (byteAt r 51 ≥ 16))
  || (decide (leN r 52 6 ≠ 2 ^ 48 - 1) && decide (byteAt r 57 ≥ 16))
  || (decide (leN r 58 2 ≠ 0xFFFF) && decide (byteAt r 59 ≥ 16))

/-- The partner's credit figures keep R210. -/
def recordCredit (r : Bytes) : Bool :=
  let pool := leN r 14 2
  decide (384 ≤ pool) && decide (pool ≤ 4096)
  && (List.range 6).all fun c =>
    decide (64 ≤ leN r (16 + 2 * c) 2) && decide (leN r (16 + 2 * c) 2 ≤ leN r (28 + 2 * c) 2) && decide (leN r (28 + 2 * c) 2 ≤ pool)

/-- The signed difference of two 44-bit times in sixteenths of a nanosecond. -/
def diff16 (a b : Nat) : Int := signed 44 (a + 2 ^ 44 - b % 2 ^ 44)

/-- delay and theta of a link record with valid echo fields received at `rx` (R222). -/
def recordTimes (r : Bytes) (rx : Nat) : Option (Int × Int) :=
  let t1 := leN r 46 6
  let t2 := leN r 52 6
  let t3 := leN r 40 6
  if t1 = 2 ^ 48 - 1 ∨ t2 = 2 ^ 48 - 1 then none
  else some ((diff16 rx t1 - diff16 t3 t2) / 2, (diff16 rx t3 + diff16 t1 t2) / 2)

/-- The time fields of a partner's record, and its flags, are kept. -/
def Ig.noteRecord (g : Ig) (r : Bytes) (rx : Nat) : Ig :=
  { g with pFlags := byteAt r 1, pRoot := leN r 8 4, pHops := byteAt r 12, echoTx := some (leN r 40 6), echoRx := some rx }

/-- Records that count as equal (R217): bytes 0 and 2–39, and bit 3 of byte 1. -/
def recordsEqual (a b : Bytes) : Bool :=
  byteAt a 0 == byteAt b 0 && (a.drop 2).take 38 == (b.drop 2).take 38 && (byteAt a 1).testBit 3 == (byteAt b 1).testBit 3

/-- A partner's link record arrives during EXCHANGE (R210, R217–R219, R222). -/
def execLinkRecordReceived (dt link : Nat) (rec_ : List Byte) (rx16 : Nat) (s : State) : Host.Outcome State Fault Refusal :=
  event dt s fun _ p d =>
    let g := d.igg link
    if ! d.isIggevo link ∨ ! (g.st = .exchange ∨ (g.st = .active ∧ g.pCd ≠ 1)) then d
    else if recordBad rec_ then d.count 0x116 (link / 4) 0x3F link
    else if byteAt rec_ 0 ≠ 1 ∨ leN rec_ 4 4 = d.switchId ∨ recordCredit rec_ = false then (if g.st = .exchange then d.exFail link else d)
    else if g.resume ∧ ! (byteAt rec_ 1).testBit 3 then d.igDown p link
    else
      let same : Bool := match g.pRec with
        | some r => recordsEqual r rec_
        | none => false
      let d := d.degrade link fun g =>
        let g := g.noteRecord rec_ rx16
        { g with
          pRec := some rec_, seen := g.seen || same, pSeen := g.pSeen || (byteAt rec_ 1).testBit 0
          pVer := 1, pId := leN rec_ 4 4, pPool := leN rec_ 14 2, pMin := (List.range 6).map fun c => leN rec_ (16 + 2 * c) 2
          pMax := (List.range 6).map fun c => leN rec_ (28 + 2 * c) 2, pResume := leN rec_ 58 2
          pCd := if byteAt rec_ 3 = 0 then g.pCd else byteAt rec_ 3 }
      d.onIg link fun g =>
        let g := if g.seen && g.pSeen && decide (g.exCd = 0) && g.st == .exchange then { g with exCd := 16 } else g
        match recordTimes rec_ rx16 with
        | some (delay, theta) =>
          { g with
            moved := g.moved || (g.resume && decide ((delay - g.tCable).natAbs > 32)), tCable := delay
            thetas := (g.thetas ++ [theta]).drop (g.thetas.length + 1 - 8) }
        | none => g

/-- The countdown of EXCHANGE ends and the link is ACTIVE (R217, R219, R225): fresh, or after a retrain with
the held flits from the partner's resume_ack + 1 to send again. -/
def execExchangeComplete (dt link : Nat) (s : State) : Host.Outcome State Fault Refusal :=
  event dt s fun _ p d =>
    let g := d.igg link
    if ! d.isIggevo link ∨ g.st ≠ .exchange ∨ g.exCd = 0 then d
    else
      let d := d.onIg link fun g =>
        let g := { g with st := .active, tfT := d.clk.t6, tdBad := 0, tdGood := 0, exCd := 0 }
        if g.resume then
          let g := if g.pResume = 0xFFFF then g else g.free g.pResume
          { g with resend := g.replay, resume := false, outst := none }
        else g
      let d := if g.resume ∧ g.width0 ≠ 16 * popcount g.txMask + popcount g.rxMask then
          (d.holdCal link (iggRate (g.width0 / 16))).count 0x093 (link / 4) 0x3F link
        else d
      let d := if g.resume ∧ g.moved then d.suspendPaths link else d
      let d := (d.finLong? g.trainLong .success []).onIg link fun g => { g with trainLong := none }
      d.unstall p link

/-- EXCHANGE did not complete within 100 µs (R217). -/
def execExchangeFailed (dt link : Nat) (s : State) : Host.Outcome State Fault Refusal :=
  event dt s fun _ _ d =>
    if d.isIggevo link ∧ (d.igg link).st = .exchange ∧ d.since (d.igg link).stageT ≥ 100 * us6 then d.exFail link else d

/-! ### Time (R221–R225) -/

/-- The link record that the device sends on a link at a time (Table LINK-7): in a time flit the lane mask is that of EXCHANGE. -/
def Dev.linkRecord (d : Dev) (l t16 : Nat) : Bytes :=
  let g := d.igg l
  let six (f : Nat → Nat) : Bytes := (List.range 6).flatMap fun c => nb 2 (f c)
  nb 1 1 ++ nb 1 (b2n g.seen + 2 * b2n g.tdOwn + 4 * b2n (d.tim.up == some l) + 8 * b2n g.resume)
    ++ nb 1 (if g.st = .exchange then g.txMask else g.exMask) ++ nb 1 (if g.st = .exchange then g.exCd else 0)
    ++ nb 4 d.switchId ++ nb 4 d.tim.root ++ nb 1 (if d.tim.hold then 255 else d.tim.hops) ++ zeros 1
    ++ nb 2 4096 ++ six (fun _ => creditMin) ++ six creditMax
    ++ nb 6 t16 ++ nb 6 (g.echoTx.getD (2 ^ 48 - 1)) ++ nb 6 (g.echoRx.getD (2 ^ 48 - 1))
    ++ nb 2 (if g.resume then (g.e + 4095) % 4096 else 0xFFFF) ++ zeros 4

/-- One time flit is sent in each 8,192 ns period, unless a lane countdown runs (R214, R222). -/
def execTimeFlitSend (dt link : Nat) (s : State) : Host.Outcome State Fault Refusal :=
  event dt s fun _ _ d =>
    let g := d.igg link
    if ! d.isIggevo link ∨ g.st ≠ .active ∨ g.cd.isSome ∨ g.tfSent = some (d.now / 8192) then d
    else d.onIg link fun g => { g.emit (1, 0) g.lastSeq [(0xA3, d.linkRecord link d.now16)] with
      tfSent := some (d.now / 8192), lastTx := some d.now16 }

/-- The mean of the last four thetas, in forty-eighths of a nanosecond. -/
def meanTheta48 (l : List Int) : Int :=
  let x := l.drop (l.length - 4)
  3 * x.sum / (max 1 x.length : Nat)

/-- A time flit arrives (R222, R223, R225): theta drives slewing on the upstream link and the time-degraded state. -/
def execTimeFlitReceived (dt link : Nat) (rec_ : List Byte) (rx16 : Nat) (s : State) : Host.Outcome State Fault Refusal :=
  event dt s fun _ _ d =>
    let g := d.igg link
    if ! d.isIggevo link ∨ g.st ≠ .active ∨ g.pCd ≠ 1 then d
    else if recordBad rec_ then d.count 0x116 (link / 4) 0x3F link
    else
      let d := d.onIg link fun g => { g with tfT := d.clk.t6 }
      match recordTimes rec_ rx16 with
      | none => d.degrade link fun g => g.noteRecord rec_ rx16
      | some (_, theta) =>
        let d := d.degrade link fun g =>
          let bad := if theta.natAbs > 96 then g.tdBad + 1 else 0
          let good := if theta.natAbs ≤ 64 then g.tdGood + 1 else 0
          let g := { g.noteRecord rec_ rx16 with
            thetas := (g.thetas ++ [theta]).drop (g.thetas.length + 1 - 8), tdBad := bad, tdGood := good }
          { g with tdOwn := if bad ≥ 4 then true else if good ≥ 8 then false else g.tdOwn
                   conflict := g.conflict && decide (good < 8) }
        if d.tim.up = some link then d.onClk fun c => { c with slew := -(meanTheta48 (d.igg link).thetas), slewT := 0 } else d

/-- No time flit for 32,768 ns (R225). -/
def execTimeFlitMissing (dt link : Nat) (s : State) : Host.Outcome State Fault Refusal :=
  event dt s fun _ _ d =>
    let g := d.igg link
    if d.isIggevo link ∧ g.st = .active ∧ d.since g.tfT ≥ 196608 then d.degrade link fun g => { g with tdOwn := true } else d

/-- `a` offers a better root than `b` (R224): root id, then hops, then link. -/
def betterTime (a b : Nat × Nat × Nat) : Bool :=
  decide (a.1 < b.1) || (decide (a.1 = b.1) && (decide (a.2.1 < b.2.1) || (decide (a.2.1 = b.2.1) && decide (a.2.2 < b.2.2))))

/-- The links that offer time: ACTIVE, allowed, and not in holdover (R224). -/
def Dev.timeOffers (d : Dev) : List (Nat × Nat × Nat) :=
  (d.links.filter fun l => d.isIggevo l && (d.igg l).st == .active && (d.igg l).pVer == 1 && (d.igSet l 4).testBit 0
      && decide ((d.igg l).pHops ≠ 255)).map fun l => ((d.igg l).pRoot, (d.igg l).pHops, l)

/-- The best of some offers. -/
def bestTime (l : List (Nat × Nat × Nat)) : Option (Nat × Nat × Nat) :=
  l.foldl (fun o x => match o with
    | some y => if betterTime x y then some x else o
    | none => some x) none

/-- A link becomes the time upstream. -/
def Dev.follow (d : Dev) (x : Nat × Nat × Nat) : Dev :=
  if d.tim.up = some x.2.2 then d.onTim fun t => { t with root := x.1, hops := x.2.1 + 1, hold := false }
  else d.onTim fun t => { t with root := x.1, hops := x.2.1 + 1, up := some x.2.2, hold := false, stepped := false }

/-- The device chooses its upstream (R224): by root, hops and link, with itself as a candidate; in a mode that admits tenant
traffic, only a link of its own root within 4 ns. -/
def execUpstreamSelect (dt : Nat) (s : State) : Host.Outcome State Fault Refusal :=
  event dt s fun m _ d =>
    let own := d.switchId
    let offers := d.timeOffers
    let alone := (d.tim.up.isNone && ! d.tim.hold)
    if m.tenant then
      let worse (x : Nat × Nat × Nat) : Bool := decide (x.1 < d.tim.root)
      let fresh := (offers.filter fun x => worse x && ! (d.igg x.2.2).conflict).map (·.2.2)
      let d := fresh.foldl (fun d l => (d.count 0x033 (l / 4) 0x3F l).degrade l fun g => { g with tdOwn := true, conflict := true, tdGood := 0 }) d
      let ok := offers.filter fun x => decide (x.1 = d.tim.root)
        && (d.tim.up == some x.2.2 || decide (((d.igg x.2.2).thetas.getLast?.getD 1000).natAbs ≤ 64))
      match bestTime ok with
      | some x => if alone then d else d.follow x
      | none => if alone then d else d.onTim fun t => { t with up := none, hold := true }
    else
      match bestTime offers with
      | some x =>
        if betterTime (x.1, x.2.1, x.2.2) (own, 0, 0) then d.follow x
        else d.onTim fun t => { t with root := own, hops := 0, up := none, hold := false }
      | none =>
        if alone ∨ d.tim.root = own then d.onTim fun t => { t with root := own, hops := 0, up := none, hold := false }
        else d.onTim fun t => { t with up := none, hold := true }

/-! ### Commands -/

/-- The 16-bit field at `o` is an Iggevo link (R228, R249). -/
def iggAt (o : Nat) : Check := need o fun c => c.d.isIggevo (c.u16 o)

/-- IGGEVO_DEVICE_SET. -/
def cmdIggevoDeviceSet : Cmd where
  op := 0x7010
  len := 8
  src := Src.admin
  mode := (· == .configure)
  fields := [need 0 fun c => decide (1 ≤ c.u32 0) && decide (c.u32 0 ≤ 0xFFFFFFFE), rsvd 4 4]
  state := stageChecks (fun _ => devSet) false fun _ => 1
  body := stages (fun _ => devSet) fun c => [({ op := 0x7010 }, some (fit 8 c.f.payload))]

def execIggevoDeviceSet (dt : Nat) (f : Frame) (s : State) : Host.Outcome State Fault Refusal :=
  bilod cmdIggevoDeviceSet dt f s

/-- IGGEVO_LINK_SET. -/
def cmdIggevoLinkSet : Cmd where
  op := 0x7011
  len := 8
  src := Src.operator
  fields := [iggAt 0, need 2 fun c => decide (1 ≤ c.u8 2) && decide (c.u8 2 ≤ 15),
    need 3 fun c => decide (1 ≤ c.u8 3) && decide (c.u8 3 ≤ 15), rsvdBits 4 7 1, rsvd 5 3]
  state := stageChecks (fun _ => devSet) false fun _ => 1
  body := stages (fun _ => devSet) fun c => [({ op := 0x7011, a := c.u16 0 }, some (fit 8 c.f.payload))]

def execIggevoLinkSet (dt : Nat) (f : Frame) (s : State) : Host.Outcome State Fault Refusal :=
  bilod cmdIggevoLinkSet dt f s

/-- The state code of Table LINK-11. -/
def IgSt.code : IgSt → Nat
  | .down => 0 | .detect => 1 | .pattern => 2 | .lock => 3 | .exchange => 4 | .active => 5 | .retrain => 6

/-- IGGEVO_LINK_STATUS_GET (Table LINK-11). -/
def cmdIggevoLinkStatusGet : Cmd where
  op := 0x7012
  len := 4
  src := Src.watch
  fields := [iggAt 0, rsvd 2 2]
  body := reads fun c =>
    let l := c.u16 0
    let g := c.d.igg l
    let old : Bool := match g.replay.head? with
      | some h => decide (g.rfirst = h.seq)
      | none => false
    nb 1 g.st.code ++ nb 1 g.txMask ++ nb 1 g.rxMask
      ++ nb 1 (b2n (c.d.timeDegraded l) + 2 * b2n (c.d.tim.up == some l) + 4 * b2n (g.cd.isSome || g.cdRx.isSome))
      ++ nb 4 g.pId ++ intBytes 4 g.tCable ++ intBytes 4 (g.thetas.getLast?.getD 0) ++ nb 1 (if old then g.rcount else 0) ++ zeros 3
      ++ g.u.flatMap (nb 2)

def execIggevoLinkStatusGet (dt : Nat) (f : Frame) (s : State) : Host.Outcome State Fault Refusal :=
  bilod cmdIggevoLinkStatusGet dt f s

/-- IGGEVO_LANE_WIDTH_SET (R213, R215): the transmit direction counts down, the receive direction is asked of the partner. A link
that is not ACTIVE answers WRONG_MODE (assumption 26). -/
def cmdIggevoLaneWidthSet : Cmd where
  op := 0x7013
  len := 4
  src := Src.operator
  long := true
  fields := [iggAt 0,
    need 2 fun c =>
      let g := c.d.igg (c.u16 0)
      let m := c.u8 2
      let ok (cur : Nat) : Bool := g.changeOk (subMask cur m) cur m
      maskOk m && subMask m (g.trained ||| g.txMask)
        && (! (c.u8 3).testBit 0 || ok g.txMask) && (! (c.u8 3).testBit 1 || ok g.rxMask),
    rsvdBits 3 7 2]
  state := [require .wrongMode fun c => (c.d.igg (c.u16 0)).st == .active,
    require .busy fun c => (c.d.igg (c.u16 0)).cd.isNone && (c.d.igg (c.u16 0)).cdRx.isNone && (c.d.igg (c.u16 0)).widthLong.isNone]
  body := fun c =>
    let l := c.u16 0
    let m := c.u8 2
    if bits (c.u8 3) 1 0 = 0 then (c.d, .ended .success [])
    else
      let d := if (c.u8 3).testBit 0 then c.d.startChange l m else c.d
      (d.onIg l fun g => { g with widthLong := some (c.f.mbx, c.f.tag), req := if (c.u8 3).testBit 1 then some m else g.req }, .started [])

def execIggevoLaneWidthSet (dt : Nat) (f : Frame) (s : State) : Host.Outcome State Fault Refusal :=
  bilod cmdIggevoLaneWidthSet dt f s

/-- IGGEVO_RETRAIN (R219). A link that is not ACTIVE answers WRONG_MODE (assumption 26). -/
def cmdIggevoRetrain : Cmd where
  op := 0x7014
  len := 4
  src := Src.operator
  long := true
  fields := [iggAt 0, rsvd 2 2]
  state := [require .wrongMode fun c => (c.d.igg (c.u16 0)).st == .active]
  body := fun c =>
    let l := c.u16 0
    let d := (c.d.onIg l fun g => g.sendRetrain 3).igRetrain c.p l 0x11
    (d.onIg l fun g => { g with trainLong := some (c.f.mbx, c.f.tag) }, .started [])

def execIggevoRetrain (dt : Nat) (f : Frame) (s : State) : Host.Outcome State Fault Refusal :=
  bilod cmdIggevoRetrain dt f s

/-- TIME_STATUS_GET. -/
def cmdTimeStatusGet : Cmd where
  op := 0x7015
  src := Src.watch
  body := reads fun c =>
    let t := c.d.tim
    nb 4 t.root ++ nb 1 (if t.hold then 255 else t.hops) ++ nb 1 (b2n t.hold + 2 * b2n (t.up.isNone && ! t.hold))
      ++ nb 2 (t.up.getD 0xFFFF) ++ nb 5 c.d.now

def execTimeStatusGet (dt : Nat) (f : Frame) (s : State) : Host.Outcome State Fault Refusal :=
  bilod cmdTimeStatusGet dt f s

end Sys2Proof.Machine
end

