-- ==== Sys2Proof/Machine/Lanes.lean ====
section
/-! DEFINITION. Lanes and physical layer (chapter 11): Iggevo bring-up (R265–R267), failing lanes and the spare lane
(R264, R268–R270), CXL width changes (R256), adaptation, calibration, scans and tests (R261, R271–R274), and the
commands of Table LANE-10. -/

namespace Sys2Proof.Machine

/-! ### Lanes -/

/-- A lane. -/
def Dev.lane (d : Dev) (t n : Nat) : Lane := d.phy.lane.getD (t, n) {}

/-- The device with one lane changed. -/
def Dev.onLane (d : Dev) (t n : Nat) (f : Lane → Lane) : Dev :=
  d.onPhy fun x => { x with lane := x.lane.upd (t, n) {} f }

/-- The link of a CXL tile that uses a lane (R250). -/
def Dev.laneLink (d : Dev) (t n : Nat) : Nat := 4 * t + n / lanesPer (d.tileCode t)

/-- The lane that the spare of a CXL tile stands in for (R268). -/
def Dev.sparedLane (d : Dev) (t : Nat) : Option Nat := (List.range 8).find? fun n => (d.lane t n).spared

/-- The spares of both directions of an Iggevo tile are in standby (R270). -/
def Ig.spareIdle (g : Ig) : Bool :=
  ! g.clkOn9 && ! g.pOn9 && g.subbed.isNone && g.subbedTx.isNone && g.mirror.isNone && g.subT.isNone

/-- A lane of a running link carries data. -/
def Dev.laneLive (d : Dev) (t n : Nat) : Bool :=
  if d.tileCode t = 3 then
    let g := d.igg (4 * t)
    g.st == .active && (if n < 8 then (g.rxMask.testBit n || g.txMask.testBit n) else n == 8 || ! g.spareIdle)
  else if n < 8 then
    let p := d.port (d.laneLink t n)
    p.up && decide (n % lanesPer (d.tileCode t) < p.width)
  else n == 9 && (d.sparedLane t).isSome

/-- The LTSSM states that this model tells apart, coded as CXL 3.2 codes them (PRESUMED, assumption 27): Detect, Recovery, L0. -/
def ltRecovery : Nat := 3
/-- L0, and L0p within it. -/
def ltL0 : Nat := 4

/-- A CXL link goes through Recovery; its egress is stalled meanwhile (R138, R263, R268). -/
def Dev.recover (d : Dev) (p : Profile) (l : Nat) : Dev :=
  if (d.port l).up && (d.port l).ltssm == ltL0 then
    let d := d.onCxl fun x => { x with port := x.port.upd l {} fun q => { q with ltssm := ltRecovery } }
    let d := if d.egr.stall.contains l then d else (d.onEgr fun e => { e with stall := e.stall ++ [l] }).count 0x107 (l / 4) 0x3F l
    d.settleAll p l
  else d

/-- Lane 9 is in service in a direction (0 transmit, 1 receive) for a lane, or for the forwarded clock (8): LANE_SUBSTITUTED. -/
def Dev.spareInUse (d : Dev) (t dir what : Nat) : Dev := (d.count 0x091 t 0x3F dir).sendFault 7 t 2 0 0x3F what

/-! ### Failing lanes and substitution -/

/-- What a receiver does about a failing logical lane of an Iggevo link (R269, R270, R215): take the spare, or ask for a
narrower direction; while a countdown or substitution runs, it waits. -/
def Dev.iggLaneAct (d : Dev) (l n : Nat) : Dev :=
  let g := d.igg l
  if g.st ≠ .active then d
  else if g.cd.isSome || g.cdRx.isSome then d.onIg l fun g => { g with pend := g.pend ++ [n] }
  else match g.subT with
    | some t =>
      -- two lanes of one fabric cycle: the one at or after the pointer takes the spare (R270)
      let win := (rotate 8 (d.clk.cyc % 8) fun k => decide (k = n) || decide (k = g.sub)).getD g.sub
      if t = d.clk.t6 ∧ win = n then d.onIg l fun g => { g with sub := n, pend := g.pend ++ [g.sub] }
      else d.onIg l fun g => { g with pend := g.pend ++ [n] }
    | none =>
      if g.spareIdle then d.onIg l fun g => { g with sub := n, subT := some d.clk.t6, subReady := false }
      else d.askNarrow l n

/-- The lanes that waited for a countdown or substitution are handled. -/
def Dev.actPending (d : Dev) (l : Nat) : Dev :=
  let ns := (d.igg l).pend
  ns.foldl (fun d n => d.iggLaneAct l n) (d.onIg l fun g => { g with pend := [] })

/-- The spare of a CXL tile takes a lane, and the link goes through Recovery (R268). -/
def Dev.cxlSpare (d : Dev) (p : Profile) (t n : Nat) : Dev :=
  let d := d.onLane t n fun x => { x with spared := true, spareT := d.clk.t6, st := 0 }
  (d.spareInUse t 1 n).recover p (d.laneLink t n)

/-- A data lane is marked failing for a row of Table LANE-5 (R264, R268). A CXL lane that fails again within 1 s of its
substitution gets its own circuits back, and the link narrows through Recovery. -/
def Dev.laneFail (d : Dev) (p : Profile) (t n row : Nat) : Dev :=
  let again : Bool := (d.lane t n).spared && decide (d.since (d.lane t n).spareT < s6)
  if t ≥ 64 ∨ n ≥ 10 ∨ n = 8 ∨ row < 1 ∨ row > 4 ∨ d.laneLive t n = false ∨ ((d.lane t n).st = 4 ∧ again = false) then d
  else
    let d := (d.onLane t n fun x => { x with st := 4 }).count 0x090 t 0x3F n
    let d := d.sendFault 7 t 1 0 0x3F (n + 16 * row)
    if d.tileCode t = 3 then
      let g := d.igg (4 * t)
      d.iggLaneAct (4 * t) (if n = 9 then g.subbed.getD 0 else n)
    else if again then (d.onLane t n fun x => { x with spared := false }).recover p (d.laneLink t n)
    else if (d.sparedLane t).isNone ∧ n < 8 then d.cxlSpare p t n
    else d.recover p (d.laneLink t n)

def execLaneFailing (dt tile lane row : Nat) (s : State) : Host.Outcome State Fault Refusal :=
  event dt s fun _ p d => d.laneFail p tile lane row

/-- A lane's loss-of-signal detector changes (R262): with every active data lane of an Iggevo receiver lost, the link retrains. -/
def execLossOfSignal (dt tile lane : Nat) (asserted : Bool) (s : State) : Host.Outcome State Fault Refusal :=
  event dt s fun _ p d =>
    if tile ≥ 64 ∨ lane ≥ 10 ∨ (d.lane tile lane).los = asserted then d
    else if ! asserted then d.onLane tile lane fun x => { x with los := false }
    else
      let d := (d.onLane tile lane fun x => { x with los := true, losT := d.clk.t6 }).count 0x11C tile 0x3F lane
      let g := d.igg (4 * tile)
      if d.tileCode tile = 3 ∧ g.st = .active ∧ ((maskLanes g.rxMask).all fun n => (d.lane tile n).los) then d.igRetrain p (4 * tile) 0x10
      else d

/-- A lane's phase tracker loses lock (R263): an Iggevo lane is failing, a CXL link goes through Recovery, and a CXL lane that
loses lock again within 1 ms of that is failing. -/
def execLaneLockLost (dt tile lane : Nat) (s : State) : Host.Outcome State Fault Refusal :=
  event dt s fun _ p d =>
    if tile ≥ 64 ∨ lane ≥ 10 ∨ d.laneLive tile lane = false then d
    else
      let d := d.count 0x11D tile 0x3F lane
      if d.tileCode tile = 3 then (d.onLane tile lane fun x => { x with lol := true }).laneFail p tile lane 2
      else
        let near : Bool := match (d.lane tile lane).recT with
          | some t => decide (d.since t < ms6)
          | none => false
        let d := d.onLane tile lane fun x => { x with lol := true, recT := some d.clk.t6 }
        if near then d.laneFail p tile lane 2 else d.recover p (d.laneLink tile lane)

/-- The towpath DLL loses lock: the link retrains (R263). -/
def execTowpathLockLost (dt link : Nat) (s : State) : Host.Outcome State Fault Refusal :=
  event dt s fun _ p d =>
    if ! d.isIggevo link ∨ (d.igg link).st ≠ .active then d
    else (d.count 0x11D (link / 4) 0x3F 8).igRetrain p link 0x10

/-- The receiver has aligned lane 9 and sets sub_ready (R269, step 3). -/
def execSubReady (dt link : Nat) (s : State) : Host.Outcome State Fault Refusal :=
  event dt s fun _ _ d =>
    if (d.igg link).st = .active ∧ (d.igg link).subT.isSome then d.onIg link fun g => { g with subReady := true } else d

/-- A substitution that is not ready within 1 ms is given up, and the direction narrows (R269). -/
def execSubstitutionTimeout (dt link : Nat) (s : State) : Host.Outcome State Fault Refusal :=
  event dt s fun _ _ d =>
    let g := d.igg link
    match g.subT with
    | some t =>
      if g.subReady ∨ d.since t < ms6 then d
      else
        let d := d.finLong? g.subLong .aborted []
        let d := d.onIg link fun g => { g with sub := 0xF, subT := none, subLong := none }
        (d.askNarrow link g.sub).actPending link
    | none => d

/-- At flit F + c a direction uses its new mask (R214, R216), or, with the mask unchanged, lane 9 takes the substituted lane
(R269, step 5). -/
def execLaneChangeAct (dt link : Nat) (transmit : Bool) (s : State) : Host.Outcome State Fault Refusal :=
  event dt s fun _ _ d =>
    let g := d.igg link
    let t := link / 4
    let ended (d : Dev) : Dev :=
      let g := d.igg link
      let d := if g.cd.isNone && g.req.isNone then (d.finLong? g.widthLong .success []).onIg link fun g => { g with widthLong := none } else d
      d.actPending link
    if ! d.isIggevo link ∨ g.st ≠ .active then d
    else if transmit then
      match g.cd with
      | some (m, 0) =>
        let d := d.onIg link fun g => { g with cd := none }
        match g.mirror with
        | some n =>
          if m = g.txMask then
            ended ((d.onIg link fun g => { g with mirror := none, subbedTx := some n }).spareInUse t 0 n)
          else ended ((d.onIg link fun g => { g with txMask := m }).widthChanged link g.txMask m true)
        | none => ended ((d.onIg link fun g => { g with txMask := m }).widthChanged link g.txMask m true)
      | _ => d
    else
      match g.cdRx with
      | some (m, k) =>
        if k > 1 then d
        else
          let d := d.onIg link fun g => { g with cdRx := none, req := if g.req = some m then none else g.req }
          if m = g.rxMask ∧ g.subT.isSome ∧ g.subReady then
            let d := d.finLong? g.subLong .success []
            ended ((d.onIg link fun g => { g with subbed := some g.sub, subT := none, subReady := false, subLong := none }).spareInUse t 1 g.sub)
          else ended ((d.onIg link fun g => { g with rxMask := m }).widthChanged link g.rxMask m false)
      | none => d

/-! ### Iggevo bring-up (R265–R267) -/

/-- DETECT is complete: the towpath DLL has locked, on lane 9 if lane 8 shows loss of signal, and some data lane shows signal. -/
def execDetectComplete (dt link : Nat) (lane8Los anyData : Bool) (s : State) : Host.Outcome State Fault Refusal :=
  event dt s fun _ _ d =>
    if ! d.isIggevo link ∨ (d.igg link).st ≠ .detect ∨ anyData = false then d
    else d.onIg link fun g => { g with st := .pattern, stageT := d.clk.t6, clkOn9 := lane8Los }

/-- DETECT starts again after 1 ms. -/
def execDetectTimeout (dt link : Nat) (s : State) : Host.Outcome State Fault Refusal :=
  event dt s fun _ _ d =>
    if d.isIggevo link ∧ (d.igg link).st = .detect ∧ d.since (d.igg link).stageT ≥ ms6 then
      d.onIg link fun g => { g with stageT := d.clk.t6 }
    else d

/-- The lanes that a receiver uses (R267): the widest valid mask of those that passed PATTERN, with a substituted lane among
them. -/
def rxMaskOf (pass sub : Nat) : Nat := if sub < 8 then pass ||| 2 ^ sub else widestMask pass

/-- PATTERN is complete (R265, R267): polarity is corrected, each data lane is judged, and LOCK begins. A receiver that takes the
forwarded clock from lane 9 has judged it. In a retrain, the clock is taken from lane 9 if lane 8 shows loss of signal. -/
def execPatternComplete (dt link : Nat) (pass inverted : BitVec 8) (s : State) : Host.Outcome State Fault Refusal :=
  event dt s fun _ _ d =>
    let g := d.igg link
    let t := link / 4
    if ! d.isIggevo link ∨ ! (g.st = .pattern ∨ g.st = .retrain) then d
    else if pass.toNat = 0 then d.igStart link
    else
      let on9 := if g.st = .retrain then (d.lane t 8).los else g.clkOn9
      let d := (List.range 8).foldl (fun d n => d.onLane t n fun x => { x with
        inv := inverted.toNat.testBit n, lol := false, st := if pass.toNat.testBit n then 0 else 4 }) d
      d.onIg link fun g => { g with
        st := .lock, stageT := d.clk.t6, clkOn9 := on9, pOn9 := false, pass := pass.toNat, trained := pass.toNat
        rxMask := widestMask pass.toNat, am9 := 0, judged := on9, lane9 := false, sub := 0xF, subTx := 0xF, lockCnt := [], locked := false
        pLocked := none, pTwice := false, subT := none, subReady := false, mirror := none, pend := [], subbed := none, subbedTx := none
        lastAm := none }

/-- A valid alignment marker (Table LANE-6). -/
def markValid (a : AMark) : Bool :=
  a.checkOk && (decide (a.lane < 8) || a.lane == 9) && decide (a.flags < 8) && decide (a.countdown ≤ 16) && decide (a.rxMask < 256)
  && (decide (a.sub < 8) || a.sub == 0xF) && a.rsvd == 0

/-- Markers that carry the same signals, whatever lane they describe. -/
def markSame (a b : AMark) : Bool := decide ({ a with lane := 0, countdown := 0 } = { b with lane := 0, countdown := 0 })

/-- Lane 9 has been judged (R267): usable, it takes the one data lane that failed PATTERN. -/
def Ig.judge9 (g : Ig) (usable : Bool) : Ig :=
  let failed := (List.range 8).filter fun n => ! g.pass.testBit n
  let sub := match failed with
    | [n] => if usable then n else 0xF
    | _ => 0xF
  { g with judged := true, lane9 := usable, sub := sub, rxMask := rxMaskOf g.pass sub }

/-- `locked` is set once lane 9 is judged and four consecutive valid markers have come on every lane of rx_mask (R266). -/
def Ig.setLocked (g : Ig) : Ig :=
  { g with locked := g.locked || (g.judged && (maskLanes g.rxMask).all fun n => decide (g.lockCnt.getD n 0 ≥ 4)) }

/-- A marker in LOCK (R265–R267). -/
def Ig.lockMark (g : Ig) (phys : Nat) (a : AMark) : Ig :=
  let key := if phys = 9 ∧ a.lane = 9 then 9 else a.lane
  let fits : Bool := phys == a.lane || phys == 9
  let g := { g with
    lockCnt := if fits then g.lockCnt.upd key 0 (· + 1) else g.lockCnt
    am9 := if phys = 9 then g.am9 + 1 else g.am9
    pTwice := g.pTwice || (a.flags.testBit 0 && (match g.lastAm with
      | some b => markSame a b
      | none => false))
    pLocked := if a.flags.testBit 0 then some a else g.pLocked
    pOn9 := a.flags.testBit 1, lastAm := some a }
  let g := if phys = 9 ∧ ! g.judged ∧ g.am9 ≥ 64 then g.judge9 true else g
  g.setLocked

/-- A marker of the partner's standby lane 9 in ACTIVE (R269, steps 2 and 4): two equal ones with sub set mirror that lane, and
sub_ready starts the countdown with the mask unchanged. -/
def Ig.subMark (g : Ig) (a : AMark) : Ig :=
  let twice : Bool := match g.lastAm with
    | some b => markSame a b
    | none => false
  let g := { g with lastAm := some a }
  if ! twice ∨ g.subbedTx.isSome then g
  else if a.sub = 0xF then { g with mirror := none }
  else
    let g := { g with mirror := some a.sub }
    if a.flags.testBit 2 ∧ g.cd.isNone then { g with cd := some (g.txMask, 16) } else g

/-- An alignment marker arrives on a lane; one that breaks Table LANE-6 is ignored and counted. -/
def execAmReceived (dt link lane : Nat) (am : AMark) (s : State) : Host.Outcome State Fault Refusal :=
  event dt s fun _ _ d =>
    let g := d.igg link
    if ! d.isIggevo link ∨ lane ≥ 10 ∨ lane = 8 ∨ ! (g.st = .lock ∨ g.st = .active) then d
    else if markValid am = false then
      (d.count 0x11F (link / 4) 0x3F lane).onIg link fun g => { g with
        lockCnt := if lane = 9 then g.lockCnt.erase 9 else g.lockCnt.erase lane, am9 := if lane = 9 then 0 else g.am9 }
    else if g.st = .lock then d.onIg link fun g => g.lockMark lane am
    else if lane = 9 then d.onIg link fun g => g.subMark am
    else d

/-- Lane 9 shows no 64 consecutive valid markers within 100 µs: it is not usable (R267). -/
def execLane9JudgementTimeout (dt link : Nat) (s : State) : Host.Outcome State Fault Refusal :=
  event dt s fun _ _ d =>
    let g := d.igg link
    if d.isIggevo link ∧ g.st = .lock ∧ ! g.judged ∧ d.since g.stageT ≥ 100 * us6 then
      d.onIg link fun g => (g.judge9 false).setLocked
    else d

/-- LOCK is complete (R266, R217, R218): both sides have locked and the countdown has run; the partner's rx_mask is the transmit
mask and its sub is carried on lane 9. A switch with id 0 goes no further than LOCK. -/
def execLockComplete (dt link : Nat) (s : State) : Host.Outcome State Fault Refusal :=
  event dt s fun _ _ d =>
    let g := d.igg link
    let t := link / 4
    match g.pLocked with
    | some a =>
      if ! d.isIggevo link ∨ g.st ≠ .lock ∨ ! g.locked ∨ ! g.pTwice ∨ maskOk a.rxMask = false ∨ d.switchId = 0 then d
      else
        let d := d.onIg link fun g => { (if g.resume then g else g.fresh) with
          st := .exchange, stageT := d.clk.t6, txMask := a.rxMask, exMask := a.rxMask, subTx := a.sub, pOn9 := a.flags.testBit 1
          subbed := if g.sub < 8 then some g.sub else none, subbedTx := if a.sub < 8 then some a.sub else none
          seen := false, pSeen := false, exCd := 0, pCd := 0, pRec := none, lastAm := none }
        let d := if g.sub < 8 then d.spareInUse t 1 g.sub else if g.clkOn9 then d.spareInUse t 1 8 else d
        if a.sub < 8 then d.spareInUse t 0 a.sub else if a.flags.testBit 1 then d.spareInUse t 0 8 else d
    | none => d

/-! ### CXL width (R256) -/

/-- A CXL link changes its width. -/
def Dev.cxlWidth (d : Dev) (l w : Nat) : Dev :=
  if (d.port l).width = w then d
  else
    let d := d.holdCal l (d.curRate l)
    (d.onCxl fun x => { x with port := x.port.upd l {} fun q => { q with width := w } }).count 0x092 (l / 4) 0x3F l

/-- The link can change its width by L0p: active, in 256B flit mode. -/
def Dev.l0pOk (d : Dev) (l : Nat) : Bool := d.isCxl l && (d.port l).up && (d.port l).ltssm == ltL0 && (d.port l).flit256

/-- A partner's L0p request is accepted. -/
def execL0pRequest (dt link width : Nat) (s : State) : Host.Outcome State Fault Refusal :=
  event dt s fun _ _ d =>
    if d.l0pOk link ∧ [1, 2, 4, 8].contains width = true ∧ width ≤ (d.port link).full then d.cxlWidth link width else d

/-- In Run-Power-Capped the device narrows a lightly used link, if the Expedited reservations fit the narrower W. The row says
that use was low for 100 µs (assumption 28). -/
def execL0pNarrow (dt link : Nat) (s : State) : Host.Outcome State Fault Refusal :=
  event dt s fun _ p d =>
    let q := d.port link
    let w := q.width / 2
    let room := 4 * (5 * (rateBytes (cxlRate q.rate w q.flit256) 8 / 64) / 8)
    if p = .powerCapped ∧ d.l0pOk link ∧ q.width ≥ 2 ∧ d.resvSum link ≤ room then d.cxlWidth link w else d

/-- The device widens a link that L0p had narrowed, when use reaches three quarters. -/
def execL0pWiden (dt link : Nat) (s : State) : Host.Outcome State Fault Refusal :=
  event dt s fun _ _ d =>
    let q := d.port link
    if d.l0pOk link ∧ q.width < q.full then d.cxlWidth link (2 * q.width) else d

/-! ### Adaptation, calibration and margining -/

/-- DFE taps of a lane's mode (R261). -/
def Dev.taps (d : Dev) (t : Nat) : Nat := if d.tileCode t = 3 then 8 else 12

/-- An integer held to a range. -/
def clampInt (lo hi v : Int) : Int := max lo (min hi v)

/-- The receiver adapts (R261): the CTLE by the first sign and each tap by its own, at most one step. -/
def execAdaptationStep (dt tile lane : Nat) (signs : List Int) (s : State) : Host.Outcome State Fault Refusal :=
  event dt s fun _ _ d =>
    if d.laneLive tile lane then
      d.onLane tile lane fun x =>
        let st (k : Nat) : Int := clampInt (-1) 1 (signs.getD k 0)
        { x with
          ctle := (clampInt 0 36 (x.ctle + st 0)).toNat
          dfe := (List.range (d.taps tile)).map fun k => clampInt (-128) 127 (x.dfe.getD k 0 + st (k + 1)) }
    else d

/-- The auxiliary slicer of a lane is held by a scan (R271). -/
def Dev.auxHeld (d : Dev) (t n : Nat) : Bool := (d.phy.scan.getD (t, n) {}).run.isSome

/-- One slicer of an active lane is recalibrated (R272); after the last, a rotation is complete. -/
def execOffsetRecalStep (dt tile lane : Nat) (s : State) : Host.Outcome State Fault Refusal :=
  event dt s fun _ _ d =>
    if ! d.laneLive tile lane ∨ d.auxHeld tile lane then d
    else
      let n := (d.lane tile lane).calStep + 1
      if n ≥ Sys2Proof.Config.slicers.toNat then
        (d.onLane tile lane fun x => { x with calStep := 0, cal := (x.cal + 1) % 2 ^ 32 }).taskPass 2
      else d.onLane tile lane fun x => { x with calStep := n }

/-- The eye monitor measures a lane (R272); two successive passes below eye_min mark it failing (R264, row 4). -/
def execEyeMonitorMeasure (dt tile lane h w : Nat) (s : State) : Host.Outcome State Fault Refusal :=
  event dt s fun _ p d =>
    if ! d.laneLive tile lane ∨ d.auxHeld tile lane then d
    else
      let low : Bool := decide (h < byteAt (d.laneCfg false tile lane) 10)
      let d := (d.onLane tile lane fun x => { x with eyeH := h, eyeW := w, lowEye := if low then x.lowEye + 1 else 0 }).taskPass 3
      if (d.lane tile lane).lowEye ≥ 2 then d.laneFail p tile lane 4 else d

/-- A Lane Margining request of a CXL link at 16 GT/s and above is served (R273); traffic is not disturbed. -/
def execLaneMarginRequest (dt link lane : Nat) (timing up : Bool) (steps : Nat) (s : State) : Host.Outcome State Fault Refusal :=
  event dt s fun _ _ d =>
    let t := link / 4
    let n := (d.laneRange link).1 + lane
    if ! d.isCxl link ∨ ! (d.port link).up ∨ (d.port link).rate < 3 ∨ (d.port link).rate > 6 ∨ ! d.laneLive t n ∨ d.auxHeld t n
        ∨ steps > (if timing then 32 else 64) then d
    else d.onPhy fun x => { x with margin := x.margin.set (t, n) (steps + 128 * b2n up + 256 * b2n timing) }

/-- An eye scan completes (R273). -/
def execEyeScanDone (dt tile lane : Nat) (counts : List Nat) (s : State) : Host.Outcome State Fault Refusal :=
  event dt s fun _ _ d =>
    let x := d.phy.scan.getD (tile, lane) {}
    match x.run with
    | some (t, v, _, k) =>
      let cs := (List.range (t * v)).map fun i => counts.getD i 0
      (d.onPhy fun y => { y with scan := y.scan.set (tile, lane) { run := none, res := some (t, v, cs) } }).finLong k .success []
    | none => d

/-! ### Commands -/

/-- A tile number at `o` (R276). -/
def tileField (o : Nat) : Check := atMost o 63

/-- On a Reach mailbox, every link of the tile at `o` is the Reach's (R276). -/
def wholeTileAt (o : Nat) : Check := fun c =>
  match c.f.mbx with
  | .reach r => if (c.d.tileLinks (c.u8 o)).all fun l => c.d.reachesOf l == [r] then none else some (plain .accessDenied)
  | _ => none

/-- The state code of a lane (Table LANE-11). -/
def Dev.laneState (d : Dev) (t n : Nat) : Nat :=
  let test : Bool := match d.phy.test.get? t with
    | some x => x.mask.testBit n && decide (x.fn ≠ 0)
    | none => false
  if test then 5
  else if (d.lane t n).st = 4 then 4
  else if d.tileCode t = 3 then
    let g := d.igg (4 * t)
    if g.st = .down then 0
    else if n = 8 then (if g.pOn9 then 0 else 3)
    else if n = 9 then
      if g.clkOn9 || g.pOn9 then 3 else if g.subbed.isSome || g.subbedTx.isSome then 2
      else if g.st = .detect ∨ g.st = .pattern ∨ g.st = .retrain then 3 else 1
    else if g.subbedTx = some n then 0 else if g.txMask.testBit n || g.rxMask.testBit n then 2 else 0
  else if n = 8 then 0
  else if n = 9 then (if (d.sparedLane t).isSome then 2 else 1)
  else if (d.lane t n).spared then 0 else if d.laneLive t n then 2 else 0

/-- The logical lane that a lane carries, or 0xFF. -/
def Dev.laneLogical (d : Dev) (t n : Nat) : Nat :=
  if d.laneState t n ≠ 2 then 0xFF
  else if d.tileCode t = 3 then
    let g := d.igg (4 * t)
    if n = 9 then (g.subbed.or g.subbedTx).getD 0xFF else n
  else
    let k := if n = 9 then (d.sparedLane t).getD 0 else n
    let p := d.port (d.laneLink t k)
    let w := lanesPer (d.tileCode t)
    if (d.lane t k).rev then p.width - 1 - k % w else k % w

/-- LANE_STATUS_GET (Table LANE-11). The errors of the last millisecond are what the lane saw, which no command carries: they
are free (assumption 12). -/
def cmdLaneStatusGet : Cmd where
  op := 0x3000
  len := 4
  src := Src.watch
  fields := [tileField 0, wholeTileAt 0, atMost 1 9, rsvd 2 2]
  body := fun c =>
    let t := c.u8 0
    let n := c.u8 1
    let x := c.d.lane t n
    let live := c.d.laneLive t n
    let (errs, d) := if live then c.d.drawNat (2 ^ 32) else (0, c.d)
    let rate := if ! live then 0xFF else if c.d.tileCode t = 3 then 7 else (c.d.port (c.d.laneLink t (if n = 9 then (c.d.sparedLane t).getD 0 else n))).rate
    (d, .done (nb 1 (c.d.laneState t n) ++ nb 1 (c.d.laneLogical t n) ++ nb 1 rate
      ++ nb 1 (b2n x.inv + 2 * b2n x.los + 4 * b2n x.lol + 8 * b2n x.rev) ++ nb 1 x.ctle ++ zeros 1
      ++ ((List.range 12).flatMap fun k => intBytes 1 (x.dfe.getD k 0)) ++ nb 2 x.eyeH ++ nb 2 x.eyeW ++ nb 4 errs ++ nb 4 x.cal ++ zeros 2))

def execLaneStatusGet (dt : Nat) (f : Frame) (s : State) : Host.Outcome State Fault Refusal :=
  bilod cmdLaneStatusGet dt f s

/-- LANE_CONFIG_SET (Table LANE-10). -/
def cmdLaneConfigSet : Cmd where
  op := 0x3001
  len := 12
  src := Src.operator
  fields :=
    let ffe (c : Ctx) : Nat := ([4, 5, 6, 7].map fun o => (signed 8 (c.u8 o)).natAbs).sum
    [tileField 0, need 1 fun c => decide (c.u8 1 ≤ 9) || c.u8 1 == 0xFF, atMost 2 6,
     need 3 fun c => decide (c.u8 3 < 4) && decide (c.u8 3 ≠ 2), need 4 fun c => decide (ffe c ≤ 128),
     need 8 fun c => c.u16 8 != 0, need 10 fun c => decide (1 ≤ c.u8 10) && decide (c.u8 10 ≤ 100), rsvd 11 1]
  state := stageChecks (fun _ => devSet) false fun c => if c.u8 1 = 0xFF then 10 else 1
  body := stages (fun _ => devSet) fun c =>
    (if c.u8 1 = 0xFF then List.range 10 else [c.u8 1]).map fun n =>
      ({ op := 0x3001, a := c.u8 0, b := n }, some (put (fit 12 c.f.payload) 1 (nb 1 n)))

def execLaneConfigSet (dt : Nat) (f : Frame) (s : State) : Host.Outcome State Fault Refusal :=
  bilod cmdLaneConfigSet dt f s

/-- LANE_SPARE_SET (R268, R269). Ending a substitution waits for the next retrain; with none in force it has ended. -/
def cmdLaneSpareSet : Cmd where
  op := 0x3002
  len := 4
  src := Src.operator
  long := true
  fields := [tileField 0, need 1 fun c => c.u8 1 == 1 || c.u8 1 == 2, atMost 2 7, rsvd 3 1]
  state := [require .wrongMode fun c =>
    let t := c.u8 0
    c.u8 1 == 2 || (if c.d.tileCode t = 3 then (c.d.igg (4 * t)).st == .active && (c.d.igg (4 * t)).spareIdle
      else (c.d.sparedLane t).isNone)]
  body := fun c =>
    let t := c.u8 0
    let n := c.u8 2
    let k := some (c.f.mbx, c.f.tag)
    if c.u8 1 = 2 then
      if c.d.spareUsed t then (c.d.onIg (4 * t) fun g => { g with endSub := true, subLong := k }, .started [])
      else (c.d, .ended .success [])
    else if c.d.tileCode t = 3 then
      (c.d.onIg (4 * t) fun g => { g with sub := n, subT := some c.d.clk.t6, subReady := false, subLong := k }, .started [])
    else (c.d.cxlSpare c.p t n, .ended .success [])

def execLaneSpareSet (dt : Nat) (f : Frame) (s : State) : Host.Outcome State Fault Refusal :=
  bilod cmdLaneSpareSet dt f s

/-- LANE_EYE_SCAN. -/
def cmdLaneEyeScan : Cmd where
  op := 0x3003
  len := 8
  src := Src.operator
  long := true
  fields := [tileField 0, atMost 1 9, need 2 fun c => decide (8 ≤ c.u8 2) && decide (c.u8 2 ≤ 64),
    need 3 fun c => decide (8 ≤ c.u8 3) && decide (c.u8 3 ≤ 64), need 4 fun c => decide (10000 ≤ c.u32 4) && decide (c.u32 4 ≤ 1000000000)]
  state := [require .busy fun c => ! c.d.auxHeld (c.u8 0) (c.u8 1)]
  body := fun c =>
    (c.d.onPhy fun x => { x with scan := x.scan.upd (c.u8 0, c.u8 1) {} fun y => { y with
      run := some (c.u8 2, c.u8 3, c.u32 4, c.f.mbx, c.f.tag) } }, .started [])

def execLaneEyeScan (dt : Nat) (f : Frame) (s : State) : Host.Outcome State Fault Refusal :=
  bilod cmdLaneEyeScan dt f s

/-- LANE_EYE_GET. -/
def cmdLaneEyeGet : Cmd where
  op := 0x3004
  len := 2
  src := Src.watch
  fields := [tileField 0, wholeTileAt 0, atMost 1 9, need 0 fun c => (c.d.phy.scan.getD (c.u8 0, c.u8 1) {}).res.isSome]
  body := reads fun c =>
    match (c.d.phy.scan.getD (c.u8 0, c.u8 1) {}).res with
    | some (t, v, cs) => nb 2 t ++ nb 2 v ++ cs.flatMap (nb 4)
    | none => []

def execLaneEyeGet (dt : Nat) (f : Frame) (s : State) : Host.Outcome State Fault Refusal :=
  bilod cmdLaneEyeGet dt f s

/-- LANE_TEST_SET (R274). -/
def cmdLaneTestSet : Cmd where
  op := 0x3005
  len := 16
  src := Src.admin
  mode := (· == .diagnostic)
  fields := [tileField 0, atMost 1 7, rsvdBits 2 15 10, atMost 4 5, rsvd 5 3]
  body := changes fun c => c.d.onPhy fun x => { x with
    test := if c.u8 4 = 0 then x.test.erase (c.u8 0)
      else x.test.set (c.u8 0) { rate := c.u8 1, mask := c.u16 2, fn := c.u8 4, pat := c.u64 8 } }

def execLaneTestSet (dt : Nat) (f : Frame) (s : State) : Host.Outcome State Fault Refusal :=
  bilod cmdLaneTestSet dt f s

/-- LANE_TEST_GET: what the checkers of the lanes under test have seen is free (assumption 12); the others read 0. -/
def cmdLaneTestGet : Cmd where
  op := 0x3006
  len := 1
  src := Src.admin
  fields := [tileField 0]
  body := fun c =>
    let on (n : Nat) : Bool := match c.d.phy.test.get? (c.u8 0) with
      | some x => x.mask.testBit n && decide (1 ≤ x.fn) && decide (x.fn ≤ 3)
      | none => false
    let (seen, d) := c.d.drawNat (2 ^ 10)
    let (errs, d) := (List.range 10).foldl (fun (acc : List Nat × Dev) n =>
      if on n then
        let (v, d) := acc.2.drawNat (2 ^ 32)
        (acc.1 ++ [v], d)
      else (acc.1 ++ [0], acc.2)) ([], d)
    (d, .done (nb 2 (bitsOf (fun n => on n && seen.testBit n) 10) ++ errs.flatMap (nb 4)))

def execLaneTestGet (dt : Nat) (f : Frame) (s : State) : Host.Outcome State Fault Refusal :=
  bilod cmdLaneTestGet dt f s

/-- LANE_CONFIG_GET. -/
def cmdLaneConfigGet : Cmd where
  op := 0x3007
  len := 3
  src := Src.observer
  fields := [tileField 0, atMost 1 9, atMost 2 1]
  body := reads fun c => fit 12 (c.d.laneCfg (c.u8 2 == 1) (c.u8 0) (c.u8 1))

def execLaneConfigGet (dt : Nat) (f : Frame) (s : State) : Host.Outcome State Fault Refusal :=
  bilod cmdLaneConfigGet dt f s

end Sys2Proof.Machine
end

