-- ==== Sys2Proof/Machine/Bridge.lean ====
section
/-! DEFINITION. The bridge (chapter 10): bridge messages as they arrive (R232, R233), bridged requests and their answers
(R229–R240), response timeouts and orphaned entries (R241–R243), locks (R245, R246), and the commands of Table
BRIDGE-8. -/

namespace Sys2Proof.Machine

/-! ### Messages -/

/-- The operations with a path record in slot 1 (Table BRIDGE-2). -/
def pathOp (op : Nat) : Bool := [0x08, 0x09, 0x0A, 0x18].contains op

/-- Data slots of a message, by its header (Table BRIDGE-2). -/
def BHead.dataSlots (h : BHead) : Nat :=
  if [0x02, 0x10, 0x13].contains h.op then ceilDiv h.len 64
  else if pathOp h.op || [0x03, 0x12].contains h.op then 1 else 0

/-- A header or a slot count breaks R232 or R233. -/
def brgMalformed (b : Bytes) : Bool :=
  let h := BHead.of b
  ! ((decide (1 ≤ h.op) && decide (h.op ≤ 0x0A)) || (decide (0x10 ≤ h.op) && decide (h.op ≤ 0x18)))
  || h.flags.testBit 7 || decide (bits h.flags 5 4 = 3) || decide (h.cls > 4) || decide (h.reach > 31) || decide (h.gen > 3)
  || decide (h.status > 7) || (decide (h.op < 0x10) && decide (h.status ≠ 0))
  || decide (h.len = 0) || decide (h.len > 2048)
  || decide (h.aop % 4 = 3) || decide (h.aop / 4 % 4 = 3) || decide (h.aop ≥ 16)
  || decide (byteAt b 25 ≠ 0) || decide (leN b 34 30 ≠ 0)
  || decide (b.length ≠ 64 * (1 + h.dataSlots))
  || (pathOp h.op && (! [1, 2, 3, 4].contains (byteAt b 80) || ! [1, 2, 3, 4].contains (byteAt b 81)))

/-- A bridge message as it arrives: its header, its data, its t_in, and the credit that it holds. -/
structure BRx where
  h    : BHead
  data : Bytes
  tIn  : Nat
  cred : Option (Nat × Nat) := none

/-- The message is taken from those that the link layer has handed over, if it is the next of them (R237). -/
def Dev.brgTake (d : Dev) (l : Nat) (b : Bytes) : BRx × Dev :=
  let m : BRx := { h := BHead.of b, data := b.drop 64, tIn := d.now }
  match (d.igg l).rx with
  | (b', c, t) :: rest =>
    if b' = b then ({ m with tIn := t, cred := some (c, b.length / 64) }, d.onIg l fun g => { g with rx := rest }) else (m, d)
  | [] => (m, d)

/-- A message is discarded whole (R233): counted, and logged if it is malformed. -/
def Dev.brgDiscard (d : Dev) (l : Nat) (malformed : Bool) : Dev :=
  let d := d.count 0x0B0 (l / 4) 0x3F l
  if malformed then d.sendFault 6 (l / 4) 1 1 0x3F 0 else d

/-- The event of a bridge message row: a malformed message is discarded, a message of another operation is not this row's, and
any other acts, its credit returned unless `g` passes it on. -/
def brgEvent (dt link op : Nat) (msg : Bytes) (s : State) (g : Mode → Profile → Dev → BRx → Dev) : Host.Outcome State Fault Refusal :=
  event dt s fun m p d =>
    let bad := brgMalformed msg
    if ! d.isIggevo link ∨ msg = [] ∨ (bad = false ∧ byteAt msg 0 ≠ op) then d
    else
      let (x, e) := d.brgTake link msg
      if bad then (e.brgDiscard link true).freeCredit link x.cred else g m p e x

/-! ### Requests -/

/-- The access of a request's header (Tables BRIDGE-1 and BRIDGE-2). -/
def BHead.acc (h : BHead) : Acc :=
  match h.op with
  | 1 => .read
  | 2 => .write
  | 3 => .atomic (h.aop % 4) (match h.aop / 4 % 4 with
    | 0 => 4 | 1 => 8 | _ => 16)
  | 4 => .lockRead
  | 5 => .unlock
  | 6 => .flush
  | _ => .none

/-- A bridged request as a message of this switch (R229, R230): a whole line of CXL.mem or a CXL.io access, under the far Reach
that it names, for its origin. -/
def BRx.msg (x : BRx) (l now : Nat) : Msg :=
  let h := x.h
  let mem : Bool := decide (h.len = 64) && h.addr % 64 == 0 && h.be == 0xFF && (h.op == 1 || h.op == 2)
  { id := 0, link := l, kind := if h.op = 7 then 4 else if mem then h.op - 1 else 7, cls := if h.op = 7 then 2 else 3, reach := h.reach
    init := .far h.origId h.origLk, acc := h.acc, priv := h.flags.testBit 1, addr := h.addr
    len := match h.acc with
      | .atomic _ n => n
      | _ => h.len
    data := x.data.take h.len, tIn := x.tIn, tP := now, arrCol := some (bits h.flags 5 4)
    eaOk := h.flags.testBit 0, far := some { link := l, tag := h.tag, gen := h.gen, origId := h.origId, origLk := h.origLk }
    path := if h.flags.testBit 3 then some (h.origId, h.handle) else none, poison := h.flags.testBit 2, be := h.be, cred := x.cred }

/-- A bridged request enters the ingress FIFOs of its link (R229, R231): the Reach that it names must be one that the link's Reach
map carries, or the request is a rule fault and is answered with ERR. -/
def Dev.brgRequest (d : Dev) (p : Profile) (l : Nat) (x : BRx) : Dev :=
  let m := x.msg l d.now
  if m.reach ≥ d.nReach ∨ (d.farReach l m.reach).isNone then
    ((d.sendFault 1 (l / 4) 2 1 m.reach m.addr).count 0x040 (l / 4) m.reach l).endRequest m 3 1
  else
    let m := { m with cls := (d.judgeMsg p m).cls }
    (d.rxBytes l (64 + x.data.length)).enqueue m

/-- The effect of a bridged request's row. -/
def brgRequestRow (dt link op : Nat) (msg : Bytes) (s : State) : Host.Outcome State Fault Refusal :=
  brgEvent dt link op msg s fun _ p d x => d.brgRequest p link x

/-- RD. -/
def execRd (dt link : Nat) (msg : List Byte) (s : State) : Host.Outcome State Fault Refusal := brgRequestRow dt link 0x01 msg s

/-- WR. -/
def execWr (dt link : Nat) (msg : List Byte) (s : State) : Host.Outcome State Fault Refusal := brgRequestRow dt link 0x02 msg s

/-- ATOMIC (R184): a misaligned AtomicOp is answered with ERR. -/
def execAtomic (dt link : Nat) (msg : List Byte) (s : State) : Host.Outcome State Fault Refusal :=
  brgEvent dt link 0x03 msg s fun _ p d x =>
    match x.h.acc with
    | .atomic _ n => if x.h.addr % n = 0 then d.brgRequest p link x else d.endRequest (x.msg link d.now) 3 2
    | _ => d

/-- LOCK_RD (R245): its admission begins the far lock. -/
def execLockRd (dt link : Nat) (msg : List Byte) (s : State) : Host.Outcome State Fault Refusal := brgRequestRow dt link 0x04 msg s

/-- UNLOCK (R245): the far lock of its owner ends; an onward Iggevo link is sent UNLOCK under an entry of its own, and the answer goes
back at once where there is none. -/
def execUnlock (dt link : Nat) (msg : List Byte) (s : State) : Host.Outcome State Fault Refusal :=
  brgEvent dt link 0x05 msg s fun _ _ d x =>
    let h := x.h
    let d := d.freeCredit link x.cred
    let m := x.msg link d.now
    let held := (d.brg.far.get? h.reach).filter fun k => decide (k.owner = m.init)
    let d := if held.isSome then d.onBrg fun b => { b with far := b.far.erase h.reach } else d
    match held.filter fun k => d.isIggevo k.dst with
    | some k =>
      let (i, d) := d.addTrk { d.asTrk m 3 with dst := k.dst, kind := 8, len := 1, gen := (d.igg k.dst).gen, limit := d.brgLimit k.dst }
      d.brgSend k.dst ({ h with reach := (d.farReach k.dst h.reach).getD 0, tag := i, gen := (d.igg k.dst).gen } : BHead).bytes
    | none => d.brgSend link ({ h with op := 0x14 } : BHead).bytes

/-- The hop of this switch on the way of a FLUSH (R238): the first, when the partner is the origin. -/
def Dev.flushHop (d : Dev) (l origin : Nat) : Nat := if (d.igg l).pId = origin then 1 else 2

/-- FLUSH (R238): a Fabric Flush of the same initiator, under an entry of the far Reach. -/
def execFlush (dt link : Nat) (msg : List Byte) (s : State) : Host.Outcome State Fault Refusal :=
  brgEvent dt link 0x06 msg s fun m p d x =>
    let y := { x.msg link d.now with refusals := d.flushHop link x.h.origId }
    let id := d.weir.nextMsg
    let d := d.enqueue y
    match d.head m link 3 with
    | some z => if z.id = id ∧ ! d.behind z then d.evaluate m p z else d
    | none => d

/-- The BI route of a Reach on an Iggevo link (R291): a host link, a coherence group, or none. -/
def Dev.biRoute (d : Dev) (l r : Nat) : Option Dest :=
  match d.cfg { op := 0x4004, a := l, b := r } with
  | some b => match byteAt b 3 with
    | 1 => some (.link (leN b 4 2) 0)
    | 2 => some (.group (leN b 4 2))
    | _ => none
  | none => none

/-- SNOOP (R291): a back-invalidate snoop follows the BI route of the Reach that it names; without one it is answered with ERR. -/
def execSnoop (dt link : Nat) (msg : List Byte) (s : State) : Host.Outcome State Fault Refusal :=
  brgEvent dt link 0x07 msg s fun _ _ d x =>
    let m := x.msg link d.now
    match d.biRoute link m.reach with
    | some to_ => (d.rxBytes link 64).enqueue { m with dst := some to_ }
    | none => (d.sendFault 8 link 1 1 m.reach m.addr).endRequest m 2 1

/-! ### Answers -/

/-- The operation that answers an entry with success. -/
def Trk.answerOp (t : Trk) : Nat := brgAnswer t.kind t.acc 0

/-- An entry is open for an answer of an operation from a link in a generation (R233, R239). -/
def Dev.openFor (d : Dev) (l : Nat) (t : Trk) (h : BHead) : Bool :=
  let here : Bool := if t.group.isSome then t.left.contains l && (d.igg l).gen == h.gen else decide (t.dst = l) && t.gen == h.gen
  here && (! t.done || t.orphan.isSome) && (h.op == 0x17 || h.op == t.answerOp)

/-- The near switch logs one fault for a request that failed beyond an Iggevo link (R240): the first of its bursts to fail. -/
def Dev.farFault (d : Dev) (l kind : Nat) (t : Trk) : Dev :=
  let far : Bool := match t.init with
    | .far _ _ => true
    | _ => false
  if far || t.kind == 8 || (d.weir.trk.any fun e => decide (e.2.grp = t.grp) && e.2.done && decide (e.2.status ≠ 0)) then d
  else d.sendFault 6 (l / 4) kind 1 t.reach t.addr

/-- A FLUSH_DONE has come for a flush (R238), with the writes lost on that link. -/
def Dev.flushAnswer (d : Dev) (l i : Nat) (t : Trk) (lost : Option Nat) : Dev :=
  (d.dropTrk i).onOrd fun o => { o with
    flush := o.flush.map fun f =>
      if f.id = t.grp then
        { f with far := f.far.filter fun x => decide (x.1 ≠ l)
                 sum := f.sum + lost.getD ((f.far.filter fun x => decide (x.1 = l)).map (·.2)).sum }
      else f }

/-- An answer is used (R235–R240, R245, R246). `coh` is the state that a snoop reports. -/
def Dev.brgAnswered (d : Dev) (l : Nat) (x : BRx) (coh : Nat) (t : Trk) : Dev :=
  let h := x.h
  let i := h.tag
  let st := if h.op = 0x17 then max 1 h.status else h.status
  if t.orphan.isSome then (d.dropTrk i).count 0x119 (l / 4) 0x3F l
  else if t.acc = .flush then d.flushAnswer l i t (if st = 0 then some h.lost else none)
  else if t.acc = .unlock then
    let d := d.dropTrk i
    match t.far with
    | some f => d.brgSend f.link ({ h with op := 0x14, status := 0, reach := t.reach, tag := f.tag, gen := f.gen, origId := f.origId, origLk := f.origLk } : BHead).bytes
    | none => d
  else if t.group.isSome ∧ st ≠ 0 then d.partial_ i l
  else
    let d := if st ≠ 0 then d.farFault l (0x10 + st) t else d
    let early : Bool := h.op == 0x11 && h.flags.testBit 6
    let d := if early then d.onBrg fun b => { b with ea := b.ea.upd (t.init, l) 0 (· + 1) } else d
    let broken : Bool := t.acc == .lockRead && (match d.brg.near.get? t.reach with
      | some k => k.st == .releasing && k.trk == i
      | none => false)
    if broken then d.answered l i 6 [] false
    else
      d.response { (x.msg l d.now) with
        kind := 8, status := st, data := x.data.take h.len, coh := if early then 1 else coh, poison := h.flags.testBit 2, cred := none } i

/-- An answer goes to the entry that it names, and one that names none is discarded (R233). An answer that goes on to its initiator
keeps its credit until it is admitted. A forced release that waited for it goes on (R246). -/
def Dev.brgAnswerTo (d : Dev) (l : Nat) (x : BRx) (coh : Nat) : Dev :=
  match (d.weir.trk.get? x.h.tag).filter fun t => d.openFor l t x.h with
  | none => (d.brgDiscard l false).freeCredit l x.cred
  | some t =>
    let n := d.weir.nextMsg
    let d := d.brgAnswered l x coh t
    let kept := d.weir.q.any fun y => decide (y.id ≥ n) && ! y.queued && decide (y.link = l)
    let d := if kept then d.onWeir fun w => { w with q := w.q.map fun y => if y.id ≥ n ∧ y.link = l ∧ ! y.queued then { y with cred := x.cred } else y }
      else d.freeCredit l x.cred
    d.finishRelease t.reach

/-- The effect of an answer's row. -/
def brgAnswerRow (dt link op : Nat) (msg : Bytes) (s : State) : Host.Outcome State Fault Refusal :=
  brgEvent dt link op msg s fun _ _ d x => d.brgAnswerTo link x 0

/-- RD_DATA. -/
def execRdData (dt link : Nat) (msg : List Byte) (s : State) : Host.Outcome State Fault Refusal := brgAnswerRow dt link 0x10 msg s

/-- WR_CMP: with early set, the write counts for the initiator's next flush (R238). -/
def execWrCmp (dt link : Nat) (msg : List Byte) (s : State) : Host.Outcome State Fault Refusal := brgAnswerRow dt link 0x11 msg s

/-- ATOMIC_DATA. -/
def execAtomicData (dt link : Nat) (msg : List Byte) (s : State) : Host.Outcome State Fault Refusal := brgAnswerRow dt link 0x12 msg s

/-- LOCK_DATA. -/
def execLockData (dt link : Nat) (msg : List Byte) (s : State) : Host.Outcome State Fault Refusal := brgAnswerRow dt link 0x13 msg s

/-- UNLOCK_CMP. -/
def execUnlockCmp (dt link : Nat) (msg : List Byte) (s : State) : Host.Outcome State Fault Refusal := brgAnswerRow dt link 0x14 msg s

/-- FLUSH_DONE. -/
def execFlushDone (dt link : Nat) (msg : List Byte) (s : State) : Host.Outcome State Fault Refusal := brgAnswerRow dt link 0x15 msg s

/-- SNOOP_RSP: the header has no field for the state that the snoop found, which is therefore free (assumption 12). -/
def execSnoopRsp (dt link : Nat) (msg : List Byte) (s : State) : Host.Outcome State Fault Refusal :=
  brgEvent dt link 0x16 msg s fun _ _ d x =>
    let (c, d) := d.drawNat 3
    d.brgAnswerTo link x c

/-- ERR. -/
def execErr (dt link : Nat) (msg : List Byte) (s : State) : Host.Outcome State Fault Refusal := brgAnswerRow dt link 0x17 msg s

/-! ### Timeouts -/

/-- A bridged entry has had no answer for its link's response timeout (R241): it is completed, counted and orphaned. -/
def execBridgeTimeout (dt tag : Nat) (s : State) : Host.Outcome State Fault Refusal :=
  event dt s fun _ _ d =>
    match d.weir.trk.get? tag with
    | some t =>
      if ! d.isIggevo t.dst ∨ t.group.isSome ∨ t.done ∨ t.orphan.isSome ∨ d.since t.t6 < t.limit then d
      else
        let d := d.count 0x0B1 (t.dst / 4) t.reach t.dst
        let d := (d.farFault t.dst 0x17 t).onTrk tag fun t => { t with orphan := some d.clk.t6 }
        (d.answered t.dst tag 4 [] false).finishRelease t.reach
    | none => d

/-- An orphaned entry has had no answer for its link's discard time (R243). -/
def execDiscardExpired (dt tag : Nat) (s : State) : Host.Outcome State Fault Refusal :=
  event dt s fun _ _ d =>
    match d.weir.trk.get? tag with
    | some t =>
      match t.orphan with
      | some t0 =>
        if d.isIggevo t.dst ∧ d.since t0 ≥ d.discardTime t.dst then (d.dropTrk tag).count 0x11A (t.dst / 4) 0x3F t.dst else d
      | none => d
    | none => d

/-- The near hold limit (R246): no Unlock within 16 µs of the lock's start. -/
def execLockHoldLimit (dt r : Nat) (s : State) : Host.Outcome State Fault Refusal :=
  event dt s fun _ _ d =>
    match d.brg.near.get? r with
    | some k => if k.st = .held ∧ d.since k.t6 ≥ 16 * us6 then d.forceLock r 3 none else d
    | none => d

/-- The far hold limit (R246): no UNLOCK within 32 µs of the lock's start. -/
def execFarLockLimit (dt r : Nat) (s : State) : Host.Outcome State Fault Refusal :=
  event dt s fun _ _ d =>
    match d.brg.far.get? r with
    | some k => if d.since k.t6 ≥ 32 * us6 then d.dropFarLock r else d
    | none => d

/-- A far flush reaches 100 µs / 2^k (R238). -/
def execFarFlushTimeout (dt id : Nat) (s : State) : Host.Outcome State Fault Refusal :=
  event dt s fun _ _ d => d.flushLate id true

/-! ### Commands -/

/-- BRIDGE_LINK_SET. -/
def cmdBridgeLinkSet : Cmd where
  op := 0x7020
  len := 44
  src := Src.operator
  fields := [iggAt 0, atMost 2 3, rsvd 3 1,
    need 4 fun c => decide (20 ≤ c.u32 4) && decide (c.u32 4 ≤ 50000),
    need 8 fun c => decide (100 ≤ c.u32 8) && decide (c.u32 8 ≤ 100000)]
    ++ (List.range 32).map fun r => need (12 + r) fun c => decide (c.u8 (12 + r) ≤ 0x1F) || c.u8 (12 + r) == 0xFF
  state := stageChecks (fun _ => devSet) false fun _ => 1
  body := stages (fun _ => devSet) fun c => [({ op := 0x7020, a := c.u16 0 }, some (fit 44 c.f.payload))]

def execBridgeLinkSet (dt : Nat) (f : Frame) (s : State) : Host.Outcome State Fault Refusal :=
  bilod cmdBridgeLinkSet dt f s

/-- BRIDGE_LINK_GET. -/
def cmdBridgeLinkGet : Cmd where
  op := 0x7021
  len := 4
  src := Src.observer
  fields := [iggAt 0, atMost 2 1, rsvd 3 1]
  body := reads fun c =>
    (c.d.view (c.u8 2 == 1) devSet { op := 0x7020, a := c.u16 0 }).getD
      (nb 2 (c.u16 0) ++ nb 1 3 ++ nb 1 0 ++ nb 4 200 ++ nb 4 2000 ++ List.replicate 32 0xFF)

def execBridgeLinkGet (dt : Nat) (f : Frame) (s : State) : Host.Outcome State Fault Refusal :=
  bilod cmdBridgeLinkGet dt f s

/-- The state code of LOCK_STATUS_GET. -/
def LockSt.code : LockSt → Nat
  | .held => 1 | .releasing => 2 | .broken => 3

/-- LOCK_STATUS_GET. -/
def cmdLockStatusGet : Cmd where
  op := 0x7022
  len := 4
  src := Src.watch
  fields := [reachAt 0, rsvd 1 3]
  body := reads fun c =>
    match c.d.brg.near.get? (c.u8 0) with
    | some k =>
      nb 1 k.st.code ++ nb 1 k.owner ++ nb 2 k.link ++ nb 1 k.reach ++ zeros 3
        ++ nb 4 (if k.st = .broken then 0 else min (2 ^ 32 - 1) (c.d.since k.t6 / 6))
    | none => zeros 12

def execLockStatusGet (dt : Nat) (f : Frame) (s : State) : Host.Outcome State Fault Refusal :=
  bilod cmdLockStatusGet dt f s

/-- LOCK_RELEASE (R246): it ends when the release has. -/
def cmdLockRelease : Cmd where
  op := 0x7023
  len := 4
  src := Src.operator
  long := true
  fields := [reachAt 0, rsvd 1 3]
  state := [require .wrongMode fun c => (c.d.brg.near.get? (c.u8 0)).isSome,
    require .busy fun c => (match c.d.brg.near.get? (c.u8 0) with
      | some k => k.st != .releasing
      | none => true)]
  body := fun c =>
    let d := c.d.forceLock (c.u8 0) 0 (some (c.f.mbx, c.f.tag))
    match d.brg.near.get? (c.u8 0) with
    | some k => (d, if k.st = .releasing then .started [] else .ended .success [])
    | none => (d, .ended .success [])

def execLockRelease (dt : Nat) (f : Frame) (s : State) : Host.Outcome State Fault Refusal :=
  bilod cmdLockRelease dt f s

/-- BRIDGE_STATUS_GET: open near entries, orphaned entries, far and transit entries, and the counters of Table BRIDGE-7. -/
def cmdBridgeStatusGet : Cmd where
  op := 0x7024
  len := 4
  src := Src.watch
  fields := [iggAt 0, rsvd 2 2]
  body := reads fun c =>
    let l := c.u16 0
    let n (p : Trk → Bool) : Bytes := nb 4 (c.d.weir.trk.filter fun e => p e.2).length
    n (fun t => decide (t.dst = l) && ! t.done && t.orphan.isNone && t.far.isNone)
      ++ n (fun t => decide (t.dst = l) && t.orphan.isSome)
      ++ n (fun t => (t.far.map (·.link)) == some l)
      ++ [0x0B0, 0x0B1, 0x119, 0x11A, 0x11B, 0x0B2].flatMap fun sel => nb 8 (c.d.tally (l / 4) sel)

def execBridgeStatusGet (dt : Nat) (f : Frame) (s : State) : Host.Outcome State Fault Refusal :=
  bilod cmdBridgeStatusGet dt f s

end Sys2Proof.Machine
end

