-- ==== Sys2Proof/Machine/Path.lean ====
section
/-! DEFINITION. Path reservations (R64–R67, R247): the path messages of near and far switches, their timeouts, and
PATH_RESERVE and PATH_RELEASE (Table WEIR-7). -/

namespace Sys2Proof.Machine

/-! ### Path records (Table BRIDGE-9) -/

/-- The path record that the near switch sends. -/
def Dev.pathRecord (d : Dev) (h : Nat) (x : Path) (epoch : Nat) : Bytes :=
  nb 4 h ++ nb 4 d.switchId ++ nb 4 x.rate ++ nb 2 x.burst ++ nb 2 x.q ++ nb 1 x.hops.length ++ nb 1 1 ++ nb 1 x.phase ++ nb 1 0
    ++ nb 5 epoch ++ zeros 3 ++ fit 16 x.hops.flatten ++ zeros 20

/-- The near switch sends a path message to the first hop. -/
def Dev.pathSend (d : Dev) (h : Nat) (x : Path) (op epoch : Nat) : Dev :=
  let r := d.pathRecord h x epoch
  d.brgSend x.egress (pathMsg op 0 (recReach r 1) d.switchId r)

/-- Cells in each phase that the paths at an egress hold. -/
def Dev.pathPhases (d : Dev) (e : Nat) : List Nat :=
  (d.pathsAt e).foldl (fun t p => let c := pathCells p.2.2.1 p.2.2.2.1; (List.range 4).map fun i => t.getD i 0 + c.getD i 0) [0, 0, 0, 0]

/-- Why a path cannot hold `q` cells at an egress (R53, R526): 1 the cap of its Reach, 2 the cells left. A path's pattern starts at
phase `s`. -/
def Dev.pathRefusal (d : Dev) (r e q s : Nat) : Nat :=
  let own := max (d.resvQ false r e) (d.resvQ true r e)
  let full := (List.range 4).any fun i => decide ((d.pathPhases e).getD i 0 + (pathCells q s).getD i 0 > d.calE e)
  if q ≠ 0 ∧ d.calE e = 0 then 2
  else if own + d.pathQ e r + q > d.resvCap e then 1
  else if q + own + d.heldByOthers e r > d.calW e ∨ full then 2
  else 0

/-- d_k (R64): slots by which the pattern advances over a link. -/
def Dev.pathShift (d : Dev) (m : Mode) (p : Profile) (l : Nat) : Nat :=
  ceilDiv (16 * (d.bound m p 1 + 11) + (d.igg l).tCable.toNat) 128

/-! ### At the near switch -/

/-- A path reservation ends at the near switch: its local cells are free. -/
def Dev.dropPath (d : Dev) (h : Nat) : Dev := d.onWeir fun w => { w with paths := w.paths.erase h }

/-- A near path is changed. -/
def Dev.onPath (d : Dev) (h : Nat) (f : Path → Path) : Dev :=
  d.onWeir fun w => { w with paths := w.paths.map fun x => if x.1 = h then (x.1, f x.2) else x }

/-- PATH_RESERVE completes (R66): its cells are active and the hops have answered; the payload is the handle, and the hops that
were late. -/
def Dev.pathDone (d : Dev) (h : Nat) : Dev :=
  match d.weir.paths.get? h with
  | some x =>
    if x.active ∧ x.stage = 2 ∧ x.long.isSome then
      (d.finLong? x.long .success (nb 4 h ++ x.late.flatMap (nb 1))).onPath h fun x => { x with long := none }
    else d
  | none => d

/-- PATH_RESERVE fails (R66): no hop keeps any cells. -/
def Dev.pathFail (d : Dev) (h : Nat) (x : Path) (s : Status) (b : Bytes) : Dev :=
  ((d.dropPath h).pathSend h x 0x0A 0).finLong? x.long s b

/-- A PATH_RSP reaches the near switch (R66, R247). -/
def Dev.pathAnswer (d : Dev) (h status : Nat) (r : Bytes) (x : Path) : Dev :=
  if x.freeing then (d.dropPath h).finLong? x.long .success []
  else if x.stage ≥ 2 then d
  else if status ≠ 0 then d.pathFail h x .contractInfeasible (nb 1 (byteAt r 44) ++ zeros 3)
  else if x.stage = 0 then
    let e := epochAfter (d.now + d.since x.t6 / 6)
    let x := { x with stage := 1, t6 := d.clk.t6, epoch := some e }
    (d.onPath h fun _ => x).pathSend h x 0x09 e
  else
    (d.onPath h fun x => { x with stage := 2, late := if (byteAt r 19).testBit 0 then [byteAt r 17] else [] }).pathDone h

/-- A PATH_FREE comes back from a far switch (R247, step 6). -/
def Dev.pathLost (d : Dev) (l h : Nat) (x : Path) : Dev :=
  ((d.pathFail h x .aborted [])).count 0x031 (l / 4) 0x3F l

/-! ### Path messages -/

/-- The key of a path: origin switch and handle. -/
def recKey (r : Bytes) : Nat × Nat := (leN r 4 4, leN r 0 4)

/-- A far hop's answer goes back over the link that the request came on. -/
def Dev.pathReply (d : Dev) (l hop status : Nat) (late : Bool) (r : Bytes) : Dev :=
  let r := put (put r 17 (nb 1 hop)) 19 (nb 1 (b2n (late || (byteAt r 19).testBit 0)))
  let r := if status = 7 ∧ byteAt r 44 = 0 then put r 44 (nb 1 hop) else r
  d.brgSend l (pathMsg 0x18 status (recReach r (max 1 (hop - 1))) (leN r 4 4) r)

/-- A path message goes onward to the next hop. -/
def Dev.pathOnward (d : Dev) (op hop : Nat) (r : Bytes) : Dev :=
  d.brgSend (recLink r hop) (pathMsg op 0 (recReach r (hop + 1)) (leN r 4 4) (put r 17 (nb 1 (hop + 1))))

/-- The far path that a record names. -/
def Dev.farPath (d : Dev) (r : Bytes) : Option FarPath := d.brg.paths.get? (recKey r)

/-- A far path is stored. -/
def Dev.setFar (d : Dev) (r : Bytes) (x : FarPath) : Dev := d.onBrg fun b => { b with paths := b.paths.set (recKey r) x }

/-- A far path's cells are free. -/
def Dev.dropFar (d : Dev) (r : Bytes) : Dev := d.onBrg fun b => { b with paths := b.paths.erase (recKey r) }

/-- The event of a path message row; its credit returns at once. -/
def pathRow (dt link op : Nat) (msg : Bytes) (s : State) (g : Mode → Profile → Dev → BRx → Dev) : Host.Outcome State Fault Refusal :=
  brgEvent dt link op msg s fun m p d x => g m p (d.freeCredit link x.cred) x

/-- PATH_HOLD (R247, steps 2 and 3): a hop takes its cells provisionally and passes the message on, or answers. -/
def execPathHold (dt link : Nat) (msg : List Byte) (s : State) : Host.Outcome State Fault Refusal :=
  pathRow dt link 0x08 msg s fun m p d x =>
    let r := x.data
    let k := byteAt r 17
    let n := byteAt r 16
    let e := recLink r k
    let reach := recReach r k
    let q := leN r 14 2
    let d := d.dropFar r
    let s := (byteAt r 18 % 4 + d.pathShift m p link) % 4
    let bound : Bool := decide (reach < d.nReach) && d.isLink e && (if d.isIggevo e then (d.farReach e reach).isSome else d.ownsPart reach e)
    if ! bound ∨ (k < n ∧ ! d.isIggevo e) ∨ d.pathRefusal reach e q s ≠ 0 then d.pathReply link k 7 false r
    else
      let d := d.setFar r { link := link, egress := e, reach := reach, q := q, phase := s, hop := k, hops := n, record := r, t6 := d.clk.t6 }
      if k < n then d.pathOnward 0x08 k (put r 18 (nb 1 s)) else d.pathReply link k 0 false r

/-- PATH_ACTIVATE (R247, step 5): the cells act at the epoch that the record names, or at the next one. A hop that holds no cells for
the path refuses. -/
def execPathActivate (dt link : Nat) (msg : List Byte) (s : State) : Host.Outcome State Fault Refusal :=
  pathRow dt link 0x09 msg s fun _ _ d x =>
    let r := x.data
    let k := byteAt r 17
    let e := leN r 20 5
    match d.farPath r with
    | some y =>
      let late := tGe d.now e
      let d := d.setFar r { y with epoch := some e, record := if late then put y.record 19 (nb 1 1) else y.record }
      if k < y.hops then d.pathOnward 0x09 k r else d.pathReply link k 0 late r
    | none => d.pathReply link k 7 false r

/-- PATH_FREE (R247, step 6): outward, it frees the cells of each hop and is answered by the last that it reaches; one that comes back
frees them on its way to the near switch. -/
def execPathFree (dt link : Nat) (msg : List Byte) (s : State) : Host.Outcome State Fault Refusal :=
  pathRow dt link 0x0A msg s fun _ _ d x =>
    let r := x.data
    let k := byteAt r 17
    let h := leN r 0 4
    if leN r 4 4 = d.switchId then
      match d.weir.paths.get? h with
      | some y => if y.egress = link then d.pathLost link h y else d
      | none => d
    else
      let back : Bool := match d.farPath r with
        | some y => decide (y.egress = link) && decide (y.link ≠ link)
        | none => false
      if back then d.freeFarPaths (fun z => decide (z.1 = recKey r)) false
      else
        let e := recLink r k
        if k < byteAt r 16 ∧ d.isIggevo e ∧ d.reachable e then
          let d := d.setFar r { link := link, egress := e, reach := recReach r k, q := 0, phase := 0, hop := k, hops := byteAt r 16, record := r, t6 := d.clk.t6 }
          d.pathOnward 0x0A k r
        else (d.dropFar r).pathReply link k 0 false r

/-- PATH_RSP (R247, steps 3 to 5): at the near switch it confirms, refuses or ends the path; a hop that it passes frees its cells on a
refusal, or when they were freed already, and passes it back. -/
def execPathRsp (dt link : Nat) (msg : List Byte) (s : State) : Host.Outcome State Fault Refusal :=
  pathRow dt link 0x18 msg s fun _ _ d x =>
    let r := x.data
    let h := leN r 0 4
    if leN r 4 4 = d.switchId then
      match d.weir.paths.get? h with
      | some y => if y.egress = link then d.pathAnswer h x.h.status r y else d
      | none => d
    else match d.farPath r with
      | some y =>
        if y.egress ≠ link then d
        else
          let d := if x.h.status ≠ 0 ∨ y.q = 0 then d.dropFar r else d
          let late := (byteAt y.record 19).testBit 0
          d.pathReply y.link (if late || ! (byteAt r 19).testBit 0 then y.hop else byteAt r 17) x.h.status late r
      | none => d

/-- A hop's provisional cells are freed after 40 ms with neither PATH_ACTIVATE nor PATH_FREE (R247, step 7). -/
def execPathHoldExpiry (dt origin handle : Nat) (s : State) : Host.Outcome State Fault Refusal :=
  event dt s fun _ _ d =>
    match d.brg.paths.get? (origin, handle) with
    | some y =>
      if ! y.active ∧ y.epoch.isNone ∧ d.since y.t6 ≥ 40 * ms6 then d.onBrg fun b => { b with paths := b.paths.erase (origin, handle) }
      else d
    | none => d

/-- A hop does not answer within 20 ms: PATH_RESERVE fails with ABORTED (R66). -/
def execPathReserveTimeout (dt handle : Nat) (s : State) : Host.Outcome State Fault Refusal :=
  event dt s fun _ _ d =>
    match d.weir.paths.get? handle with
    | some x => if x.stage < 2 ∧ ! x.freeing ∧ d.since x.t6 ≥ 20 * ms6 then d.pathFail handle x .aborted [] else d
    | none => d

/-! ### Commands -/

/-- The hop entry at a payload offset: a far egress link, a far Reach and a reserved byte; entries beyond hops are 0 (Table
WEIR-10). -/
def hopEntry (k : Nat) : List Check :=
  let o := 12 + 4 * k
  let used (c : Ctx) : Bool := decide (k < c.u8 1)
  [need o fun c => if used c then decide (c.u16 o ≤ 255) else c.u16 o == 0,
   need (o + 2) fun c => if used c then decide (c.u8 (o + 2) ≤ 31) else c.u8 (o + 2) == 0, rsvd (o + 3) 1]

/-- The cells of a path that PATH_RESERVE asks for. -/
def Ctx.pathAsk (c : Ctx) : Nat := reserveQ (c.u32 4) (c.u16 8)

/-- The start phase of a new path at its local egress: that with the fewest reserved cells (R526). -/
def Ctx.pathStart (c : Ctx) : Nat := leastPhase (c.d.pathPhases (c.u16 2))

/-- PATH_RESERVE (R64, R66, R247): the local cells are taken provisionally and PATH_HOLD goes out. -/
def cmdPathReserve : Cmd where
  op := 0x6006
  len := 28
  src := Src.operator
  long := true
  fields := [reachAt 0, need 1 fun c => decide (1 ≤ c.u8 1) && decide (c.u8 1 ≤ 4), iggAt 2, rsvd 10 2] ++ (List.range 4).flatMap hopEntry
  state :=
    let why (c : Ctx) : Nat := c.d.pathRefusal (c.u8 0) (c.u16 2) c.pathAsk c.pathStart
    [fun c => if c.pathAsk ≠ 0 ∧ c.d.calE (c.u16 2) = 0 then some (.contractInfeasible, zeros 4) else none,
     fun c => if why c = 1 then some (plain .shareExceeded) else none,
     fun c => if why c = 2 then some (.contractInfeasible, zeros 4) else none]
  body := fun c =>
    let h := c.d.weir.nextPath
    let x : Path := {
      reach := c.u8 0, egress := c.u16 2, rate := c.u32 4, burst := c.u16 8, q := c.pathAsk
      hops := (List.range (c.u8 1)).map fun k => slice c.f.payload (12 + 4 * k) 4
      t6 := c.d.clk.t6, phase := c.pathStart, long := some (c.f.mbx, c.f.tag) }
    let d := c.d.onWeir fun w => { w with paths := w.paths.set h x, nextPath := h + 1 }
    (d.pathSend h x 0x08 0, .started (nb 4 h))

def execPathReserve (dt : Nat) (f : Frame) (s : State) : Host.Outcome State Fault Refusal :=
  bilod cmdPathReserve dt f s

/-- PATH_RELEASE (R247, step 6): the local cells are freed and PATH_FREE goes out; the answer of the last hop completes it. -/
def cmdPathRelease : Cmd where
  op := 0x6007
  len := 4
  src := Src.operator
  long := true
  fields := [need 0 fun c => (c.d.weir.paths.get? (c.u32 0)).isSome]
  state := [require .busy fun c => (match c.d.weir.paths.get? (c.u32 0) with
    | some x => x.long.isNone && ! x.freeing
    | none => true)]
  body := fun c =>
    match c.d.weir.paths.get? (c.u32 0) with
    | some x =>
      let d := c.d.pathSend (c.u32 0) x 0x0A 0
      if d.reachable x.egress then
        (d.onPath (c.u32 0) fun x => { x with freeing := true, active := false, q := 0, long := some (c.f.mbx, c.f.tag) }, .started [])
      else (c.d.dropPath (c.u32 0), .ended .success [])
    | none => (c.d, .ended .success [])

def execPathRelease (dt : Nat) (f : Frame) (s : State) : Host.Outcome State Fault Refusal :=
  bilod cmdPathRelease dt f s

end Sys2Proof.Machine
end

