-- ==== Sys2Proof/Machine/Slots.lean ====
section
/-! DEFINITION. Slot power control (chapter 19): channels, feeds, attempts, trips, retries and changeovers. -/

namespace Sys2Proof.Machine

/-- The configuration of a channel (Table SLOT-4); the factory image's is Feed A preferred, revert, both feeds permitted,
2.50 A, 6 V/ms, auto range. -/
def Dev.slotCfgIn (d : Dev) (stg : Bool) (t : Nat) : Bytes :=
  (d.view stg 32 { op := 0xA001, a := t }).getD (nb 1 t ++ nb 1 0x0E ++ nb 2 250 ++ nb 1 12 ++ nb 1 0 ++ zeros 2)

/-- The active configuration of a channel. -/
def Dev.slotCfg (d : Dev) (t : Nat) : Bytes := d.slotCfgIn false t

/-- The preferred feed of a channel: 0 for Feed A, 1 for Feed B. -/
def Dev.prefFeed (d : Dev) (t : Nat) : Nat := byteAt (d.slotCfg t) 1 % 2

/-- A feed is permitted to a channel. -/
def Dev.permits (d : Dev) (t fd : Nat) : Bool := (byteAt (d.slotCfg t) 1).testBit (2 + fd)

/-- The current limit of a channel in mA (R437). -/
def Dev.iLim (d : Dev) (t : Nat) : Nat := 10 * leN (d.slotCfg t) 2 2

/-- A slot power channel. -/
def Dev.chan (d : Dev) (t : Nat) : Chan := d.slots.ch.getD t {}

/-- The device with one channel changed. -/
def Dev.onChan (d : Dev) (t : Nat) (f : Chan → Chan) : Dev :=
  d.onSlots fun x => { x with ch := x.ch.upd t {} f }

/-- Feed `fd` of group `g`. -/
def Dev.feed (d : Dev) (g fd : Nat) : Feed := d.slots.feed.getD (2 * g + fd) {}

/-- The device with one feed changed. -/
def Dev.onFeed (d : Dev) (g fd : Nat) (f : Feed → Feed) : Dev :=
  d.onSlots fun x => { x with feed := x.feed.upd (2 * g + fd) {} f }

/-- A feed is valid and free of warning. -/
def Dev.feedGood (d : Dev) (g fd : Nat) : Bool := (d.feed g fd).valid && ! (d.feed g fd).warn

/-- The feed that an attempt of a channel starts on (R440). -/
def Dev.pickFeed (d : Dev) (t : Nat) : Option Nat :=
  let p := d.prefFeed t
  if d.feedGood (t / 8) p then some p
  else if d.permits t (1 - p) && d.feedGood (t / 8) (1 - p) then some (1 - p)
  else none

/-- PERST_N of a tile is driven low. -/
def Dev.perstLow (d : Dev) (t : Nat) : Dev := d.onPwr fun w => { w with perst := w.perst.filter fun x => decide (x ≠ t) }

/-- Power-good of a channel falls, and with it PERST_N (R439). -/
def Dev.pgFall (d : Dev) (t : Nat) : Dev := (d.onChan t fun c => { c with pg := false }).perstLow t

/-- A channel is turned on by a hot-plug procedure: it waits for a ramp slot (R435). -/
def Dev.chanOn (d : Dev) (t : Nat) : Dev :=
  if (d.chan t).st = .off then d.onChan t fun c => { c with st := .waiting, t6 := d.clk.t6 } else d

/-- A channel is turned off by a hot-plug procedure: its attempt count returns to 0 (R438). -/
def Dev.chanOff (d : Dev) (t : Nat) : Dev :=
  if (d.chan t).st = .latched then d.pgFall t
  else (d.pgFall t).onChan t fun c => { c with
    st := .off, feed := none, next := none, tries := 0, enh := false, abandoned := none }

/-- An attempt ends by a trip or fails, with its cause (R438): the channel is off for 1 s, or after the 7th in a row
latched off, logged as a contained fault. -/
def Dev.failAttempt (d : Dev) (t cause : Nat) : Dev :=
  let d := (d.pgFall t).countDev (0x280 + t) cause
  let n := (d.chan t).tries + 1
  let d := d.onChan t fun c => { c with
    st := if n ≥ 7 then .latched else .retry
    tries := n, feed := none, next := none, enh := false, abandoned := none, t6 := d.clk.t6 }
  if n ≥ 7 then d.sendFault 13 t 1 1 0x3F n else d

/-- A changeover begins: break before make (R440). Each counts FEED_CHANGEOVER. -/
def Dev.changeover (d : Dev) (t fd : Nat) : Dev :=
  (d.onChan t fun c => { c with st := .changeover, next := some fd, t6 := d.clk.t6 }).countN 0x1000 64 0x3F 7 t 1

/-- SLOT_STATUS_GET: a Reach mailbox may name tiles all of whose links are its own (R445). -/
def cmdSlotStatusGet : Cmd where
  op := 0xA000
  len := 1
  src := Src.watch
  fields :=
    [fun c =>
      if c.u8 0 > 63 then some (invalid 0)
      else match c.f.mbx with
        | .reach r => if (c.d.tileLinks (c.u8 0)).all fun l => c.d.owner l 0xFF == some r then none
                      else some (plain .accessDenied)
        | _ => none]
  body := reads fun c =>
    let x := c.d.chan (c.u8 0)
    let code : Nat := match x.st with
      | .off => 0 | .waiting => 1 | .ramping => 2 | .on => 3 | .retry => 4 | .latched => 5 | .feedLost => 6 | .changeover => 7
    nb 1 code ++ nb 1 (x.feed.getD 0xFF) ++ nb 1 x.tries ++ nb 1 (b2n x.pg + 2 * b2n x.flagged) ++ nb 2 x.ma
      ++ nb 2 x.vout ++ nb 2 (c.d.feed (c.u8 0 / 8) 0).mv ++ nb 2 (c.d.feed (c.u8 0 / 8) 1).mv

def execSlotStatusGet (dt : Nat) (f : Frame) (s : State) : Host.Outcome State Fault Refusal :=
  bilod cmdSlotStatusGet dt f s

/-- SLOT_CONFIG_SET, for one channel or all (R445). A preferred feed that is not permitted is reported at its byte. -/
def cmdSlotConfigSet : Cmd where
  op := 0xA001
  len := 8
  src := Src.operator
  fields :=
    [need 0 fun c => decide (c.u8 0 < 64) || c.u8 0 == 0xFF,
     need 1 fun c => decide (c.u8 1 < 16) && (c.u8 1).testBit (2 + c.u8 1 % 2),
     need 2 fun c => decide (50 ≤ c.u16 2) && decide (c.u16 2 ≤ 800),
     need 4 fun c => decide (8 ≤ c.u8 4) && decide (c.u8 4 ≤ 24), atMost 5 2, rsvd 6 2]
  state := stageChecks (fun _ => devSet) false fun c => if c.u8 0 = 0xFF then 64 else 1
  body := stages (fun _ => devSet) fun c =>
    let item (t : Nat) : CfgKey × Option Bytes := ({ op := 0xA001, a := t }, some (nb 1 t ++ slice c.f.payload 1 7))
    if c.u8 0 = 0xFF then (List.range 64).map item else [item (c.u8 0)]

def execSlotConfigSet (dt : Nat) (f : Frame) (s : State) : Host.Outcome State Fault Refusal :=
  bilod cmdSlotConfigSet dt f s

/-- SLOT_CONFIG_GET: bytes 1–7 of the active or staged configuration, with the channel in byte 0. -/
def cmdSlotConfigGet : Cmd where
  op := 0xA002
  len := 2
  src := Src.observer
  fields := [atMost 0 63, atMost 1 1]
  body := reads fun c => c.d.slotCfgIn (c.u8 1 == 1) (c.u8 0)

def execSlotConfigGet (dt : Nat) (f : Frame) (s : State) : Host.Outcome State Fault Refusal :=
  bilod cmdSlotConfigGet dt f s

/-- SLOT_RESET_LATCH: leaves the channel off with its count at 0 (R438). -/
def cmdSlotResetLatch : Cmd where
  op := 0xA003
  len := 1
  src := Src.operator
  fields := [atMost 0 63]
  state := [require .wrongMode fun c => (c.d.chan (c.u8 0)).st == .latched]
  body := changes fun c => c.d.onChan (c.u8 0) fun x => { x with st := .off, tries := 0 }

def execSlotResetLatch (dt : Nat) (f : Frame) (s : State) : Host.Outcome State Fault Refusal :=
  bilod cmdSlotResetLatch dt f s

/-- SLOT_FEED_SELECT: a channel that is on another feed changes over (R440). -/
def cmdSlotFeedSelect : Cmd where
  op := 0xA004
  len := 2
  src := Src.operator
  fields := [atMost 0 63, atMost 1 1]
  state := [require .wrongMode fun c => c.d.permits (c.u8 0) (c.u8 1) && c.d.feedGood (c.u8 0 / 8) (c.u8 1),
            require .busy fun c => (c.d.chan (c.u8 0)).st != .changeover]
  body := changes fun c =>
    let x := c.d.chan (c.u8 0)
    if x.st = .on ∧ x.feed ≠ some (c.u8 1) then c.d.changeover (c.u8 0) (c.u8 1) else c.d

def execSlotFeedSelect (dt : Nat) (f : Frame) (s : State) : Host.Outcome State Fault Refusal :=
  bilod cmdSlotFeedSelect dt f s

/-- FEED_STATUS_GET. -/
def cmdFeedStatusGet : Cmd where
  op := 0xA005
  len := 1
  src := Src.observer
  fields := [atMost 0 7]
  body := reads fun c =>
    let a := c.d.feed (c.u8 0) 0
    let b := c.d.feed (c.u8 0) 1
    nb 2 a.mv ++ nb 2 b.mv ++ nb 1 (b2n a.valid + 2 * b2n b.valid + 4 * b2n a.warn + 8 * b2n b.warn)

def execFeedStatusGet (dt : Nat) (f : Frame) (s : State) : Host.Outcome State Fault Refusal :=
  bilod cmdFeedStatusGet dt f s

/-! ### Feeds -/

/-- The channels of a feed group. -/
def groupChans (g : Nat) : List Nat := (List.range 8).map (8 * g + ·)

/-- Slot power lives in domain 90: it acts in every mode with the core rails on (chapter 19). -/
def slotEvent (dt : Nat) (s : State) (g : Dev → Dev) : Host.Outcome State Fault Refusal :=
  event dt s fun mode _ d => if mode = .shelf then d else g d

/-- A feed warning is raised (R434): the source is posted, a corrected fault
is logged (with the group's first channel as its instance, assumption 15), and every channel on that feed
changes over, or in a ramp is abandoned (Table SLOT-2), if the other feed qualifies. -/
def Dev.feedWarn (d : Dev) (g fd : Nat) : Dev :=
  if (d.feed g fd).warn then d
  else
    let d := d.onFeed g fd fun x => { x with warn := true }
    let d := (d.countDev (0x2C0 + g) fd).sendFault 13 (8 * g) 2 0 0x3F (g + 8 * fd)
    (groupChans g).foldl (fun d t =>
      let x := d.chan t
      if x.feed = some fd ∧ d.permits t (1 - fd) ∧ d.feedGood g (1 - fd) then
        match x.st with
        | .on => d.changeover t (1 - fd)
        | .ramping => d.onChan t fun c => { c with
            st := .waiting, feed := none, enh := false, abandoned := some d.clk.t6 }
        | _ => d
      else d) d

/-- A feed between 9.0 V and 14.0 V for 10 ms becomes valid (R433); channels that lost their feeds start again (R439). -/
def execFeedValid (dt g fd mv : Nat) (s : State) : Host.Outcome State Fault Refusal :=
  slotEvent dt s fun d =>
    if g < 8 ∧ fd < 2 ∧ 9000 ≤ mv ∧ mv ≤ 14000 ∧ (d.feed g fd).valid = false then
      let d := d.onFeed g fd fun x => { x with mv := mv, valid := true, good6 := d.clk.t6 }
      (groupChans g).foldl (fun d t =>
        if (d.chan t).st = .feedLost then d.onChan t fun c => { c with st := .waiting, t6 := d.clk.t6 } else d) d
    else d

/-- A feed leaves its range by more than 0.2 V: it is invalid at once, and warned of (R433, R434). -/
def execFeedInvalid (dt g fd mv : Nat) (s : State) : Host.Outcome State Fault Refusal :=
  slotEvent dt s fun d =>
    if g < 8 ∧ fd < 2 ∧ (mv < 8800 ∨ mv > 14200) then
      (d.onFeed g fd fun x => { x with mv := mv, valid := false }).feedWarn g fd
    else d

/-- A feed falls below its warning threshold (R434). -/
def execFeedWarning (dt g fd mv : Nat) (s : State) : Host.Outcome State Fault Refusal :=
  slotEvent dt s fun d =>
    if g < 8 ∧ fd < 2 then (d.onFeed g fd fun x => { x with mv := mv }).feedWarn g fd else d

/-- The warning clears after 1 ms at 0.2 V above the threshold (R434). -/
def execFeedWarningClear (dt g fd mv : Nat) (s : State) : Host.Outcome State Fault Refusal :=
  slotEvent dt s fun d =>
    if g < 8 ∧ fd < 2 ∧ (d.feed g fd).warn ∧ mv ≥ 9800 then
      d.onFeed g fd fun x => { x with mv := mv, warn := false, good6 := d.clk.t6 }
    else d

/-- The old gate is below 1 V: the other gate is driven on (R440). -/
def execChangeoverMake (dt t : Nat) (s : State) : Host.Outcome State Fault Refusal :=
  slotEvent dt s fun d =>
    if (d.chan t).st = .changeover then d.onChan t fun c => { c with st := .on, feed := c.next, next := none } else d

/-- With revert set, a channel changes back once its preferred feed was valid and free of warning for 1 s (R440). -/
def execFeedRevert (dt t : Nat) (s : State) : Host.Outcome State Fault Refusal :=
  slotEvent dt s fun d =>
    let p := d.prefFeed t
    if (d.chan t).st = .on ∧ (d.chan t).feed ≠ some p ∧ (byteAt (d.slotCfg t) 1).testBit 1 ∧ d.feedGood (t / 8) p
        ∧ d.since (d.feed (t / 8) p).good6 ≥ s6 then
      d.changeover t p
    else d

/-! ### Attempts -/

/-- A channel of the group obtains a ramp slot (R436): at most two ramp, and the waiting ones are served in rotating
priority from the fabric cycle counter modulo 8. -/
def execRampStart (dt g : Nat) (s : State) : Host.Outcome State Fault Refusal :=
  slotEvent dt s fun d =>
    if ((groupChans g).filter fun t => (d.chan t).st == .ramping).length < 2 then
      match rotate 8 (d.clk.cyc % 8) fun i =>
          (d.chan (8 * g + i)).st == .waiting && (d.chan (8 * g + i)).abandoned.isNone && (d.pickFeed (8 * g + i)).isSome with
      | some i => d.onChan (8 * g + i) fun c => { c with
          st := .ramping, feed := d.pickFeed (8 * g + i), enh := false, t6 := d.clk.t6 }
      | none => d
    else d

/-- The voltage of the feed that a channel uses. -/
def Dev.chanFeedMv (d : Dev) (t : Nat) : Nat :=
  match (d.chan t).feed with
  | some fd => (d.feed (t / 8) fd).mv
  | none => 0

/-- SLOT_VOUT is within 0.3 V of the feed: the gate is driven to full enhancement (R435). -/
def execEnhancementStart (dt t mv : Nat) (s : State) : Host.Outcome State Fault Refusal :=
  slotEvent dt s fun d =>
    if (d.chan t).st = .ramping ∧ mv + 300 ≥ d.chanFeedMv t then d.onChan t fun c => { c with enh := true, vout := mv }
    else d

/-- Full enhancement for 50 µs with SLOT_VOUT at 95 % of the feed, within the 4 ms of the attempt: power-good (R435). -/
def execSlotPowerGood (dt t mv : Nat) (s : State) : Host.Outcome State Fault Refusal :=
  slotEvent dt s fun d =>
    if (d.chan t).st = .ramping ∧ (d.chan t).enh ∧ 100 * mv ≥ 95 * d.chanFeedMv t ∧ d.since (d.chan t).t6 ≤ 4 * ms6 then
      d.onChan t fun c => { c with st := .on, pg := true, pgT := d.clk.t6, vout := mv }
    else d

/-- An attempt without power-good after 4 ms fails (R435). -/
def execAttemptTimeout (dt t : Nat) (s : State) : Host.Outcome State Fault Refusal :=
  slotEvent dt s fun d =>
    if (d.chan t).st = .ramping ∧ d.since (d.chan t).t6 ≥ 4 * ms6 then d.failAttempt t 3 else d

/-- The comparators act in a ramp, when the channel is on, and in and after a changeover (R437, Table SLOT-2). -/
def conducting (c : Chan) : Bool := c.st == .ramping || c.st == .on || c.st == .changeover

/-- A current of 2 × I_lim turns the channel off (R437). -/
def execFastTrip (dt t ma : Nat) (s : State) : Host.Outcome State Fault Refusal :=
  slotEvent dt s fun d => if conducting (d.chan t) ∧ ma ≥ 2 * d.iLim t then d.failAttempt t 1 else d

/-- A current of 1.2 × I_lim for 1 ms turns the channel off (R437). -/
def execBreakerTrip (dt t ma lastedNs : Nat) (s : State) : Host.Outcome State Fault Refusal :=
  slotEvent dt s fun d =>
    if conducting (d.chan t) ∧ 10 * ma ≥ 12 * d.iLim t ∧ lastedNs ≥ 1000000 then d.failAttempt t 2 else d

/-- After 1 s off the channel starts a new attempt (R438). -/
def execRetryStart (dt t : Nat) (s : State) : Host.Outcome State Fault Refusal :=
  slotEvent dt s fun d =>
    if (d.chan t).st = .retry ∧ d.since (d.chan t).t6 ≥ s6 then d.onChan t fun c => { c with st := .waiting, t6 := d.clk.t6 }
    else d

/-- Power-good held for 10 s clears the attempt count (R438). -/
def execAttemptCountClear (dt t : Nat) (s : State) : Host.Outcome State Fault Refusal :=
  slotEvent dt s fun d =>
    if (d.chan t).pg ∧ d.since (d.chan t).pgT ≥ 10 * s6 then d.onChan t fun c => { c with tries := 0 } else d

/-- An abandoned ramp may start again on the other feed after 1 ms (Table SLOT-2). -/
def execRampRestart (dt t : Nat) (s : State) : Host.Outcome State Fault Refusal :=
  slotEvent dt s fun d =>
    match (d.chan t).abandoned with
    | some a => if d.since a ≥ ms6 then d.onChan t fun c => { c with abandoned := none } else d
    | none => d

/-- SLOT_VOUT below 9.0 V for 10 µs drops power-good (R439): feed-lost if no permitted feed is valid, else a trip. -/
def execSlotUndervoltage (dt t mv lastedNs : Nat) (s : State) : Host.Outcome State Fault Refusal :=
  slotEvent dt s fun d =>
    if ((d.chan t).st = .on ∨ (d.chan t).st = .changeover) ∧ mv < 9000 ∧ lastedNs ≥ 10000 then
      let d := d.onChan t fun c => { c with vout := mv }
      if (List.range 2).any fun fd => d.permits t fd && (d.feed (t / 8) fd).valid then d.failAttempt t 4
      else ((d.pgFall t).onChan t fun c => { c with
        st := .feedLost, feed := none, next := none, enh := false }).countN 0x1001 64 0x3F 7 t 1
    else d

/-- The ADC samples current and voltages each 10 µs (R442): in auto mode it moves up after a sample of 1.9 A, down after 8
in a row below 1.6 A; the sample across a change is flagged, and the last good value stands. -/
def execAdcSample (dt t ma vout feedA feedB : Nat) (s : State) : Host.Outcome State Fault Refusal :=
  slotEvent dt s fun d =>
    if t ≥ 64 then d
    else
      let g := t / 8
      let d := (d.onFeed g 0 fun x => { x with mv := feedA }).onFeed g 1 fun x => { x with mv := feedB }
      let mode := byteAt (d.slotCfg t) 5
      d.onChan t fun c =>
        if c.moving then { c with moving := false, flagged := true, vout := vout }
        else
          let below := if c.range16 ∧ ma < 1600 then c.below + 1 else 0
          let range := if mode = 1 then false else if mode = 2 then true
            else if c.range16 then decide (below < 8) else decide (ma ≥ 1900)
          { c with
            ma := ma, vout := vout, flagged := false, range16 := range, moving := range != c.range16
            below := if range != c.range16 then 0 else below }

end Sys2Proof.Machine
end

