-- ==== Sys2Proof/Machine/Sideband.lean ====
section
/-! DEFINITION. Sideband interfaces (chapter 21) but for JTAG and the hot-plug inputs: the SPI target, the UART console,
I3C and MCTP, and the scan of the slot chain. -/

namespace Sys2Proof.Machine

/-! ### SPI target -/

/-- The accesses that a page frame performs (R469): 8 bytes wide where they fit, else 4. -/
def pageAccesses : Nat → Nat → Nat → List (Nat × Nat)
  | 0, _, _ => []
  | n + 1, off, len =>
    if len = 0 then []
    else if off % 8 = 0 ∧ len ≥ 8 then (off, 8) :: pageAccesses n (off + 8) (len - 8)
    else (off, 4) :: pageAccesses n (off + 4) (len - 4)

/-- The offset and length of a page frame are in form (R469). -/
def spiForm (off len : Nat) : Bool :=
  off % 4 == 0 && len % 4 == 0 && decide (4 ≤ len) && decide (len ≤ 4096) && decide (off + len ≤ 0x10000)

/-- The counts that a frame moves: a failed CRC, edges after its end (R470). -/
def Side.spiCounts (crcOk extra : Bool) (x : Side) : Side :=
  { x with
    spiCrc := if crcOk then x.spiCrc else (x.spiCrc + 1) % 2 ^ 16
    spiExtra := if extra then (x.spiExtra + 1) % 2 ^ 16 else x.spiExtra
    spiPrev := b2n crcOk + 2 * b2n (! crcOk) + 8 * b2n extra }

/-- A response: previous status, 5 header bytes and 8 turnaround bytes of 0, the status byte, data, CRC-8 (R468). -/
def spiResponse (prev : Nat) (ok : Bool) (data : Bytes) : Bytes :=
  let b := nb 1 (2 * b2n (! ok)) ++ data
  nb 1 prev ++ zeros 13 ++ b ++ [crc8 b]

/-- SB_STATUS (Table SIDE-4). -/
def Side.status (x : Side) : Nat :=
  b2n x.chOk + 2 ^ 8 * x.chFaults + 2 ^ 16 * x.pecFail + 2 ^ 32 * x.uBreak + 2 ^ 48 * x.uOver + 2 ^ 64 * x.uFrame
    + 2 ^ 80 * x.spiExtra + 2 ^ 96 * x.spiCrc + 2 ^ 112 * x.spiPart

/-- A format error: the frame is discarded (R470). -/
def Dev.spiFormat (d : Dev) : Dev := d.onSide fun x => { x with spiOut := nb 1 x.spiPrev, spiPrev := 16 }

/-- The target is served in every mode except Shelf (chapter 21). -/
def sideEvent (dt : Nat) (s : State) (g : Mode → Profile → Dev → Dev) : Host.Outcome State Fault Refusal :=
  event dt s fun mode p d => if mode = .shelf then d else g mode p d

/-- A read frame (R468–R470): a header that fails its CRC reads 0 with status 0x02. -/
def execSpiReadPage (dt off len : Nat) (crcOk extra : Bool) (s : State) : Host.Outcome State Fault Refusal :=
  sideEvent dt s fun mode p d =>
    if crcOk && ! spiForm off len then d.spiFormat
    else
      let data := if crcOk then
          ((pageAccesses (len / 4) off len).map fun a => d.pageRead mode p .admin a.1 a.2).flatten
        else zeros len
      d.onSide fun x => { x.spiCounts crcOk extra with spiOut := spiResponse x.spiPrev crcOk data }

/-- A write frame acts when it was complete and its CRC passed (R469). -/
def execSpiWritePage (dt off : Nat) (data : List Byte) (crcOk extra : Bool) (s : State) :
    Host.Outcome State Fault Refusal :=
  sideEvent dt s fun mode _ d =>
    if ! spiForm off data.length then d.spiFormat
    else
      let d := d.onSide fun x => { x.spiCounts crcOk extra with spiOut := nb 1 x.spiPrev }
      if crcOk then
        (pageAccesses (data.length / 4) off data.length).foldl
          (fun d a => d.pageWrite mode .admin a.1 a.2 (slice data (a.1 - off) a.2)) d
      else d

/-- SB_STATUS is read most significant byte first (R471). -/
def execSpiReadSbStatus (dt : Nat) (crcOk extra : Bool) (s : State) : Host.Outcome State Fault Refusal :=
  sideEvent dt s fun _ _ d =>
    d.onSide fun x => { x.spiCounts crcOk extra with
      spiOut := spiResponse x.spiPrev crcOk (if crcOk then (nb 16 x.status).reverse else zeros 16) }

def execSpiFormatError (dt : Nat) (s : State) : Host.Outcome State Fault Refusal :=
  sideEvent dt s fun _ _ d => d.spiFormat

/-- A frame cut short is discarded and counted (R470). -/
def execSpiPartialFrame (dt : Nat) (s : State) : Host.Outcome State Fault Refusal :=
  sideEvent dt s fun _ _ d => d.onSide fun x => { x with
    spiPart := (x.spiPart + 1) % 2 ^ 16, spiPrev := 4, spiOut := nb 1 x.spiPrev }

/-! ### UART console -/

/-- A character (R477–R479): input is kept only while invasive debug is enabled, and ignored in Run-Secure. -/
def execUartCharacter (dt : Nat) (ch : Byte) (stop : Bool) (s : State) : Host.Outcome State Fault Refusal :=
  sideEvent dt s fun _ p d =>
    if p.isSecure then d
    else if ! stop then d.onSide fun x => { x with uFrame := (x.uFrame + 1) % 2 ^ 16 }
    else if ! d.sec.debug then d
    else d.onSide fun x =>
      if x.uFifo.length < 64 then { x with uFifo := x.uFifo ++ [ch] } else { x with uOver := (x.uOver + 1) % 2 ^ 16 }

/-- A break is counted once (R479). -/
def execUartBreak (dt : Nat) (s : State) : Host.Outcome State Fault Refusal :=
  sideEvent dt s fun _ p d => if p.isSecure then d else d.onSide fun x => { x with uBreak := (x.uBreak + 1) % 2 ^ 16 }

/-! ### I3C and MCTP -/

/-- A packet whose PEC fails is discarded and counted; a message of a type that Table SIDE-5 does not list is counted;
Set Endpoint ID (command 0x01 of MCTP control, PRESUMED) sets the endpoint ID (R473). -/
def execMctpControlMessage (dt mtype cmd eid : Nat) (pecOk : Bool) (s : State) : Host.Outcome State Fault Refusal :=
  sideEvent dt s fun _ _ d => d.onSide fun x =>
    if ! pecOk then { x with pecFail := (x.pecFail + 1) % 2 ^ 16 }
    else if mtype = 0 then (if cmd = 1 ∧ 8 ≤ eid ∧ eid < 0xFF then { x with eid := eid } else x)
    else if [0x05, 0x06, 0x07, 0x7E].contains mtype then x
    else { x with ctlOther := x.ctlOther + 1 }

/-- The static I3C address (R472, Table IMAGE-4). -/
def Dev.i3cStatic (d : Dev) : Nat := if d.img.settings.isEmpty then 0x3A else d.setting 5 1

/-- A dynamic address by ENTDAA, or by SETDASA from the static address; a message partly assembled is discarded and the
endpoint ID kept (R472, R474). -/
def execI3cAddressAssign (dt addr : Nat) (setdasa : Bool) (staticAddr : Nat) (s : State) :
    Host.Outcome State Fault Refusal :=
  sideEvent dt s fun _ _ d =>
    if setdasa && staticAddr != d.i3cStatic then d
    else d.onSide fun x => { x with i3cAddr := some addr, partMsg := false }

def execI3cBusReset (dt : Nat) (s : State) : Host.Outcome State Fault Refusal :=
  sideEvent dt s fun _ _ d => d.onSide fun x => { x with partMsg := false }

/-! ### Slot chain -/

/-- Bit `k` of an input word. -/
def inBit (v : Nat) (k : Nat) : Bool := v.testBit k

/-- One scan of the chain (R483–R485), from Safe onward: signatures are counted, and for each bit the scans in a row that
read the same value; while the chain is in fault the debounce counts stand at 0. The outputs of the indicators shift out. -/
def execSidebandScan (dt : Nat) (inputs : BitVec 128) (signature : Byte) (s : State) :
    Host.Outcome State Fault Refusal :=
  event dt s fun mode _ d =>
    if ! mode.adminServed then d
    else
      let v := inputs.toNat
      let good := signature == 0xA5
      d.onSide fun x =>
        let ok := x.chOk || ! x.scanned
        { x with
          scanned := true, chOk := ok, last := v
          indOut := bitsOf (fun k => x.indOn.testBit k || (x.indBlink.testBit k && x.blinkOn)) 128
          badSig := if good then 0 else x.badSig + 1
          goodSig := if good then x.goodSig + 1 else 0
          run := if ! ok then [] else (List.range 128).map fun k =>
            (k, if inBit v k == inBit x.last k then min 16 (x.run.getD k 0 + 1) else 1) }

/-- Three scans in a row with another signature: the chain is in fault (R485). -/
def execChainFault (dt : Nat) (s : State) : Host.Outcome State Fault Refusal :=
  event dt s fun mode _ d =>
    if mode.adminServed && d.side.chOk && decide (d.side.badSig ≥ 3) then
      d.onSide fun x => { x with chOk := false, chFaults := (x.chFaults + 1) % 2 ^ 8, run := [] }
    else d

/-- The fault ends after 16 scans in a row that read 0xA5 (R485). -/
def execChainFaultEnd (dt : Nat) (s : State) : Host.Outcome State Fault Refusal :=
  event dt s fun mode _ d =>
    if mode.adminServed && d.side.scanned && ! d.side.chOk && decide (d.side.goodSig ≥ 16) then
      d.onSide fun x => { x with chOk := true }
    else d

/-- A blinking indicator toggles at timebase multiples of 333,000,000 ns (R483). -/
def execIndicatorBlink (dt : Nat) (s : State) : Host.Outcome State Fault Refusal :=
  event dt s fun mode _ d =>
    if mode.adminServed && d.now % 333000000 == 0 then d.onSide fun x => { x with blinkOn := ! x.blinkOn } else d

/-- A debounced input has read a new value for `n` scans (R484): the value, if it is to be accepted. -/
def Dev.newInput (d : Dev) (k n : Nat) : Option Bool :=
  if d.side.chOk && inBit d.side.last k != inBit d.side.deb k && decide (d.side.run.getD k 0 ≥ n) then
    some (inBit d.side.last k)
  else none

/-- The debounced value of an input bit changes. -/
def Dev.acceptInput (d : Dev) (k : Nat) : Dev := d.onSide fun x => { x with
  deb := if inBit x.deb k then clrBit x.deb k else setBit x.deb k }

/-- Presence of slot `t` reads present (0 means present). -/
def Dev.inserted (d : Dev) (t : Nat) : Bool := ! inBit d.side.deb (2 * t)

end Sys2Proof.Machine
end

