-- ==== Sys2Proof/Machine/Hotplug.lean ====
section
/-! DEFINITION. Service operations (R39, R122, R126, R148, R523, R528), the loss of a CXL link, bindings as they act (R282–R284),
and the hot-plug procedures (R294–R299) with the events that drive them. -/

namespace Sys2Proof.Machine

/-! ### vPPBs and slots -/

/-- A vPPB. -/
def Dev.vppb (d : Dev) (x : Nat × Nat) : Vppb := d.cxl.vppb.getD x {}

/-- The device with one vPPB changed. -/
def Dev.onVppb (d : Dev) (x : Nat × Nat) (f : Vppb → Vppb) : Dev :=
  d.onCxl fun c => { c with vppb := c.vppb.upd x {} f }

/-- The vPPBs bound to a link or LD of a tile, which show its slot (R294). -/
def Dev.slotVppbs (d : Dev) (t : Nat) : List (Nat × Nat) :=
  d.cxl.order.filter fun x => match d.binding x.1 x.2 with
    | some b => decide (b.link / 4 = t)
    | none => false

/-- The vPPBs bound to a link. -/
def Dev.linkVppbs (d : Dev) (l : Nat) : List (Nat × Nat) :=
  d.cxl.order.filter fun x => match d.binding x.1 x.2 with
    | some b => decide (b.link = l)
    | none => false

/-- Slot status bits of a vPPB are set. -/
def Dev.report (d : Dev) (bits : Nat) (x : Nat × Nat) : Dev := d.onVppb x fun v => { v with slot := v.slot ||| bits }

/-- DPC of a vPPB is enabled: the trigger-enable bits of its DPC Control register as its host wrote them (PRESUMED, PCIe Base 7.0;
the place of the capability is open, R287). -/
def Dev.dpcOn (d : Dev) (x : Nat × Nat) : Bool :=
  bits (d.cfgDword x.1 (16 + x.2) (4 * Sys2Proof.Config.dpcCap.toNat + 4)) 17 16 != 0

/-- A vPPB's host sees a surprise removal (R295, R296): Presence Detect Changed and Data Link Layer State Changed, and DPC where it is
enabled. -/
def Dev.seesSurprise (d : Dev) (x : Nat × Nat) : Dev :=
  (d.report 6 x).onVppb x fun v => { v with dpc := v.dpc || d.dpcOn x }

/-- The indicators of a slot: 1 on, 2 blinking, 3 off; bit 0 of `which` the power indicator, 1 the attention indicator (R482,
R294). -/
def Dev.indicate (d : Dev) (t which v : Nat) : Dev :=
  let k := 2 * t + which
  d.onSide fun x => { x with
    indOn := if v = 1 then setBit x.indOn k else clrBit x.indOn k
    indBlink := if v = 2 then setBit x.indBlink k else clrBit x.indBlink k }

/-- Every bound vPPB's power control is off. -/
def Dev.powersOff (d : Dev) (t : Nat) : Bool := (d.slotVppbs t).all fun x => ! (d.vppb x).power

/-- The PORT_CONFIG_SET item of a link; the factory image's has the role disabled, IDE off, 60 minutes and 30 s. -/
def Dev.portCfg (d : Dev) (l : Nat) : Bytes := (d.cfg { op := 0x3021, a := l }).getD (nb 2 l ++ nb 1 0 ++ nb 1 0 ++ nb 2 60 ++ nb 2 30)

/-- remove_timeout of a link (R295). -/
def Dev.removeTime (d : Dev) (l : Nat) : Nat := leN (d.portCfg l) 6 2 * s6

/-! ### Bindings as they act (R282–R284) -/

/-- A binding acts: the vPPB joins the binding order, owns a link or LD that no other holds, loads its copy of a shared LD's
configuration space, and shows a slot change if the link is active. A bind while the tile is being removed shows an empty slot
(R298). -/
def Dev.bindAct (d : Dev) (x : Nat × Nat) (b : Bind) : Dev :=
  let d := d.onCxl fun c => { c with
    order := c.order ++ [x]
    own := if (c.own.get? (b.link, b.ld)).isNone then c.own.set (b.link, b.ld) x else c.own }
  let gen := d.free
  let (_, d) := d.draw
  let d := d.onVppb x fun v => { v with gen := gen, wait := none, waitLong := none }
  let d := d.count 0x0D0 (x.1 / 4) ((d.owner x.1 0xFF).getD 0x3F) x.1
  if (d.port b.link).up && d.tileIn (b.link / 4) then d.report 6 x else d

/-- A binding ends (R283, R284): its lowest-numbered remaining sharer becomes owner. -/
def Dev.unbindAct (d : Dev) (x : Nat × Nat) (b : Bind) : Dev :=
  let d := d.onCxl fun c => { c with order := c.order.filter fun y => decide (y ≠ x) }
  let rest := d.cxl.order.filter fun y => match d.binding y.1 y.2 with
    | some e => decide (e.link = b.link) && decide (e.ld = b.ld)
    | none => false
  let next := rest.foldl (fun (o : Option (Nat × Nat)) y => match o with
    | some z => if 32 * y.1 + y.2 < 32 * z.1 + z.2 then some y else o
    | none => some y) none
  let d := d.onCxl fun c => { c with
    own := if c.own.get? (b.link, b.ld) = some x then
        (match next with
         | some y => c.own.set (b.link, b.ld) y
         | none => c.own.erase (b.link, b.ld))
      else c.own }
  d.count 0x0D0 (x.1 / 4) ((d.owner x.1 0xFF).getD 0x3F) x.1

/-- The binding of a vPPB is removed from the active configuration, its waiting unbind completed. -/
def Dev.unbindNow (d : Dev) (x : Nat × Nat) : Dev :=
  match d.binding x.1 x.2 with
  | some b =>
    let long := (d.vppb x).waitLong
    let d := d.onConf fun c => { c with active := c.active.erase { op := 0x4000, a := x.1, b := x.2 } }
    let d := d.unbindAct x b
    let d := d.onVppb x fun v => { v with wait := none, waitLong := none }
    d.finLong? long .success []
  | none => d

/-! ### Service operations -/

/-- Links may train: Configure and the modes with tenant traffic (Table MODE-1). -/
def Mode.trains (m : Mode) : Bool := m == .configure || m.tenant

/-- A JTAG instruction holds the scanned pins away from their functions (R481). -/
def Dev.pinsOut (d : Dev) : Bool :=
  match d.side.jtag with
  | .extest | .extestPulse | .extestTrain | .clamp | .highz => true
  | _ => false

/-- The Iggevo link of a tile enters DETECT, if it has one that is down and links may train. -/
def Dev.tileStart (d : Dev) (m : Mode) (t : Nat) : Dev :=
  if d.tileCode t = 3 ∧ m.trains ∧ ! d.pinsOut ∧ (d.igg (4 * t)).st = .down then d.igStart (4 * t) else d

/-- Some link of a tile is active. -/
def Dev.tileActive (d : Dev) (t : Nat) : Bool :=
  (d.tileLinks t).any fun l => if d.isIggevo l then (d.igg l).st == .active else (d.port l).up

/-- A service operation begins at its commit epoch (R523, R126, R331): a plane, stack or bank in service is taken out as its loss
would take it, without a fault message, and the domain concerned is switched on. -/
def Dev.svcBegin (d : Dev) (m : Mode) (p : Profile) : Dev :=
  match d.ctl.svc with
  | some v =>
    if v.begun then d
    else
      let d := d.onCtl fun c => { c with svc := some { v with begun := true, t6 := d.clk.t6 } }
      match v.op with
      | 2 =>
        let d := if d.fab.planes.getD v.inst false then (d.planeOut v.inst none).setRedundancy m (32 + v.inst) else d
        d.powerOn (72 + v.inst)
      | 3 =>
        let d := if d.bas.stack.getD v.inst .lost = .inService then (d.stackOut p v.inst none).setRedundancy m (34 + v.inst) else d
        (d.onBas fun b => { b with stack := b.stack.set v.inst .returning }).powerOn (78 + v.inst)
      | 4 =>
        let d := if d.art.up.getD v.inst false then (d.artOut v.inst false).setRedundancy m (36 + v.inst) else d
        d.powerOn (74 + v.inst)
      | 6 => (d.powerOn v.inst).tileStart m v.inst
      | _ => d
  | none => d

/-- Commits that wait for an ART bank act at the first commit epoch at least 2 µs after it returns (R88). -/
def Dev.wakeCommits (d : Dev) : Dev :=
  if d.art.up.all id then
    d.onConf fun c => { c with staged := c.staged.map fun e =>
      if e.2.waits then (e.1, { e.2 with waits := false, armed := some (epochAfter d.now) }) else e }
  else d

/-- What a commit epoch does for the operation in progress: a removal requests its pattern change once the tile's work has ended, an
addition once a link is active (Table CELL-8, R126), and a plane or bank that passed its test returns (R122, R88). -/
def Dev.svcEpoch (d : Dev) : Dev :=
  match d.ctl.svc with
  | some v =>
    let next (d : Dev) (n : Nat) : Dev := d.onCtl fun c => { c with svc := c.svc.map fun v => { v with step := n } }
    if ! v.begun then d
    else if v.op = 5 ∧ v.step = 1 ∧ ! d.tileWork v.inst ∧ d.fab.repat.isNone then
      (next d 2).onFab fun f => { f with repat := some { tiles := [v.inst], join := false, t6 := d.clk.t6 } }
    else if v.op = 6 ∧ v.step = 1 ∧ d.tileActive v.inst ∧ ! d.tileIn v.inst ∧ d.fab.repat.isNone then
      (next d 2).onFab fun f => { f with repat := some { tiles := [v.inst], join := true, t6 := d.clk.t6 } }
    else if v.op = 2 ∧ v.step = 3 then (next d 4).onFab fun f => { f with planes := f.planes.set v.inst true }
    else if v.op = 4 ∧ v.step = 3 then ((next d 4).onArt fun a => { a with up := a.up.set v.inst true }).wakeCommits
    else d
  | none => d

/-- An operation has ended: in Service at the next commit epoch (R39), in Configure and Diagnostic at once (R299). A failure is a
contained fault. -/
def Dev.svcFinish (d : Dev) (m : Mode) (ok : Bool) : Dev :=
  if m = .service then d.serviceEnds ok
  else match d.ctl.svc with
    | some v =>
      let d := d.onCtl fun c => { c with svc := none }
      if ok then d else d.sendFault 10 d.mgmt.active 3 1 0x3F v.op
    | none => d

/-! ### Hot-plug procedures -/

/-- The head of the hot-plug queue is changed. -/
def Dev.onHot (d : Dev) (f : Hot → Hot) : Dev :=
  d.onCxl fun c => { c with hot := match c.hot with
    | h :: t => f h :: t
    | [] => [] }

/-- The service operation of the head's tile is still running. -/
def Dev.hotRuns (d : Dev) (t : Nat) : Bool :=
  match d.ctl.svc with
  | some v => v.hotplug && v.inst == t && v.endAt.isNone
  | none => false

/-- The service operation that the head of the queue wants next (R295, R297). -/
def Dev.hotWants (d : Dev) : Option Svc :=
  match d.cxl.hot with
  | h :: _ =>
    if ! h.add ∧ h.step = 2 ∧ d.tileIn h.tile then some { op := 5, inst := h.tile, hotplug := true }
    else if h.add ∧ h.step = 3 ∧ ! d.tileIn h.tile then some { op := 6, inst := h.tile, hotplug := true }
    else none
  | [] => none

/-- A wanted operation starts (R299): with a mode change into Service from a Run profile or Degraded, without one in Configure and
Diagnostic. In Service it waits for the operation in progress. -/
def Dev.hotService (d : Dev) (m : Mode) (v : Svc) : Dev :=
  if d.ctl.svc.isSome || d.transition then d
  else if m.isRun || m == .degraded then
    d.onCtl fun c => { c with svc := some v, pend := some { target := .service, epoch := epochAfter d.now } }
  else if m == .configure || m == .diagnostic then d.onCtl fun c => { c with svc := some v }
  else d

/-- The head of the queue ends; its command completes. -/
def Dev.hotEnd (d : Dev) (h : Hot) (st : Status) : Dev :=
  (d.onCxl fun c => { c with hot := c.hot.drop 1 }).finLong? h.long st []

/-- A hot-add fails (R297): the slot powers off, PERST_N is low, a contained fault is logged and the operation ends. -/
def Dev.hotFail (d : Dev) (h : Hot) : Dev :=
  let d := (d.chanOff h.tile).perstLow h.tile
  let d := d.onCxl fun c => { c with addHold := c.addHold.filter fun t => decide (t ≠ h.tile) }
  let d := d.sendFault 8 (4 * h.tile) 3 1 ((d.owner (4 * h.tile) 0xFF).getD 0x3F) 0
  (d.onCxl fun c => { c with hot := c.hot.filter fun x => decide (x ≠ h) }).finLong? h.long .aborted []

/-- A hot-add of a tile that is not in the pattern fails at this moment, with the service operation that it runs. -/
def Dev.addFails (d : Dev) (m : Mode) (h : Hot) : Dev :=
  let d := if d.hotRuns h.tile then (d.svcFinish m false).fence h.tile 2 else d
  (d.onFab fun f => { f with repat := f.repat.filter fun r => ! (r.join && r.tiles == [h.tile]) }).hotFail h

/-- One step of the head of the queue, where its condition holds (R295–R297). -/
def Dev.hotStep (d : Dev) (m : Mode) : Dev :=
  match d.cxl.hot with
  | [] => d
  | h :: _ =>
    let t := h.tile
    let goto (d : Dev) (n : Nat) : Dev := d.onHot fun h => { h with step := n, t6 := d.clk.t6 }
    if h.add then
      match h.step with
      | 0 => goto (d.chanOn t) 1
      | 1 => if (d.chan t).pg ∧ d.pwr.perst.contains t then goto d 2 else d
      | 2 => if d.tileActive t then goto d 3 else d
      | _ =>
        if d.tileIn t ∧ ! d.hotRuns t then
          let d := (d.slotVppbs t).foldl (fun d x => d.report 4 x) d
          (d.count 0x0C0 t).hotEnd h .success
        else match d.hotWants with
          | some v => d.hotService m v
          | none => d
    else
      match h.step with
      | 0 =>
        let d := d.onCxl fun c => { c with addHold := c.addHold.filter fun x => decide (x ≠ t) }
        if h.surprise then goto d 2 else goto ((d.slotVppbs t).foldl (fun d x => d.report 1 x) d) 1
      | 1 => if d.powersOff t then goto d 2 else d
      | 2 =>
        if ! d.tileIn t ∧ ! d.hotRuns t then goto (d.perstLow t) 3
        else match d.hotWants with
          | some v => d.hotService m v
          | none => d
      | _ => d

/-- The queue advances as far as it can; operations run one at a time (R298). -/
def Dev.hotRun (m : Mode) : Nat → Dev → Dev
  | 0, d => d
  | n + 1, d => Dev.hotRun m n (d.hotStep m)

/-- The queue advances after an event. -/
def Dev.hotNext (d : Dev) (m : Mode) : Dev := Dev.hotRun m 8 d

/-- A hot-plug operation joins the queue. -/
def Dev.hotQueue (d : Dev) (m : Mode) (h : Hot) : Dev := (d.onCxl fun c => { c with hot := c.hot ++ [h] }).hotNext m

/-- An operation of a kind is queued or running for a tile. -/
def Dev.hotHas (d : Dev) (t : Nat) (add : Bool) : Bool := d.cxl.hot.any fun h => h.tile == t && h.add == add

/-! ### Loss of a CXL link -/

/-- A CXL link leaves L0 (R296, R346, R284, R462): its work ends, a claim held through its view ends, an unbind that waited for the
host's link acts, and the registers that its host wrote are reset (PRESUMED, PCIe Base 7.0), or the vPPBs bound to it show Data
Link Layer State Changed. Bindings are kept. -/
def Dev.cxlDown (d : Dev) (p : Profile) (l : Nat) : Dev :=
  let q := d.port l
  if ! q.up then d
  else
    let d := d.linkLost l
    let d := (d.cxl.ide.getD l {}).longs.foldl (fun d k => d.finLong k .aborted []) d
    let d := d.onCxl fun c => { c with
      ide := c.ide.erase l
      port := c.port.set l { q with up := false, ltssm := 0, rate := 0xFF, width := 0, full := 0, role := if q.role = 1 then 1 else 0 } }
    let d := d.unstall p l
    if q.role = 1 then
      let d := match d.owner l 0xFF with
        | some r => d.onMbx (.reach r) fun x => if x.claim = some l then x.unclaim else x
        | none => d
      let d := (d.cxl.order.filter fun x => decide (x.1 = l) && decide ((d.vppb x).wait = some 0)).foldl Dev.unbindNow d
      d.onCxl fun c => { c with space := c.space.filter fun e => decide (e.1.1 ≠ l) }
    else (d.linkVppbs l).foldl (fun d x => d.report 4 x) d

/-- A link of either kind goes down with its tile. -/
def Dev.anyDown (d : Dev) (p : Profile) (l : Nat) : Dev :=
  if d.isIggevo l then (if (d.igg l).st = .active ∨ (d.igg l).resume then d.igDown p l else d) else d.cxlDown p l

/-- A surprise removal starts (R296): work that waits on the tile's links ends, every bound vPPB reports it, and it is logged. A managed
removal of the slot that is queued or running becomes it (R298). -/
def Dev.surprise (d : Dev) (m : Mode) (p : Profile) (t : Nat) : Dev :=
  let d := (d.tileLinks t).foldl (fun d l => d.anyDown p l) d
  let d := (d.slotVppbs t).foldl Dev.seesSurprise d
  let r := (d.owner (4 * t) 0xFF).getD 0x3F
  let d := (d.sendFault 8 (4 * t) 2 1 r 0).count 0x0C2 t r
  if d.hotHas t false then
    (d.onCxl fun c => { c with hot := c.hot.map fun h =>
      if h.tile = t ∧ ! h.add then { h with surprise := true, step := if h.step = 1 then 2 else h.step } else h }).hotNext m
  else d.hotQueue m { tile := t, add := false, surprise := true }

/-- A CXL link goes down; with every link of its tile down while presence reads absent, a surprise removal starts (R296). -/
def execCxlLinkDown (dt link : Nat) (s : State) : Host.Outcome State Fault Refusal :=
  event dt s fun m p d =>
    let t := link / 4
    if ! d.isCxl link ∨ ! (d.port link).up then d
    else
      let d := d.cxlDown p link
      if ! d.inserted t ∧ ! d.tileActive t ∧ d.tileIn t ∧ ! d.cxl.hot.any (fun h => h.tile == t && h.surprise) then d.surprise m p t else d

/-! ### Presence and buttons (R484) -/

/-- A debounced input row acts in the modes in which the chain is scanned (R483). -/
def inputRow (dt : Nat) (s : State) (k n : Nat) (v : Bool) (g : Mode → Profile → Dev → Dev) : Host.Outcome State Fault Refusal :=
  event dt s fun m p d => if m.adminServed ∧ k < 128 ∧ d.newInput k n = some v then g m p (d.acceptInput k) else d

/-- An insertion: the bound vPPBs show a presence change (PRESUMED, PCIe Base 7.0). -/
def execPresenceInserted (dt t : Nat) (s : State) : Host.Outcome State Fault Refusal :=
  inputRow dt s (2 * t) 16 false fun _ _ d => (d.slotVppbs t).foldl (fun d x => d.report 2 x) d

/-- A loss of presence (R296–R299): in Safe the slot powers off at once; an add of the slot fails; otherwise a surprise removal starts,
unless the slot holds nothing in service and is not powered. -/
def execPresenceLost (dt t : Nat) (s : State) : Host.Outcome State Fault Refusal :=
  inputRow dt s (2 * t) 4 true fun m p d =>
    if m = .safe then (d.chanOff t).perstLow t
    else
      match d.cxl.hot.find? fun h => h.tile == t && h.add with
      | some h =>
        if d.tileIn t then d.surprise m p t else ((d.slotVppbs t).foldl (fun d x => d.report 2 x) (d.addFails m h)).hotNext m
      | none =>
        if d.tileIn t ∨ (d.chan t).st ≠ .off then d.surprise m p t else (d.slotVppbs t).foldl (fun d x => d.report 2 x) d

/-- A button press starts a managed removal (R295), unless the same scan shows a loss of presence of the slot (R484), one runs already,
or the device is in Safe (R299). -/
def execAttentionButtonPressed (dt t : Nat) (s : State) : Host.Outcome State Fault Refusal :=
  inputRow dt s (2 * t + 1) 16 false fun m _ d =>
    let lost : Bool := d.newInput (2 * t) 4 == some true || (! d.inserted t && d.side.run.getD (2 * t) 0 == 4)
    if m = .safe || lost || d.hotHas t false then d else d.hotQueue m { tile := t, add := false }

def execAttentionButtonReleased (dt t : Nat) (s : State) : Host.Outcome State Fault Refusal :=
  inputRow dt s (2 * t + 1) 16 true fun _ _ d => d

/-! ### Steps of the procedures -/

/-- PERST_N is released 100 ms after the slot's power-good (R460, R297). -/
def execPerstRelease (dt t : Nat) (s : State) : Host.Outcome State Fault Refusal :=
  event dt s fun m _ d =>
    if (d.chan t).pg ∧ d.since (d.chan t).pgT ≥ 100 * ms6 ∧ ! d.pwr.perst.contains t
        ∧ ! d.cxl.hot.any (fun h => h.tile == t && ! h.add && h.step == 3) then
      (d.onPwr fun w => { w with perst := w.perst ++ [t] }).hotNext m
    else d

/-- The slot of a removal turns off 100 µs after PERST_N went low (R295, steps 3 and 4). -/
def execSlotPowerOff (dt t : Nat) (s : State) : Host.Outcome State Fault Refusal :=
  event dt s fun m _ d =>
    match d.cxl.hot with
    | h :: _ =>
      if h.tile = t ∧ ! h.add ∧ h.step = 3 ∧ d.since h.t6 ≥ 100 * us6 then
        let d := (d.slotVppbs t).foldl (fun d x => (d.report 8 x).onVppb x fun v => { v with pind := 3 }) (d.chanOff t)
        let d := d.indicate t 0 3
        let d := if h.surprise then d else d.count 0x0C0 t
        (d.hotEnd h .success).hotNext m
      else d
    | [] => d

/-- remove_timeout expires (R295, R284): a managed removal goes ahead, and a vPPB whose power control is still on sees a surprise
removal; an unbind of mode 1 acts. -/
def execRemoveTimeout (dt t : Nat) (s : State) : Host.Outcome State Fault Refusal :=
  event dt s fun m _ d =>
    let limit (x : Nat × Nat) : Nat := match d.binding x.1 x.2 with
      | some b => d.removeTime b.link
      | none => 0
    let due := (d.slotVppbs t).filter fun x => decide ((d.vppb x).wait = some 1) && decide (d.since (d.vppb x).waitT ≥ limit x)
    let e := due.foldl (fun d x => (d.seesSurprise x).unbindNow x) d
    match d.cxl.hot with
    | h :: _ =>
      let on := (d.slotVppbs t).filter fun x => (d.vppb x).power
      if h.tile = t ∧ ! h.add ∧ h.step = 1 ∧ ! on.isEmpty ∧ (on.all fun x => decide (d.since h.t6 ≥ limit x)) then
        let d := (on.foldl Dev.seesSurprise e).count 0x0C1 t
        (d.onHot fun h => { h with step := 2 }).hotNext m
      else e
    | [] => e

/-- A hot-add fails (R297): its channel latched off, gave no power-good within 8 s, or no link trained within 1 s of PERST_N going high. In
Diagnostic the links of an added slot do not train (R299). -/
def execHotplugAddFailed (dt t : Nat) (s : State) : Host.Outcome State Fault Refusal :=
  event dt s fun m _ d =>
    match d.cxl.hot with
    | h :: _ =>
      if h.tile = t ∧ h.add ∧ ((d.chan t).st = .latched ∨ (h.step = 1 ∧ ! (d.chan t).pg ∧ d.since h.t6 ≥ 8 * s6)
          ∨ (h.step = 2 ∧ m ≠ .diagnostic ∧ d.since h.t6 ≥ s6)) ∧ ! d.tileIn t then
        (d.addFails m h).hotNext m
      else d
    | [] => d

/-- A host writes a power control (R294, R295, R297, R284): on, it may start a hot-add; off, it may let a removal or an unbind go on, or
with every control off and no add in force start a removal. In Safe it starts nothing (R299). -/
def Dev.powerControl (d : Dev) (m : Mode) (x : Nat × Nat) (on : Bool) : Dev :=
  let was := (d.vppb x).power
  let d := d.onVppb x fun v => { v with power := on }
  match d.binding x.1 x.2 with
  | some b =>
    let t := b.link / 4
    if m = .safe then d
    else if on then
      if ! was ∧ ! d.hotHas t true ∧ ! ((d.chan t).st = .on ∧ d.tileIn t) then d.hotQueue m { tile := t, add := true } else d
    else if (d.vppb x).wait = some 1 then (d.unbindNow x).hotNext m
    else if was ∧ d.powersOff t ∧ ! d.hotHas t false ∧ ! d.cxl.addHold.contains t ∧ (d.chan t).st ≠ .off then
      d.hotQueue m { tile := t, add := false, step := 1, t6 := d.clk.t6 }
    else d.hotNext m
  | none => d

def execHostPowerControlWrite (dt vcs vppb : Nat) (on : Bool) (s : State) : Host.Outcome State Fault Refusal :=
  event dt s fun m _ d => if d.vcsUp vcs ∧ vppb ≤ 30 then d.powerControl m (vcs, vppb) on else d

/-- A service operation completes or fails (R39, R122, R126, R148, R298, R528). A removal ends when the pattern excludes its tile, and
cannot fail (R125); an addition succeeds when the pattern includes it, and one that fails is fenced again; a returned stack has its
Basin memory zeroed. -/
def execServiceOpComplete (dt : Nat) (ok : Bool) (s : State) : Host.Outcome State Fault Refusal :=
  memEvent dt s fun m _ d mem =>
    match d.ctl.svc with
    | some v =>
      let fits : Bool := match v.op with
        | 2 | 3 | 4 => v.step == 1
        | 5 => ok && ! d.tileIn v.inst
        | 6 => if ok then d.tileIn v.inst else ! d.tileIn v.inst
        | _ => false
      if ! v.begun || v.endAt.isSome || ! fits then (d, mem)
      else
        let d := d.onCtl fun c => { c with svc := some { v with step := if ok then 3 else v.step } }
        match v.op with
        | 3 =>
          let (k0, k1) := d.basinK
          let off := if v.inst = 0 then 0 else k0 * gib
          let n := (if v.inst = 0 then k0 else k1) * gib
          let d := d.onBas fun b => { b with stack := b.stack.set v.inst (if ok then .inService else .lost) }
          ((d.svcFinish m ok).hotNext m, if ok then mem.clear off n else mem)
        | 6 =>
          let d := if ok then d else
            (d.onFab fun f => { f with repat := f.repat.filter fun r => ! (r.join && r.tiles == [v.inst]) }).fence v.inst 2
          let d := d.svcFinish m ok
          let d := if ok || ! v.hotplug then d else match d.cxl.hot with
            | h :: _ => d.hotFail h
            | [] => d
          (d.hotNext m, mem)
        | _ => ((d.svcFinish m ok).hotNext m, mem)
    | none => (d, mem)

end Sys2Proof.Machine
end

