-- ==== Sys2Proof/Machine/Ports.lean ====
section
/-! DEFINITION. CXL ports and virtual switches (chapter 12): training, IDE (R300–R303), configuration requests (R286, R287, R294), and
the commands of Table CXLP-8. -/

namespace Sys2Proof.Machine

/-! ### Training and IDE -/

/-- The role that the configuration gives a link (R279). -/
def Dev.cfgRole (d : Dev) (l : Nat) : Nat := byteAt (d.portCfg l) 2

/-- The IDE policy of a link: 0 off, 1 preferred, 2 required; in Run-Secure every active link is Required (R301). -/
def Dev.idePolicy (d : Dev) (p : Profile) (l : Nat) : Nat := if p.isSecure then 2 else bits (byteAt (d.portCfg l) 3) 2 1

/-- The IDE stream pair of a link. -/
def Dev.ide (d : Dev) (l : Nat) : Ide := d.cxl.ide.getD l {}

/-- The device with one IDE stream pair changed. -/
def Dev.onIde (d : Dev) (l : Nat) (f : Ide → Ide) : Dev := d.onCxl fun c => { c with ide := c.ide.upd l {} f }

/-- The device with one CXL link changed. -/
def Dev.onPort (d : Dev) (l : Nat) (f : Port → Port) : Dev := d.onCxl fun c => { c with port := c.port.upd l {} f }

/-- IDE set-up begins on an active link that has none (R301, R37): on a downstream link whose partner supports it the device asks for
it; where it is Required the link is fenced until it is established. -/
def Dev.ideStart (d : Dev) (p : Profile) (l : Nat) : Dev :=
  let q := d.port l
  let d := if q.role = 2 ∧ d.idePolicy p l ≥ 1 ∧ q.partnerIde ∧ (d.ide l).cxl ≠ 2 then d.onIde l fun i => { i with cxl := 1, io := 1 } else d
  if d.idePolicy p l = 2 ∧ (d.ide l).cxl ≠ 2 then d.fenceLink l else d

/-- A substitution that was asked to end does so at the next retrain (LANE_SPARE_SET). -/
def Dev.spareEnds (d : Dev) (t : Nat) : Dev :=
  let g := d.igg (4 * t)
  if g.endSub then
    let d := (List.range 8).foldl (fun d n => d.onLane t n fun x => { x with spared := false }) d
    (d.finLong? g.subLong .success []).onIg (4 * t) fun g => { g with endSub := false, subLong := none }
  else d

/-- A CXL link reaches L0 (R254, R279, R280): at bring-up with the role and manager attribute configured, or at the end of a Recovery
(R256, R268). A disabled link does not train, none trains above the rate that its lanes are configured for, and an MLD is accepted only
on a downstream link. -/
def execCxlLinkTrained (dt link : Nat) (tr : Trained) (s : State) : Host.Outcome State Fault Refusal :=
  event dt s fun m p d =>
    let q := d.port link
    let t := link / 4
    if ! d.isCxl link ∨ ! m.trains ∨ d.pinsOut ∨ d.domOff t ∨ tr.rate > d.maxRate link ∨ ! [1, 2, 4, 8].contains tr.width ∨ tr.width > (d.laneRange link).2
        ∨ (tr.rate > 4 ∧ ! tr.flit256) then d
    else if q.up then
      if q.ltssm ≠ ltRecovery then d
      else
        let d := (d.cxlWidth link tr.width).onPort link fun q => { q with ltssm := ltL0, full := tr.width, rate := tr.rate }
        (d.spareEnds t).unstall p link
    else
      let role := d.cfgRole link
      if role = 0 ∨ (role = 1 ∧ tr.lds > 1) then d
      else
        let (lo, n) := d.laneRange link
        let d := (List.range n).foldl (fun d k => d.onLane t (lo + k) fun x => { x with
          st := if k < tr.width then 0 else x.st, lol := false, rev := tr.reversed, rate := tr.rate }) d
        let d := d.onPort link fun q => { q with
          up := true, role := role, mgr := role == 1 && (byteAt (d.portCfg link) 3).testBit 0, ltssm := ltL0, rate := tr.rate
          width := tr.width, full := tr.width, flit256 := tr.flit256, devType := tr.devType, lds := tr.lds, hdmdb := tr.hdmdb
          cacheDev := tr.cacheDev, partnerIde := tr.ide }
        let d := d.onWeir fun w => { w with calU := w.calU.erase link }
        let d := ((d.spareEnds t).ideStart p link).unstall p link
        let d := if role = 2 ∧ d.tileIn t then (d.linkVppbs link).foldl (fun d x => d.report 4 x) d else d
        d.hotNext m

/-- IDE is established on a link, which unfences it (R37, R301), or a key refresh switches its key set (R302). Keys need the DRBG, and a
module in its error state makes none. Where the policy is Off no stream is set up. -/
def execIdeEstablished (dt link : Nat) (s : State) : Host.Outcome State Fault Refusal :=
  event dt s fun _ p d =>
    let q := d.port link
    let i := d.ide link
    if ! d.isCxl link ∨ ! q.up ∨ ! q.partnerIde ∨ ! d.sec.seeded ∨ d.sec.errState ∨ (i.cxl ≠ 2 ∧ d.idePolicy p link = 0) then d
    else if i.cxl = 2 then
      if i.busy.isSome ∨ q.role = 1 then
        let d := i.longs.foldl (fun d k => d.finLong k .success []) d
        (d.onIde link fun i => { i with
          set := 1 - i.set, time := d.now, t6 := d.clk.t6, busy := none, retry := none, longs := [] }).count 0x121 (link / 4) 0x3F link
      else d
    else
      let d := d.onIde link fun i => { i with cxl := 2, io := 2, set := 0, t6 := d.clk.t6, busy := none, retry := none }
      d.onPort link fun q => { q with fenced := false }

/-- The refresh period of a downstream stream expires, or a failed refresh is retried after 1 minute (R302). -/
def execIdeRefreshDue (dt link : Nat) (s : State) : Host.Outcome State Fault Refusal :=
  event dt s fun _ _ d =>
    let i := d.ide link
    let due : Bool := match i.retry with
      | some t => decide (d.since t ≥ 60 * s6)
      | none => decide (d.since i.t6 ≥ leN (d.portCfg link) 4 2 * 60 * s6)
    if d.isCxl link ∧ (d.port link).role = 2 ∧ i.cxl = 2 ∧ i.busy.isNone ∧ due ∧ d.sec.seeded then
      d.onIde link fun i => { i with busy := some d.clk.t6, retry := none }
    else d

/-- A refresh has not completed within 1 s: the old keys stay in use, and it is retried (R302). -/
def execIdeRefreshFailed (dt link : Nat) (s : State) : Host.Outcome State Fault Refusal :=
  event dt s fun _ _ d =>
    let i := d.ide link
    match i.busy with
    | some t =>
      if d.isCxl link ∧ d.since t ≥ s6 then
        let d := i.longs.foldl (fun d k => d.finLong k .aborted []) d
        (d.onIde link fun i => { i with busy := none, retry := some d.clk.t6, longs := [] }).count 0x0E1 (link / 4)
          ((d.owner link 0xFF).getD 0x3F) link
      else d
    | none => d

/-! ### Configuration requests -/

/-- A configuration request completes toward its link: status 0, or 1 for Unsupported Request. -/
def Dev.cfgDone (d : Dev) (l status data : Nat) : Dev := d.onCxl fun c => { c with cfgOut := some (l, status, data % 2 ^ 32) }

/-- The dword offset of a register of the PCIe Capability. -/
def pcieReg (o : Nat) : Nat := 4 * Sys2Proof.Config.pcieCap.toNat + o

/-- What a configuration dword of the upstream port, function 1, a vPPB or the Basin LD reads (R287, R294). Identity and class are those of
Table CXLP-4, link status the link's, slot registers those of R294; the header registers that hold the bridge windows read as
written; the rest is as PCIe Base 7.0 and CXL 3.2 give it. -/
def Dev.cfgRead (d : Dev) (v fn off : Nat) : Nat :=
  let raw := d.cfgDword v fn off
  let std := (Sys2Proof.Config.standardConfig fn off raw).toNat
  let k := fn - 16
  let link : Option Nat := if fn = 0 then some v else if fn < 16 then none else (d.binding v k).map (·.link)
  let isPpb : Bool := fn == 0 || (decide (16 ≤ fn) && decide (fn < 48))
  if off = 0 ∧ isPpb then 0x64104F58
  else if off = 0 ∧ fn = 48 then 0x64114F58
  else if off = 8 ∧ isPpb then 0x060400B0
  else if off = 8 ∧ fn = 48 then 0x050210B0
  else if isPpb ∧ [0x18, 0x20, 0x24, 0x28, 0x2C].contains off = true then raw
  else if isPpb ∧ off = pcieReg 0x10 then
    match link with
    | some l =>
      let q := d.port l
      std % 2 ^ 16 + 2 ^ 16 * (if q.up then (q.rate + 1) + 2 ^ 4 * q.width + 2 ^ 13 * b2n (fn ≠ 0) else 0)
    | none => std
  else if 16 ≤ fn ∧ fn < 48 ∧ off = pcieReg 0x14 then
    match link with
    | some l => 0x5B + bits std 16 7 * 2 ^ 7 + (l / 4 + 1) * 2 ^ 19
    | none => std
  else if 16 ≤ fn ∧ fn < 48 ∧ off = pcieReg 0x18 then
    let x := d.vppb (v, k)
    let present : Bool := match link with
      | some l => d.inserted (l / 4)
      | none => false
    bits std 5 0 + 2 ^ 6 * x.attn + 2 ^ 8 * x.pind + 2 ^ 10 * b2n (! x.power) + bits std 15 11 * 2 ^ 11
      + 2 ^ 16 * (x.slot % 2) + 2 ^ 19 * b2n (x.slot.testBit 1) + 2 ^ 20 * b2n (x.slot.testBit 3) + 2 ^ 22 * b2n present
      + 2 ^ 24 * b2n (x.slot.testBit 2)
  else std

/-- A host writes a slot's controls (R294): indicators, the power control, and the slot status bits that it clears by writing 1. -/
def Dev.slotWrite (d : Dev) (m : Mode) (x : Nat × Nat) (w : Nat) : Dev :=
  let gone := b2n (w.testBit 16) + 2 * b2n (w.testBit 19) + 8 * b2n (w.testBit 20) + 4 * b2n (w.testBit 24)
  let a := if bits w 7 6 = 0 then (d.vppb x).attn else bits w 7 6
  let i := if bits w 9 8 = 0 then (d.vppb x).pind else bits w 9 8
  let d := d.onVppb x fun v => { v with slot := maskOff v.slot gone 4, attn := a, pind := i }
  let d := match d.binding x.1 x.2 with
    | some b => (d.indicate (b.link / 4) 0 i).indicate (b.link / 4) 1 a
    | none => d
  d.powerControl m x (! w.testBit 10)

/-- An access to a configuration dword that the tile serves. -/
def Dev.cfgServe (d : Dev) (m : Mode) (v fn off : Nat) (wr : Option Nat) : Dev :=
  match wr with
  | none => d.cfgDone v 0 (d.cfgRead v fn off)
  | some w =>
    let d := d.onCxl fun c => { c with space := c.space.set (v, fn, off) (w % 2 ^ 32) }
    let d := if 16 ≤ fn ∧ fn < 48 ∧ off = pcieReg 0x18 then d.slotWrite m (v, fn - 16) w else d
    d.cfgDone v 0 0

/-- The Reach has a GiB of Basin memory bound, and vPPB 31 the Basin LD (R281). -/
def Dev.basinLd (d : Dev) (r : Nat) : Bool := (List.range 24).any fun g => d.gibOwner false r g == some r

/-- A configuration request on an upstream link (R283, R285, R286): served in the tile, forwarded to the bound link with the LD-ID of
the binding, or for a sharer of an LD answered from its copy. Below a vPPB with nothing bound, or whose link is down, it completes
with Unsupported Request (PRESUMED, PCIe Base 7.0). -/
def execConfigRequest (dt link : Nat) (fn : CfgFn) (off : Nat) (wr : Option Nat) (s : State) : Host.Outcome State Fault Refusal :=
  event dt s fun m _ d =>
    let off := off % 4096 / 4 * 4
    let unsupported := d.cfgDone link 1 (2 ^ 32 - 1)
    if ! d.vcsUp link ∨ ! (d.port link).up then d
    else match fn with
      | .upstream => d.cfgServe m link 0 off wr
      | .cci => d.cfgServe m link 1 off wr
      | .vppb k => if k < 32 then d.cfgServe m link (16 + k) off wr else unsupported
      | .below 31 =>
        match d.owner link 0xFF with
        | some r => if d.basinLd r then d.cfgServe m link 48 off wr else unsupported
        | none => unsupported
      | .below k =>
        match d.binding link k with
        | some b =>
          let ld := if b.ld = 0xFF then 0 else b.ld
          if ! d.reachable b.link then unsupported
          else if b.shared ∧ ((d.bindsOf b.link ld).head?.map fun y => (y.1, y.2.1)) ≠ some (link, k) then
            let key := (link, 64 + k, off)
            match wr with
            | some w => (d.onCxl fun c => { c with space := c.space.set key (w % 2 ^ 32) }).cfgDone link 0 0
            | none => d.cfgDone link 0 ((d.cxl.space.get? key).getD
                (Sys2Proof.Config.deviceConfig (d.vppb (link, k)).gen b.link ld off).toNat)
          else
            let d := d.onCxl fun c => { c with fwd := some (b.link, ld, nb 1 (b2n wr.isSome) ++ nb 2 off ++ nb 4 (wr.getD 0)) }
            match wr with
            | some _ => d.cfgDone link 0 0
            | none =>
              let (x, d) := d.drawNat (2 ^ 32)
              d.cfgDone link 0 x
        | none => unsupported

/-! ### Commands -/

/-- The link number at an offset names a CXL link (R14, R279). -/
def cxlAt (o : Nat) : Check := need o fun c => c.d.isCxl (c.u16 o)

/-- The sum of R132 with staged thresholds. -/
def Dev.thresholdSum (d : Dev) : Nat := (d.links.map fun l => ((List.range 5).map fun k => d.queueT true l (k + 3)).sum).sum

/-- A tile takes a configuration (R278): its former links are gone, and its Iggevo link starts. -/
def Dev.tileConfig (d : Dev) (m : Mode) (t code : Nat) : Dev :=
  let d := d.onCxl fun c => { c with tileCfg := c.tileCfg.set t code, port := c.port.filter (fun e => decide (e.1 / 4 ≠ t))
                                     ide := c.ide.filter (fun e => decide (e.1 / 4 ≠ t)) }
  let d : Dev := { d with ig := d.ig.erase (4 * t) }
  let d := d.onPhy fun x => { x with lane := x.lane.filter (fun e => decide (e.1.1 ≠ t)) }
  d.tileStart m t

/-- TILE_CONFIG_SET (R15, R278). -/
def cmdTileConfigSet : Cmd where
  op := 0x3020
  len := 4
  src := Src.admin
  fields := [atMost 0 63, atMost 1 3, rsvd 2 2]
  state := [require .busy fun c => ! c.d.tileIn (c.u8 0),
            require .resourceExhausted fun c =>
              decide ((c.d.onCxl fun x => { x with tileCfg := x.tileCfg.set (c.u8 0) (c.u8 1) }).thresholdSum ≤ 786432)]
  body := changes fun c =>
    let t := c.u8 0
    let d := (c.d.tileLinks t).foldl (fun d l => d.anyDown c.p l) c.d
    d.tileConfig c.m t (c.u8 1)

def execTileConfigSet (dt : Nat) (f : Frame) (s : State) : Host.Outcome State Fault Refusal :=
  bilod cmdTileConfigSet dt f s

/-- PORT_CONFIG_SET (R279, R280, R295, R301, R302). -/
def cmdPortConfigSet : Cmd where
  op := 0x3021
  len := 8
  src := Src.admin
  fields := [cxlAt 0, atMost 2 2,
    need 3 fun c => decide (c.u8 3 < 8) && decide (bits (c.u8 3) 2 1 ≠ 3) && (! (c.u8 3).testBit 0 || c.u8 2 == 1),
    need 4 fun c => decide (1 ≤ c.u16 4) && decide (c.u16 4 ≤ 10080),
    need 6 fun c => decide (1 ≤ c.u16 6) && decide (c.u16 6 ≤ 600)]
  state := stageChecks (fun _ => devSet) false fun _ => 1
  body := stages (fun _ => devSet) fun c => [({ op := 0x3021, a := c.u16 0 }, some (fit 8 c.f.payload))]

def execPortConfigSet (dt : Nat) (f : Frame) (s : State) : Host.Outcome State Fault Refusal :=
  bilod cmdPortConfigSet dt f s

/-- PORT_STATUS_GET. A link that is down shows the role configured, no rate, no width and no device. -/
def cmdPortStatusGet : Cmd where
  op := 0x3022
  len := 4
  src := Src.watch
  fields := [linkAt 0, ownLinkAt 0, rsvd 2 2]
  body := reads fun c =>
    let l := c.u16 0
    let t := l / 4
    let q := c.d.port l
    let g := c.d.igg l
    let slot := 2 * b2n (c.d.inserted t) + 4 * b2n (c.d.chan t).pg
    if c.d.isIggevo l then
      let on : Bool := g.st == .active
      nb 1 0 ++ nb 1 0 ++ nb 1 (if on then 7 else 0xFF) ++ nb 1 (if on then popcount g.txMask else 0) ++ nb 1 0 ++ nb 1 0 ++ nb 1 slot ++ zeros 1
    else
      nb 1 (if q.up then q.role else c.d.cfgRole l) ++ nb 1 q.ltssm ++ nb 1 (if q.up then q.rate else 0xFF) ++ nb 1 q.width
        ++ nb 1 (if q.up then q.devType else 0) ++ nb 1 (if q.up then q.lds else 0) ++ nb 1 (b2n q.fenced + slot) ++ zeros 1

def execPortStatusGet (dt : Nat) (f : Frame) (s : State) : Host.Outcome State Fault Refusal :=
  bilod cmdPortStatusGet dt f s

/-- HOTPLUG_REQUEST (R295, R297, R298, R299). An add for a slot already powered and in service has no effect. -/
def cmdHotplugRequest : Cmd where
  op := 0x3023
  len := 4
  src := Src.operator
  mode := fun m => m != .safe
  long := true
  fields := [atMost 0 63, need 1 fun c => c.u8 1 == 1 || c.u8 1 == 2, rsvd 2 2]
  body := fun c =>
    let t := c.u8 0
    let k := some (c.f.mbx, c.f.tag)
    if c.u8 1 = 1 then (c.d.hotQueue c.m { tile := t, add := false, long := k }, .started [])
    else if (c.d.chan t).st = .on ∧ c.d.tileIn t then (c.d, .ended .success [])
    else
      let d := c.d.onCxl fun x => { x with addHold := if x.addHold.contains t then x.addHold else x.addHold ++ [t] }
      (d.hotQueue c.m { tile := t, add := true, long := k }, .started [])

def execHotplugRequest (dt : Nat) (f : Frame) (s : State) : Host.Outcome State Fault Refusal :=
  bilod cmdHotplugRequest dt f s

/-- IDE_KEY_REFRESH (R302). -/
def cmdIdeKeyRefresh : Cmd where
  op := 0x3024
  len := 4
  src := Src.operator
  long := true
  fields := [need 0 fun c => c.d.isCxl (c.u16 0) && (c.d.port (c.u16 0)).role == 2, rsvd 2 2]
  state := [require .wrongMode fun c => (c.d.ide (c.u16 0)).cxl == 2, require .entropyPending fun c => c.d.sec.seeded]
  body := fun c =>
    (c.d.onIde (c.u16 0) fun i => { i with busy := some (i.busy.getD c.d.clk.t6), longs := i.longs ++ [(c.f.mbx, c.f.tag)] }, .started [])

def execIdeKeyRefresh (dt : Nat) (f : Frame) (s : State) : Host.Outcome State Fault Refusal :=
  bilod cmdIdeKeyRefresh dt f s

/-- IDE_STATUS_GET. -/
def cmdIdeStatusGet : Cmd where
  op := 0x3025
  len := 2
  src := Src.watch
  fields := [linkAt 0, ownLinkAt 0]
  body := reads fun c =>
    let i := c.d.ide (c.u16 0)
    nb 1 i.cxl ++ nb 1 i.io ++ nb 1 i.set ++ zeros 5 ++ nb 5 i.time

def execIdeStatusGet (dt : Nat) (f : Frame) (s : State) : Host.Outcome State Fault Refusal :=
  bilod cmdIdeStatusGet dt f s

/-- The staged set of a VCS's Reach. -/
def Ctx.vcsSet (c : Ctx) : Nat := (c.d.owner (c.u16 0) 0xFF).getD devSet

/-- A VCS at offset 0: a CXL link that belongs to a Reach. -/
def vcsAt : Check := need 0 fun c => c.d.isCxl (c.u16 0) && (c.d.owner (c.u16 0) 0xFF).isSome

/-- The binding of a vPPB in the active or staged configuration; a staged unbind of mode 0 or 1 (one byte) leaves it bound. -/
def Dev.bindIn (d : Dev) (stg : Bool) (v k : Nat) : Option Bind :=
  match d.view stg ((d.owner v 0xFF).getD devSet) { op := 0x4000, a := v, b := k } with
  | some b => if b.length = 1 then d.binding v k else some (Bind.of b)
  | none => none

/-- The bindings of a VCS in a view. -/
def Dev.bindsIn (d : Dev) (stg : Bool) (v : Nat) : List (Nat × Bind) :=
  (List.range 31).filterMap fun k => (d.bindIn stg v k).map fun b => (k, b)

/-- The links of a VCS's staged bindings, other than that of vPPB `k`, that carry a kind of device. -/
def Dev.countKind (d : Dev) (v k : Nat) (p : Port → Bool) : Nat :=
  ((d.bindsIn true v).filter fun x => decide (x.1 ≠ k) && p (d.port x.2.link)).length

/-- What is not known of a device before it has trained does not refuse a binding: a device that has trained and is not HDM-DB cannot
be shared (R283). -/
def Dev.notHdmdb (d : Dev) (l : Nat) : Bool := (d.port l).devType != 0 && ! (d.port l).hdmdb

/-- VPPB_BIND (R282, R283). -/
def cmdVppbBind : Cmd where
  op := 0x4000
  len := 10
  src := Src.operator
  fields := [vcsAt, atMost 2 30, atMost 3 1, cxlAt 4,
    need 6 fun c => (decide (c.u8 6 ≤ 15) || c.u8 6 == 0xFF) && ! (c.u8 3 == 1 && c.d.notHdmdb (c.u16 4)),
    rsvd 7 1, need 8 fun c => if c.u8 3 = 1 then decide (c.u16 8 < 1024) else c.u16 8 == 0xFFFF]
  state := require .resourceExhausted (fun c =>
      let q := c.d.port (c.u16 4)
      ! (q.cacheDev && decide (c.d.countKind (c.u16 0) (c.u8 2) (·.cacheDev) ≥ 16))
        && ! (q.hdmdb && decide (c.d.countKind (c.u16 0) (c.u8 2) (·.hdmdb) ≥ 16)))
    :: stageChecks Ctx.vcsSet false fun _ => 1
  body := stages Ctx.vcsSet fun c => [({ op := 0x4000, a := c.u16 0, b := c.u8 2 }, some (fit 10 c.f.payload))]

def execVppbBind (dt : Nat) (f : Frame) (s : State) : Host.Outcome State Fault Refusal :=
  bilod cmdVppbBind dt f s

/-- VPPB_UNBIND (R284): staged; modes 0 and 1 answer IN_PROGRESS, and their binding goes when the host's link is down or its power
control off. -/
def cmdVppbUnbind (wait : Bool) : Cmd where
  op := 0x4001
  len := 4
  src := Src.operator
  long := wait
  fields := [vcsAt, atMost 2 30, atMost 3 2]
  state := stageChecks Ctx.vcsSet false fun _ => 1
  body := fun c =>
    let d := c.d.stage c.vcsSet [({ op := 0x4000, a := c.u16 0, b := c.u8 2 }, if wait then some (nb 1 (c.u8 3)) else none)]
    if wait then
      let old := (d.vppb (c.u16 0, c.u8 2)).waitLong
      ((d.finLong? old .aborted []).onVppb (c.u16 0, c.u8 2) fun v => { v with waitLong := some (c.f.mbx, c.f.tag) }, .started [])
    else (d, .done [])

def execVppbUnbind (dt : Nat) (f : Frame) (s : State) : Host.Outcome State Fault Refusal :=
  bilod (cmdVppbUnbind (decide (byteAt f.payload 3 < 2))) dt f s

/-- One entry of VCS_GET. The manual gives no link and LD for a vPPB that is not bound and for vPPB 31, whose Basin LD lies on no
link: they are free (assumption 12). -/
def Dev.vcsEntry (d : Dev) (stg : Bool) (v k : Nat) : Bytes :=
  let free := nb 3 (Sys2Proof.Config.freeWord (d.free + k)).toNat
  if k = 31 then
    free ++ nb 1 (match d.owner v 0xFF with
      | some r => 5 * b2n ((List.range 24).any fun g => d.gibOwner stg r g == some r)
      | none => 0)
  else match d.bindIn stg v k with
    | some b =>
      let own : Bool := (if stg then ! b.shared || (d.bindsOf b.link b.ld).isEmpty else false)
        || ((d.bindsOf b.link b.ld).head?.map fun y => (y.1, y.2.1)) == some (v, k)
      nb 2 b.link ++ nb 1 b.ld ++ nb 1 (1 + 2 * b2n b.shared + 4 * b2n own)
    | none => free ++ nb 1 0

/-- VCS_GET. -/
def cmdVcsGet : Cmd where
  op := 0x4002
  len := 3
  src := Src.watch
  fields := [cxlAt 0, ownLinkAt 0, atMost 2 1]
  body := fun c =>
    let v := c.u16 0
    let stg : Bool := c.u8 2 == 1
    let mgr : Bool := if stg then (byteAt ((c.d.staged devSet { op := 0x3021, a := v }).getD []) 3).testBit 0 else (c.d.port v).mgr
    ({ c.d with free := c.d.free + 32 },
     .done (nb 1 ((c.d.owner v 0xFF).getD 0xFF) ++ nb 1 (b2n mgr) ++ zeros 2 ++ (List.range 32).flatMap (c.d.vcsEntry stg v)))

def execVcsGet (dt : Nat) (f : Frame) (s : State) : Host.Outcome State Fault Refusal :=
  bilod cmdVcsGet dt f s

/-- LD_COHERENCE_SET (R289). -/
def cmdLdCoherenceSet : Cmd where
  op := 0x4003
  len := 6
  src := Src.operator
  fields := [cxlAt 0, need 2 fun c => decide (c.u8 2 ≤ 15) || c.u8 2 == 0xFF, rsvd 3 1,
    need 4 fun c => decide (c.u16 4 < 1024) || c.u16 4 == 0xFFFF]
  state := stageChecks (fun c => (c.d.owner (c.u16 0) (c.u8 2)).getD devSet) false fun _ => 1
  body := stages (fun c => (c.d.owner (c.u16 0) (c.u8 2)).getD devSet) fun c =>
    [({ op := 0x4003, a := c.u16 0, b := c.u8 2 }, some (fit 6 c.f.payload))]

def execLdCoherenceSet (dt : Nat) (f : Frame) (s : State) : Host.Outcome State Fault Refusal :=
  bilod cmdLdCoherenceSet dt f s

/-- BI_ROUTE_SET (R291). -/
def cmdBiRouteSet : Cmd where
  op := 0x4004
  len := 6
  src := Src.operator
  fields := [iggAt 0, reachAt 2, atMost 3 2,
    need 4 fun c => match c.u8 3 with
      | 1 => c.d.isCxl (c.u16 4)
      | 2 => decide (c.u16 4 < 1024)
      | _ => true]
  state := stageChecks (fun _ => devSet) false fun _ => 1
  body := stages (fun _ => devSet) fun c => [({ op := 0x4004, a := c.u16 0, b := c.u8 2 }, some (fit 6 c.f.payload))]

def execBiRouteSet (dt : Nat) (f : Frame) (s : State) : Host.Outcome State Fault Refusal :=
  bilod cmdBiRouteSet dt f s

end Sys2Proof.Machine
end

