-- ==== Sys2Proof/Machine/Reaches.lean ====
section
/-! DEFINITION. Reaches (chapter 13): the HDM decoders that a Reach's hosts see (R288), vPPB 31 (R281), clearing a Reach (R316, R318),
and the commands of Table REACH-4. -/

namespace Sys2Proof.Machine

/-! ### HDM decoders and vPPB 31 -/

/-- Address ranges in ascending order with those that touch joined. -/
def joinRuns : List (Nat × Nat) → List (Nat × Nat)
  | (a, m) :: t =>
    match joinRuns t with
    | (b, n) :: u => if a + m ≥ b then (a, max m (b + n - a)) :: u else (a, m) :: (b, n) :: u
    | [] => [(a, m)]
  | [] => []

/-- A run shrunk inward to 256 MiB boundaries, if anything is left. -/
def shrink256 (x : Nat × Nat) : Option (Nat × Nat) :=
  let a := ceilTo x.1 (2 ^ 28)
  let e := (x.1 + x.2) / 2 ^ 28 * 2 ^ 28
  if a < e then some (a, e - a) else none

/-- The runs that the decoders of a Reach describe (R288), from the rules whose kind `k` accepts. -/
def Dev.decRuns (d : Dev) (r : Nat) (k : Nat → Bool) : List (Nat × Nat) :=
  let l := ((d.rules false r).filter fun x => k (eKind x.2)).map fun x => (eBase x.2 * pageBytes, (eLimit x.2 + 1 - eBase x.2) * pageBytes)
  (joinRuns (sortBy (fun a b => decide (a.1 ≤ b.1)) l)).filterMap shrink256

/-- The decoders of a Reach's VCSs and of its Basin LD are rebuilt from its active rules (R288). -/
def Dev.rebuildDec (d : Dev) (r : Nat) : Dev :=
  let one (d : Dev) (key tile : Nat) (l : List (Nat × Nat)) : Dev :=
    let d := d.onCxl fun c => { c with dec := if l.isEmpty then c.dec.erase key else c.dec.set key (l.take 32) }
    if l.length > 32 then d.count 0x120 tile r key else d
  let d := (d.vcssOf r).foldl (fun d v => one d v (v / 4) (d.decRuns r (· ≤ 1))) d
  one d (256 + r) 0 (d.decRuns r (· == 1))

/-- vPPB 31 shows its hosts that the Basin LD came (a hot-add) or goes (a managed hot-remove), `was` being what it showed before
(R281). -/
def Dev.vppb31 (d : Dev) (was : Nat → Bool) : Dev :=
  (List.range d.nReach).foldl (fun d r =>
    if was r = d.basinLd r then d
    else (d.vcssOf r).foldl (fun d v => d.report (if was r then 7 else 6) (v, 31)) d) d

/-! ### Clearing a Reach -/

/-- The items of a Reach that a reset of it clears (R316), but for the Reach maps and Basin memory. -/
def Dev.reachItem (d : Dev) (r : Nat) (k : CfgKey) : Bool :=
  if [0x5000, 0x5005, 0x6000, 0x6003, 0x6004, 0x0F01, 0x0F03].contains k.op then k.a == r
  else if k.op = 0x5007 ∨ k.op = 0x5008 then d.linkSet k.a == r
  else if k.op = 0x7001 then d.groupReach k.a == some r
  else if k.op = 0x4004 then k.b == r
  else false

/-- A Reach map without an entry for the Reach. -/
def unmapReach (r : Nat) (k : CfgKey) (b : Bytes) : Bytes := if k.op = 0x7020 then put b (12 + r) (nb 1 0xFF) else b

/-- Every binding of a VCS acts as VPPB_UNBIND mode 2 (R284). -/
def Dev.unbindAll (d : Dev) (v : Nat) : Dev :=
  (List.range 31).foldl (fun d k => if (d.binding v k).isSome then (d.seesSurprise (v, k)).unbindNow (v, k) else d) d

/-- A Reach's active and staged configuration goes back to its reset values, its paths are freed, and its Basin memory is unbound and
begins to be zeroed (R316). -/
def Dev.clearReach (d : Dev) (r : Nat) : Dev :=
  let mine := (d.weir.paths.filter fun x => decide (x.2.reach = r))
  let d := mine.foldl (fun d x =>
    if x.2.freeing then d else (((d.dropPath x.1).pathSend x.1 x.2 0x0A 0).finLong? x.2.long .aborted [])) d
  let gibs := (List.range 24).filter fun g => d.gibOwner false r g == some r
  let item (k : CfgKey) : Bool := d.reachItem r k || (k.op == 0x4082 && gibs.contains k.a)
  let d := (d.dropUnbinds r).onConf fun c => { c with
    active := (c.active.filter fun e => ! item e.1).map fun e => (e.1, unmapReach r e.1 e.2)
    staged := (c.staged.upd r {} fun s => { s with gen := (s.gen + 1) % 2 ^ 32, changes := [] }).upd devSet {} fun s => { s with
      changes := (s.changes.filter fun e => ! d.reachItem r e.1).map fun e => (e.1, e.2.map (unmapReach r e.1)) } }
  let d := d.onBas fun b => { b with clearing := b.clearing ++ gibs.filter fun g => ! b.clearing.contains g }
  (d.onWeir fun w => { w with
    bucket := w.bucket.filter fun e => decide (e.1.1 ≠ r), bulkCap := w.bulkCap.filter fun e => decide (e.1.2 ≠ r) }).rebuildDec r

/-! ### Reset of a Reach -/

/-- E1 of a reset (R316): the lock is released by force, reservations are lost with cause 0x05, and entries that wait for the Reach's
initiators are orphaned. -/
def Dev.resetE1 (d : Dev) (r : Nat) : Dev :=
  let d : Dev := { d with reset := d.reset.map fun x => if x.1 = r then (r, { x.2 with e1 := true }) else x }
  let d := (d.forceLock r 2 none).loseMons (fun m => decide (m.reach = r)) 5
  d.onWeir fun w => { w with trk := w.trk.map fun e =>
    if e.2.reach = r ∧ e.2.far.isNone ∧ e.2.orphan.isNone ∧ ! e.2.done ∧ ! e.2.early ∧ ! e.2.rspOut then
      (e.1, { e.2 with orphan := some d.clk.t6, cut := true })
    else e }

/-- The Reach's admitted work has ended: its share holds no entry that is not orphaned (R316). -/
def Dev.reachIdle (d : Dev) (r : Nat) : Bool := ! d.weir.trk.any fun e => e.2.reach == r && e.2.orphan.isNone

/-- E2 of a reset, at a commit epoch (R316): the configuration is cleared, with the unbind flag every vPPB unbound, and
REACH_RESET_DONE posted. -/
def execReachResetE2 (dt r : Nat) (s : State) : Host.Outcome State Fault Refusal :=
  event dt s fun _ _ d =>
    match d.reset.get? r with
    | some x =>
      if ! x.e1 ∨ ! d.reachIdle r then d
      else
        let was := d.basinLd
        let d := d.clearReach r
        let d := if x.unbind then (d.vcssOf r).foldl Dev.unbindAll d else d
        let d : Dev := { d.vppb31 was with reset := (d.vppb31 was).reset.erase r }
        (d.countDev 0x204 r r).finLong? x.long .success []
    | none => d

/-- A new Reach count acts (R318): every Reach is cleared as by a reset, every vPPB and GiB unbound, every link and LD assigned to
Reach 0, and the shares follow from the new N. -/
def Dev.recount (d : Dev) (b : Bytes) : Dev :=
  let was := d.basinLd
  let d := (List.range d.nReach).foldl (fun d r => (d.vcssOf r).foldl Dev.unbindAll (d.clearReach r)) d
  let d := (d.cxl.order).foldl (fun d x => d.unbindNow x) d
  let gone (k : CfgKey) : Bool := [0x4042, 0x4000, 0x4003, 0x4082, 0x5007, 0x5008].contains k.op
  let d := d.vppb31 was
  let d := d.onConf fun c => { c with
    active := Tbl.set (c.active.filter fun e => ! gone e.1) ({ op := 0x4040 } : CfgKey) b
    staged := (List.range 32).foldl (fun t i => if (t.get? i).isSome then t.upd i {} fun s => { s with
      gen := (s.gen + 1) % 2 ^ 32, changes := [], armed := none } else t) c.staged }
  { d with reset := [] }

/-! ### Commands -/

/-- REACH_COUNT_SET (R306, R318, R319). -/
def cmdReachCountSet : Cmd where
  op := 0x4040
  len := 4
  src := Src.admin
  mode := fun m => m == .configure
  fields := [need 0 fun c => [1, 2, 4, 8, 16, 32].contains (c.u8 0), rsvd 1 3]
  state := stageChecks (fun _ => devSet) false fun _ => 1
  body := stages (fun _ => devSet) fun c => [({ op := 0x4040 }, some (fit 4 c.f.payload))]

def execReachCountSet (dt : Nat) (f : Frame) (s : State) : Host.Outcome State Fault Refusal :=
  bilod cmdReachCountSet dt f s

/-- REACH_GET: N and the shares of Table REACH-1. -/
def cmdReachGet : Cmd where
  op := 0x4041
  len := 4
  src := Src.watch
  fields := [atMost 0 1, rsvd 1 3]
  body := reads fun c =>
    let stg : Bool := c.u8 0 == 1
    let n := max 1 (byteAt ((c.d.view stg devSet { op := 0x4040 }).getD [1]) 0)
    let lay := (c.d.view stg devSet { op := 0x4080 }).getD []
    nb 1 n ++ zeros 3 ++ nb 4 (65536 / n) ++ nb 4 (65536 / n) ++ nb 2 (4096 / n) ++ nb 2 (16384 / n) ++ nb 2 (1024 / n) ++ nb 1 (32 / n)
      ++ nb 1 (32 / n) ++ nb 8 ((32 - byteAt lay 0 - byteAt lay 1) * gib / n)

def execReachGet (dt : Nat) (f : Frame) (s : State) : Host.Outcome State Fault Refusal :=
  bilod cmdReachGet dt f s

/-- REACH_ASSIGN (R308, R309). An LD is named on a link that is not known to be a single logical device's. An assignment of a whole link takes the place of those of its LDs. -/
def cmdReachAssign : Cmd where
  op := 0x4042
  len := 4
  src := Src.operator
  fields := [cxlAt 0,
    need 2 fun c => c.u8 2 == 0xFF || (decide (c.u8 2 ≤ 15) && decide ((c.d.port (c.u16 0)).lds ≠ 1)),
    need 3 fun c => decide (c.u8 3 < c.d.nReach) || c.u8 3 == 0xFF]
  state := require .busy (fun c => (c.d.reset.get? (c.u8 3)).isNone) :: stageChecks (fun _ => devSet) false fun _ => 1
  body := stages (fun _ => devSet) fun c =>
    let lds : List (CfgKey × Option Bytes) :=
      if c.u8 2 = 0xFF then ((List.range 16).filter fun ld => (c.d.staged devSet { op := 0x4042, a := c.u16 0, b := ld }).isSome).map
        fun ld => ({ op := 0x4042, a := c.u16 0, b := ld }, none)
      else []
    lds ++ [({ op := 0x4042, a := c.u16 0, b := c.u8 2 }, some (fit 4 c.f.payload))]

def execReachAssign (dt : Nat) (f : Frame) (s : State) : Host.Outcome State Fault Refusal :=
  bilod cmdReachAssign dt f s

/-- REACH_MAP_GET: the links owned wholly or in part and the GiB bound. -/
def cmdReachMapGet : Cmd where
  op := 0x4043
  len := 2
  src := Src.watch
  fields := [reachAt 0, atMost 1 1]
  body := reads fun c =>
    let stg : Bool := c.u8 1 == 1
    let r := c.u8 0
    let own (l : Nat) : Bool := c.d.isCxl l && (if c.d.isMld l then (List.range 16).any fun ld => c.d.ownerIn stg l ld == some r
      else c.d.ownerIn stg l 0xFF == some r)
    nb 32 (bitsOf own 256) ++ nb 3 (bitsOf (fun g => decide (g < c.d.basinK.1 + c.d.basinK.2) && c.d.gibOwner stg r g == some r) 24)

def execReachMapGet (dt : Nat) (f : Frame) (s : State) : Host.Outcome State Fault Refusal :=
  bilod cmdReachMapGet dt f s

/-- REACH_RESET (R316, R317): the staged set is discarded and E1 is the first commit epoch at least 2 µs away. -/
def cmdReachReset : Cmd where
  op := 0x4044
  len := 4
  src := Src.operator
  long := true
  fields := [reachAt 0, rsvdBits 1 7 1, rsvd 2 2]
  state := [require .busy fun c => (c.d.reset.get? (c.u8 0)).isNone]
  body := fun c =>
    let r := c.u8 0
    let d := if (c.d.set r).accepted then c.d else c.d.discard r
    ({ d with reset := d.reset.set r {
        epoch := epochAfter d.now, unbind := c.u8 1 == 1, long := some (c.f.mbx, c.f.tag) } }, .started [])

def execReachReset (dt : Nat) (f : Frame) (s : State) : Host.Outcome State Fault Refusal :=
  bilod cmdReachReset dt f s

/-- REACH_STATUS_GET. -/
def cmdReachStatusGet : Cmd where
  op := 0x4045
  len := 1
  src := Src.watch
  fields := [reachAt 0]
  body := reads fun c =>
    let d := c.d
    let r := c.u8 0
    let st := if (d.reset.get? r).isSome then 2 else if (d.linksOf r).isEmpty then 0 else 1
    let groups := (List.range 1024).filter fun g => d.groupReach g == some r && (match d.cfg { op := 0x7001, a := g } with
      | some b => (byteAt b 4).testBit 0
      | none => false)
    nb 1 st ++ zeros 3 ++ nb 4 (d.trkUsed r true + d.trkUsed r false) ++ nb 4 (d.rules false r).length ++ nb 2 (d.policers false r)
      ++ nb 2 (d.ord.mons.filter fun m => decide (m.reach = r)).length ++ nb 2 groups.length ++ zeros 2 ++ nb 8 (d.overflowUse r)

def execReachStatusGet (dt : Nat) (f : Frame) (s : State) : Host.Outcome State Fault Refusal :=
  bilod cmdReachStatusGet dt f s

end Sys2Proof.Machine
end

