-- ==== Sys2Proof/Machine/Commit.lean ====
section
/-! DEFINITION. Commits (R82, R357–R361): the checks made at acceptance, with the conflicts that they report (Table MBX-11), what a
commit does at its epoch, and COMMIT, RULESET_COMMIT and resynchronisation (R85). -/

namespace Sys2Proof.Machine

/-! ### The configuration after a commit -/

/-- Active items with the changes of a set applied; a staged unbind of mode 0 or 1 leaves its binding (R284). -/
def applyChanges (t : Tbl CfgKey Bytes) (ch : Tbl CfgKey (Option Bytes)) : Tbl CfgKey Bytes :=
  ch.foldl (fun t e => match e.2 with
    | some b =>
      if e.1.op = 0x4000 ∧ b.length = 1 then t
      else if e.1.op = 0x4082 ∧ byteAt b 1 = 0xFF then t.erase e.1
      else t.set e.1 b
    | none => t.erase e.1) t

/-- The device as its configuration stands after every commit accepted before that of set `i`, in the order of R360. -/
def Dev.accepted (d : Dev) (i : Nat) : Dev :=
  let sets := (devSet :: List.range 32).filter fun k => decide (k ≠ i) && (d.set k).accepted
  d.onConf fun c => { c with active := sets.foldl (fun t k => applyChanges t (d.set k).changes) c.active }

/-- The same after the commit of set `i` as well. -/
def Dev.planned (d : Dev) (i : Nat) : Dev :=
  (d.accepted i).onConf fun c => { c with active := applyChanges c.active (d.set i).changes }

/-! ### Checks -/

/-- An item that a commit check refuses (Table MBX-11): kind, Reach (0xFF for a device-wide item), index and second index. -/
structure Conflict where
  kind   : Nat
  reach  : Nat
  index  : Nat
  second : Nat := 0xFFFFFFFF
deriving DecidableEq, Repr

/-- Conflicts of one kind in ascending order of index. -/
def inOrder (l : List Conflict) : List Conflict := sortBy (fun a b => decide (a.index ≤ b.index)) l

/-- The payload of STAGING_CONFLICT. -/
def Conflict.bytes (c : Conflict) : Bytes := nb 1 c.kind ++ nb 1 c.reach ++ zeros 2 ++ nb 4 c.index ++ nb 4 c.second

/-- A kind 0x0 descriptor names a link or LD that belongs to the Reach (R80, R82, R308). -/
def Dev.targetOk (d : Dev) (r desc : Nat) : Bool :=
  let l := desc / 16
  let ld := desc % 16
  d.isCxl l && d.owner l ld == some r && (decide ((d.port l).lds ≠ 1) || ld == 0)

/-- A range of Basin memory offsets lies inside the Reach's GiB, on one stack (R82, R141). -/
def Dev.rangeOk (d : Dev) (r off len : Nat) : Bool :=
  let a := off / gib
  let b := (off + len - 1) / gib
  let (k0, k1) := d.basinK
  decide (b < k0 + k1) && ! (decide (a < k0) && decide (k0 ≤ b)) && (List.range (b + 1 - a)).all fun j => d.gibOwner false r (a + j) == some r

/-- The bytes of Basin memory that a kind 0x1 rule covers. -/
def ruleSpan (e : Nat) : Nat × Nat := (bits (eDesc e 0) 4 0 * gib, (eLimit e + 1 - eBase e) * pageBytes)

/-- The targets of a rule or Default Map pass the checks of R82; a Default Map needs the GiB that start names (R90). -/
def Dev.entryOk (d : Dev) (r e : Nat) (dflt : Bool) : Bool :=
  match eKind e with
  | 0 => (List.range (2 ^ eWays e)).all fun k => d.targetOk r (eDesc e k)
  | 1 => if dflt then d.rangeOk r (bits (eDesc e 0) 4 0 * gib) 1 else d.rangeOk r (ruleSpan e).1 (ruleSpan e).2
  | _ => d.isIggevo (eDesc e 0 / 16)

/-- A staged item of an opcode is among a set's changes. -/
def Dev.changed (d : Dev) (i op : Nat) : List (CfgKey × Option Bytes) := (d.set i).changes.filter fun e => decide (e.1.op = op)

/-- A set's changes include a rule or Default Map of its Reach. -/
def Dev.ruleChange (d : Dev) (i : Nat) : Bool := decide (i < devSet) && (d.set i).changes.any fun e => e.1.op == 0x5000 || e.1.op == 0x5005

/-- Rules of a Reach in index order. -/
def Dev.rulesByIndex (d : Dev) (r : Nat) : List (Nat × Nat) := sortBy (fun a b => decide (a.1 ≤ b.1)) (d.rules false r)

/-- Rules (kinds 0x01 to 0x03), the Default Map among them. -/
def Dev.ruleConflicts (e : Dev) (i : Nat) : List Conflict :=
  let rules := e.rulesByIndex i
  let dm := e.defaultMap false i
  ((rules.filter fun x => ! e.entryOk i x.2 false).map fun x => { kind := 1, reach := i, index := x.1 })
    ++ (rules.flatMap fun x => (rules.filter fun y => decide (x.1 < y.1) && decide (eBase x.2 ≤ eLimit y.2) && decide (eBase y.2 ≤ eLimit x.2)).map
      fun y => { kind := 2, reach := i, index := x.1, second := y.1 })
    ++ (if eValid dm ∧ ! e.entryOk i dm true then [{ kind := 3, reach := i, index := 0 }] else [])

/-- Multicast groups that the set changes (kind 0x05): a member is a link of the Reach or a port that serves it. -/
def Dev.groupConflicts (d e : Dev) (i : Nat) : List Conflict :=
  ((d.changed i 0x7001).filter fun x => (e.members x.1.a).any fun t =>
    ! (if t ≥ 0x100 then e.portServes (t - 0x100) i else e.isCxl t && e.ownsPart i t)).map fun x => { kind := 5, reach := i, index := x.1.a }

/-- The addresses of an alias window and its status page (R186). -/
def aliasSpan (b : Bytes) : Nat × Nat := (leN b 4 5 * pageBytes, pageBytes * 2 ^ byteAt b 3 + pageBytes)

/-- Two ranges of bytes share one. -/
def spansMeet (a b : Nat × Nat) : Bool := decide (a.1 < b.1 + b.2) && decide (b.1 < a.1 + a.2)

/-- Alias windows of the Reach (kind 0x06): none meets a rule or another window. -/
def Dev.aliasConflicts (e : Dev) (i : Nat) : List Conflict :=
  let ws := (List.range 8).filterMap fun w => (e.cfg { op := 0x0F01, a := i, b := w }).map fun b => (w, aliasSpan b)
  ws.flatMap fun w =>
    ((e.rulesByIndex i).filter fun x => spansMeet w.2 (eBase x.2 * pageBytes, (eLimit x.2 + 1 - eBase x.2) * pageBytes)).map
        (fun x => { kind := 6, reach := i, index := w.1, second := x.1 })
      ++ (if ws.any fun v => decide (v.1 ≠ w.1) && spansMeet v.2 w.2 then [{ kind := 6, reach := i, index := w.1 }] else [])

/-- GiB that the set binds or unbinds (kind 0x07): a bound GiB belongs to one Reach, and no rule covers one that is unbound. -/
def Dev.gibConflicts (d e : Dev) (i : Nat) : List Conflict :=
  let was := d.accepted i
  let bad (g : Nat) (v : Option Bytes) : Bool :=
    match v with
    | some b =>
      if byteAt b 1 = 0xFF then (e.rules false i).any fun x =>
        eKind x.2 == 1 && spansMeet (ruleSpan x.2) (g * gib, gib)
      else decide (g ≥ e.basinK.1 + e.basinK.2) || (match was.gibOwner false i g with
        | some o => o != i
        | none => false)
    | none => false
  inOrder (((d.changed i 0x4082).filter fun x => bad x.1.a x.2).map fun x => { kind := 7, reach := i, index := x.1.a : Conflict })

/-- The LD that a binding or assignment names; a whole link is its LD 0. -/
def ldOf (ld : Nat) : Nat := if ld = 0xFF then 0 else ld

/-- Every binding of the configuration, with its VCS and vPPB. -/
def Dev.allBinds (d : Dev) : List (Nat × Nat × Bind) :=
  d.conf.active.filterMap fun e => if e.1.op = 0x4000 then some (e.1.a, e.1.b, Bind.of e.2) else none

/-- Bindings that the set makes (kind 0x08): the target belongs to the Reach, and to one VCS unless every binding of it is shared
(R282, R283). -/
def Dev.bindConflicts (d e : Dev) (i : Nat) : List Conflict :=
  let bad (x : CfgKey) (v : Option Bytes) : Bool :=
    match v with
    | some b =>
      if b.length = 1 then false
      else
        let n := Bind.of b
        let mates := e.allBinds.filter fun y => decide ((y.1, y.2.1) ≠ (x.a, x.b)) && decide (y.2.2.link = n.link) && decide (ldOf y.2.2.ld = ldOf n.ld)
        e.owner n.link (ldOf n.ld) != some i || (decide ((e.port n.link).lds = 1) && decide (ldOf n.ld ≠ 0))
          || mates.any (fun y => ! (y.2.2.shared && n.shared) || decide (y.1 = x.a)) || decide (mates.length ≥ 64)
    | none => false
  inOrder (((d.changed i 0x4000).filter fun x => bad x.1 x.2).map fun x => { kind := 8, reach := i, index := 32 * x.1.a + x.1.b : Conflict })

/-- A link or LD is a target of an active rule of a Reach. -/
def Dev.ruleTargets (d : Dev) (r l ld : Nat) : Bool :=
  (d.rules false r).any fun x => eKind x.2 == 0 && (List.range (2 ^ eWays x.2)).any fun k => eDesc x.2 k == 16 * l + ld

/-- Assignments that the device-wide set changes (kind 0x09), refused while the link or LD is in use (R309). -/
def Dev.assignConflicts (d e : Dev) : List Conflict :=
  let was := d.accepted devSet
  let links := ascending ((d.changed devSet 0x4042).map (·.1.a)).eraseDups
  let used (l : Nat) : Bool := (List.range 16).any fun ld =>
    match was.owner l ld with
    | some r =>
      decide (e.owner l ld ≠ some r) && (was.allBinds.any (fun y => (y.2.2.link == l && ldOf y.2.2.ld == ld) || (ld == 0 && y.1 == l))
        || was.ruleTargets r l ld
        || (List.range 1024).any fun g => was.groupReach g == some r && (was.members g).contains l)
    | none => false
  (links.filter used).map fun l => { kind := 9, reach := 0xFF, index := l }

/-- Iggevo targets without a mapping (kind 0x0A, R231): of the rules of one Reach, or of every Reach for the maps that the device-wide
set changes. -/
def Dev.mapConflicts (d e : Dev) (i : Nat) : List Conflict :=
  let open_ (r l : Nat) : Bool :=
    ((e.rules false r).map (·.2) ++ (if eValid (e.defaultMap false r) then [e.defaultMap false r] else [])).any fun x =>
      eKind x == 2 && eDesc x 0 / 16 == l && (e.farReach l r).isNone
  if i < devSet then
    if d.ruleChange i then ((List.range 256).filter fun l => e.isIggevo l && open_ i l).map fun l => { kind := 0xA, reach := i, index := l } else []
  else
    let links := ascending ((d.changed devSet 0x7020).map (·.1.a))
    (links.filter fun l => (List.range e.nReach).any fun r => open_ r l).map fun l => { kind := 0xA, reach := 0xFF, index := l }

/-- BI routes that the device-wide set changes (kind 0x0B, R291): a host link or a coherence group of the Reach. -/
def Dev.routeConflicts (d e : Dev) : List Conflict :=
  let bad (r : Nat) (v : Option Bytes) : Bool :=
    match v with
    | some b =>
      let t := leN b 4 2
      if byteAt b 3 = 1 then e.owner t 0xFF != some r
      else if byteAt b 3 = 2 then e.groupReach t != some r || (e.members t).isEmpty
        || (match e.cfg { op := 0x7001, a := t } with
          | some g => bits (byteAt g 4) 2 1 != 1
          | none => true)
      else false
    | none => false
  inOrder (((d.changed devSet 0x4004).filter fun x => bad x.1.b x.2).map fun x => { kind := 0xB, reach := x.1.b, index := x.1.a : Conflict })

/-- What a commit of set `i` conflicts with, in the order in which the checks report it. `gen` is the generation expected
(0xFFFF_FFFF: any). -/
def Dev.conflicts (d : Dev) (i gen : Nat) : List Conflict :=
  let e := d.planned i
  let reach := if i = devSet then 0xFF else i
  let rules := d.ruleChange i
  (if rules then e.ruleConflicts i else [])
    ++ (if i = devSet then [] else
      d.groupConflicts e i ++ (if rules ∨ ! (d.changed i 0x0F01).isEmpty then e.aliasConflicts i else []) ++ d.gibConflicts e i ++ d.bindConflicts e i)
    ++ (if i = devSet then d.assignConflicts e else []) ++ d.mapConflicts e i
    ++ (if i = devSet then d.routeConflicts e else [])
    ++ (if gen ≠ 0xFFFFFFFF ∧ gen ≠ (d.set i).gen then [{ kind := 0xC, reach := reach, index := 0 }] else [])
    ++ (if i = devSet ∧ ! (d.changed i 0x4040).isEmpty ∧ (d.set i).changes.length > 1 then [{ kind := 0xD, reach := 0xFF, index := 0 }] else [])
    ++ (if i = devSet ∧ ! (d.changed i 0x4080).isEmpty ∧ (List.range 24).any (fun g => (e.gibOwner false 0 g).isSome) then
        [{ kind := 0xE, reach := 0xFF, index := 0 }] else [])

/-! ### What a commit does at its epoch -/

/-- What a reservation depends on (Table ORDER-5, cause 0x04): the rules that lead to its granule, in region, class, permission, kind
and target, and the alias windows over it. -/
def Dev.granFacts (d : Dev) (m : Mon) : List (Nat × Nat × Nat) × List (Nat × Bytes) :=
  let at_ (e : Nat) : Option Nat :=
    let a := if eKind e = 1 then m.gran + eBase e * pageBytes - (ruleSpan e).1 else m.gran
    let goes := if eKind e = 0 then eTarget e a / 16 else if eKind e = 1 then 0x100 + (if m.gran / gib < d.basinK.1 then 0 else 1) else eDesc e 0 / 16
    if eCovers e a ∧ goes = m.dst ∧ (eKind e ≠ 1 ∨ m.gran ≥ (ruleSpan e).1) then some a else none
  let hits := (d.rulesByIndex m.reach).filterMap fun x => (at_ x.2).map fun a => (x.2, a)
  let wins := (List.range 8).filterMap fun w => match d.cfg { op := 0x0F01, a := m.reach, b := w } with
    | some b => if hits.any fun h => spansMeet (leN b 9 5 * pageBytes, pageBytes * 2 ^ byteAt b 3) (h.2, m.size) then some (w, b) else none
    | none => none
  (hits.map fun h => (h.2, bits h.1 382 368, 16 * eTarget h.1 h.2 + eKind h.1), wins)

/-- One staged binding acts (R282–R284): an unbind of mode 2 and a new binding at once, one of mode 0 or 1 once its condition
holds. -/
def Dev.applyBind (d : Dev) (k : CfgKey) (v : Option Bytes) : Dev :=
  let x := (k.a, k.b)
  match v with
  | none => if (d.binding k.a k.b).isSome then (d.seesSurprise x).unbindNow x else d
  | some b =>
    if b.length = 1 then
      if (d.binding k.a k.b).isNone then (d.finLong? (d.vppb x).waitLong .success []).onVppb x fun v => { v with waitLong := none }
      else
        let d := d.onVppb x fun v => { v with wait := some (byteAt b 0), waitT := d.clk.t6 }
        if byteAt b 0 = 0 then (if (d.port k.a).up then d else d.unbindNow x)
        else if (d.vppb x).power then d.report 1 x else d.unbindNow x
    else
      let d := match d.binding k.a k.b with
        | some o => d.unbindAct x o
        | none => d
      (d.onConf fun c => { c with active := c.active.set k b }).bindAct x (Bind.of b)

/-- The commit of a set acts (R83, R142, R190, R228, R288, R301, R357–R361). -/
def Dev.applySet (d : Dev) (p : Profile) (i : Nat) : Dev :=
  let s := d.set i
  let ch := s.changes
  let has (op : Nat) : Bool := ch.any fun e => e.1.op == op
  let rules := d.ruleChange i
  let was := d.basinLd
  let id := d.switchId
  let facts := d.ord.mons.map d.granFacts
  let mons := d.ord.mons
  let d := match ch.get? { op := 0x4040 } with
    | some (some b) => d.recount b
    | _ => d
  let d := (ch.filter fun e => decide (e.1.op = 0x4000)).foldl (fun d e => d.applyBind e.1 e.2) d
  let gone := (List.range 24).filter fun g => match ch.get? { op := 0x4082, a := g } with
    | some v => (d.gibOwner false i g).isSome && (match v with
      | some b => byteAt b 1 == 0xFF
      | none => true)
    | none => false
  let rest := ch.filter fun e => decide (e.1.op ≠ 0x4000) && decide (e.1.op ≠ 0x4040)
  let d := d.onConf fun c => { c with
    active := applyChanges c.active rest
    staged := c.staged.upd i {} fun s => { s with
      gen := (s.gen + 1) % 2 ^ 32, changes := [], armed := none, waits := false, long := none, resync := rules }
    setB := if rules then c.setB.upd i false (!·) else c.setB
    flipT := if rules then c.flipT.set i d.now else c.flipT }
  let d := d.onBas fun b => { b with clearing := b.clearing ++ gone.filter fun g => ! b.clearing.contains g }
  let d := d.onWeir fun w => { w with bucket := w.bucket.filter fun e => (d.contract e.1.1 e.1.2.1 e.1.2.2).isSome }
  let d := (mons.zip facts).foldl (fun d x => if has 0x0F03 && x.1.reach == i || d.granFacts x.1 != x.2 then d.loseMons (· == x.1) 4 else d) d
  let d := if rules then d.rebuildDec i else d
  let d := d.vppb31 was
  let d := (ch.filter fun e => decide (e.1.op = 0x4085)).foldl (fun d e => d.settle p e.1.a e.1.b) d
  let d := (ch.filter fun e => decide (e.1.op = 0x3021)).foldl (fun d e => if (d.port e.1.a).up then d.ideStart p e.1.a else d) d
  if has 0x7010 && d.switchId != id then
    (d.links.filter fun l => d.isIggevo l && (d.igg l).st == .active).foldl (fun d l => d.igDown p l) d
  else d

/-! ### Acceptance -/

/-- A commit is accepted (R359): armed for its epoch, or waiting for an ART bank (R88). -/
def Dev.arm (d : Dev) (i : Nat) (epoch : Nat) (waits : Bool) (long : Option (Mbx × Nat)) : Dev :=
  d.onConf fun c => { c with staged := c.staged.upd i {} fun s => { s with
    armed := if waits then none else some epoch, waits := waits, long := long } }

/-- A commit of the set waits for an ART bank (R88). -/
def Dev.commitWaits (d : Dev) (i : Nat) : Bool := d.ruleChange i && d.bankOut

/-- The answer of a commit (Table MBX-16). -/
def commitBytes (epoch n : Nat) : Bytes := nb 5 epoch ++ zeros 3 ++ nb 4 n

/-- The checks of a commit: BUSY while one of the set is accepted (R359), then those of R82 and the other chapters. -/
def commitState : List Check :=
  [require .busy fun c => ! (c.d.set c.setNamed).accepted,
   fun c => (c.d.conflicts c.setNamed (c.u32 4)).head?.map fun x => (.stagingConflict, x.bytes)]

/-- COMMIT: it answers at its epoch, or with IN_PROGRESS where it waits for a bank (R88, R359). -/
def cmdCommit (waits : Bool) : Cmd where
  op := 0x0003
  len := 8
  src := Src.operator
  long := waits
  fields := scopeChecks 0 0 ++ [rsvd 2 2]
  state := commitState
  body := fun c =>
    let i := c.setNamed
    let e := epochAfter c.d.now
    if waits then (c.d.arm i 0 true (some (c.f.mbx, c.f.tag)), .started [])
    else
      let o : Owed := {
        mbx := c.f.mbx, opcode := 0x0003, tag := c.f.tag, sid := c.f.sid, epoch := e, set := some i
        payload := commitBytes e (c.d.set i).changes.length }
      ((c.d.arm i e false none).onMgmt fun g => { g with owed := g.owed ++ [o] }, .atEpoch)

/-- The staged set that a commit frame names. -/
def commitSet (f : Frame) : Nat := if byteAt f.payload 0 = 0 then byteAt f.payload 1 else devSet

def execCommit (dt : Nat) (f : Frame) (s : State) : Host.Outcome State Fault Refusal :=
  bilod (cmdCommit ((s.elapse dt).dev.commitWaits (commitSet f))) dt f s

/-- RULESET_COMMIT: the epoch is a multiple of 1,024 ns from 2,000 ns to 100 ms ahead (R359). -/
def cmdRulesetCommit : Cmd where
  op := 0x0004
  len := 16
  src := Src.operator
  long := true
  fields := scopeChecks 0 0 ++ [rsvd 2 2,
    need 8 fun c => leN c.f.payload 8 5 % 1024 == 0 && tGe (leN c.f.payload 8 5) (c.d.now + 2000) && tGe (c.d.now + 100000000) (leN c.f.payload 8 5),
    rsvd 13 3]
  state := commitState
  body := fun c => (c.d.arm c.setNamed (leN c.f.payload 8 5) (c.d.commitWaits c.setNamed) (some (c.f.mbx, c.f.tag)), .started [])

def execRulesetCommit (dt : Nat) (f : Frame) (s : State) : Host.Outcome State Fault Refusal :=
  bilod cmdRulesetCommit dt f s

/-! ### Resynchronisation (R85) -/

/-- Resynchronisation of a Reach's inactive set starts. Until it ends the set's rule commands stay refused; the set itself already reads
as the active one. -/
def execResyncStart (dt _set : Nat) (s : State) : Host.Outcome State Fault Refusal := event dt s fun _ _ d => d

/-- Resynchronisation ends and staged commands are accepted again. -/
def execResyncDone (dt set : Nat) (s : State) : Host.Outcome State Fault Refusal :=
  event dt s fun _ _ d => if (d.set set).resync then
      d.onConf fun c => { c with staged := c.staged.upd set {} fun x => { x with resync := false } }
    else d

/-! ### At the epoch -/

/-- The armed commits whose epoch has come act: the device-wide set, then the Reaches in ascending order (R360). -/
def Dev.commitsAct (d : Dev) (p : Profile) : Dev :=
  (devSet :: List.range 32).foldl (fun d i =>
    match (d.set i).armed with
    | some e =>
      if tGe d.now e then
        let n := (d.set i).changes.length
        let long := (d.set i).long
        let back := d.cxl.fmBack = some i
        let d := (d.applySet p i).finLong? long .success (commitBytes e n)
        if back then d.onCxl fun c => { c with fmBack := none, fmOut := some (0, []) } else d
      else d
    | none => d) d

/-- Responses owed at an epoch that has come are written (R359, R40). -/
def Dev.payOwed (d : Dev) : Dev :=
  let due := d.mgmt.owed.filter fun o => tGe d.now o.epoch
  let d := d.onMgmt fun g => { g with owed := g.owed.filter fun o => ! tGe d.now o.epoch }
  due.foldl (fun d o => d.respond { mbx := o.mbx, tag := o.tag, sid := o.sid } o.opcode .success o.payload) d

end Sys2Proof.Machine
end

