-- ==== Sys2Proof/Machine/Modes.lean ====
section
/-! DEFINITION. Operating modes (chapter 2): the commands of Table MODE-7, the commit epoch with everything that acts at it (R26–R39,
R360, R361, R521, R522), and the ends of a drain and of a change to or from Diagnostic. -/

namespace Sys2Proof.Machine

/-! ### Targets -/

/-- The mode code that a pending change leads to. -/
def Target.code : Target → Nat
  | .toRun p | .newProfile p => p.code
  | .service => 10
  | .configure | .load => 3
  | .diagnostic true => 11
  | .diagnostic false => 3
  | .safe => 2

/-- A redundancy bit of FAULT_STATUS is set. -/
def Dev.redundancyLost (d : Dev) : Bool := redundancyOf d.flt.status != 0

/-- The mode in which Service ends (R33, R39). -/
def Dev.serviceLeads (d : Dev) (p : Profile) : Mode := if d.redundancyLost then .degraded else p.mode

/-- The target code that MODE_GET shows: 0xFF if no change is pending. -/
def Dev.targetCode (d : Dev) (p : Profile) : Nat :=
  match d.ctl.pend with
  | some x => x.target.code
  | none => match d.ctl.auto with
    | some (true, _) => 9
    | some (false, _) => p.code
    | none => if (d.ctl.svc.bind (·.endAt)).isSome then (d.serviceLeads p).code else 0xFF

/-- The response of MODE_SET (Table MODE-9). -/
def modeReply (result : Nat) (fenced : List Nat) : Bytes := nb 1 result ++ zeros 3 ++ nb 32 (bitsOf fenced.contains 256)

/-! ### Commands -/

/-- MODE_GET. -/
def cmdModeGet : Cmd where
  op := 0x2000
  src := Src.watch
  body := reads fun c => nb 4 (devMode c.m c.p c.d) ++ nb 4 (c.d.targetCode c.p)

def execModeGet (dt : Nat) (f : Frame) (s : State) : Host.Outcome State Fault Refusal :=
  bilod cmdModeGet dt f s

/-- The paths of Table MODE-6 that a MODE_SET may take (R26, R32). -/
def pathOk (m : Mode) (t : Nat) : Bool :=
  match m with
  | .safe => t == 2 || t == 3
  | .configure => t == 2 || (decide (4 ≤ t) && decide (t ≤ 8)) || t == 0xB
  | .diagnostic => t == 2 || t == 3
  | m => m.tenant && t != 0xB

/-- An active CXL link has no established IDE stream (R37). -/
def Dev.withoutIde (d : Dev) : List Nat := d.links.filter fun l => d.isCxl l && (d.port l).up && (d.ide l).cxl != 2

/-- What a MODE_SET to `t` leads to from a mode. -/
def setTarget (m : Mode) (t : Nat) : Target :=
  if t = 2 then .safe
  else if t = 0xB then .diagnostic true
  else if t = 3 then
    (match m with
     | .safe => .load
     | .diagnostic => .diagnostic false
     | _ => .configure)
  else if m = .configure then .toRun (Profile.ofCode t) else .newProfile (Profile.ofCode t)

/-- The service operation in progress bars a change to Safe or Configure (R30). -/
def Dev.serviceBars (d : Dev) : Bool :=
  match d.ctl.svc with
  | some v => v.op != 7 || d.img.cmd.isSome
  | none => false

/-- MODE_SET (R26, R30, R32, R37, Table MODE-8). A change that acts at a commit epoch answers there; the others answer IN_PROGRESS. A
MODE_SET to Configure in Safe clears the count of fatal restarts (R404). -/
def cmdModeSet (long : Bool) : Cmd where
  op := 0x2001
  len := 8
  src := Src.admin
  long := long
  fields := [
    fun c => let t := c.u8 0
      if t = 0 ∨ t = 1 ∨ t = 9 ∨ t = 10 then some (plain .wrongMode) else if t > 11 then some (invalid 0) else none,
    need 1 fun c => c.u8 1 == 0 || (c.u8 1 == 1 && c.u8 0 == 7), rsvd 2 2,
    need 4 fun c => if c.u8 0 = 8 then decide (350 ≤ c.u16 4) && decide (c.u16 4 ≤ 700) else c.u16 4 == 0, rsvd 6 2]
  state := [
    require .busy fun c => ! c.d.transition && ! ((c.u8 0 == 2 || c.u8 0 == 3) && c.d.serviceBars),
    require .wrongMode fun c => pathOk c.m (c.u8 0),
    require .wrongMode fun c => c.u8 0 != 7 || c.u8 1 == 1 || c.d.withoutIde.isEmpty]
  body := fun c =>
    let t := setTarget c.m (c.u8 0)
    let e := epochAfter c.d.now
    let atOnce : Bool := match t with
      | .load | .diagnostic _ => true
      | _ => false
    let d := c.d.onCtl fun x => { x with
      pend := some { target := t, epoch := e, begun := atOnce, cap := c.u16 4, force := c.u8 1 == 1
                     long := if long then some (c.f.mbx, c.f.tag) else none }
      fenceReply := []
      fatalTimes := if t = .load then [] else x.fatalTimes
      stayInSafe := if t = .load then false else x.stayInSafe }
    if long then (d, .started [])
    else
      let o : Owed := { mbx := c.f.mbx, opcode := 0x2001, tag := c.f.tag, sid := c.f.sid, payload := [], epoch := e, set := none }
      (d.onMgmt fun g => { g with owed := g.owed ++ [o] }, .atEpoch)

/-- A MODE_SET to Safe, Configure or Diagnostic is a long command (Table MODE-7). -/
def modeSetLong (f : Frame) : Bool := [2, 3, 11].contains (byteAt f.payload 0)

def execModeSet (dt : Nat) (f : Frame) (s : State) : Host.Outcome State Fault Refusal :=
  bilod (cmdModeSet (modeSetLong f)) dt f s

/-- SERVICE_BEGIN (R39, R523). A second one, and one while a hot-plug operation waits for its own, returns BUSY; a firmware activation
needs the standby (Table MODE-5). -/
def cmdServiceBegin : Cmd where
  op := 0x2002
  len := 4
  src := Src.admin
  fields := [
    need 0 fun c => decide (1 ≤ c.u8 0) && decide (c.u8 0 ≤ 7),
    need 1 fun c => match c.u8 0 with
      | 2 | 3 => decide (c.u8 1 ≤ 1)
      | 4 => decide (c.u8 1 ≤ 3)
      | 5 | 6 => decide (c.u8 1 ≤ 63)
      | _ => c.u8 1 == 0,
    rsvd 2 2]
  state := [
    require .busy fun c => ! c.d.transition && c.d.ctl.svc.isNone && c.d.hotWants.isNone,
    require .wrongMode fun c => c.m.isRun || c.m == .degraded,
    require .wrongMode fun c => match c.u8 0 with
      | 1 => c.d.mgmt.standby == .ready
      | 5 => c.d.tileIn (c.u8 1)
      | 6 => ! c.d.tileIn (c.u8 1)
      | _ => true]
  body := changes fun c => c.d.onCtl fun x => { x with
    svc := some { op := c.u8 0, inst := c.u8 1 }, pend := some { target := .service, epoch := epochAfter c.d.now } }

def execServiceBegin (dt : Nat) (f : Frame) (s : State) : Host.Outcome State Fault Refusal :=
  bilod cmdServiceBegin dt f s

/-- SERVICE_END (R39): it ends the window of operation 0x7. -/
def cmdServiceEnd : Cmd where
  op := 0x2003
  src := Src.admin
  mode := fun m => m == .service
  state := [require .busy fun c => ! c.d.transition && (match c.d.ctl.svc with
    | some v => v.op == 7 && c.d.img.cmd.isNone
    | none => true)]
  body := changes fun c => c.d.serviceEnds true

def execServiceEnd (dt : Nat) (f : Frame) (s : State) : Host.Outcome State Fault Refusal :=
  bilod cmdServiceEnd dt f s

/-! ### What acts at a commit epoch -/

/-- The mode, profile and device that a mode change leads to. -/
structure Moved where
  m : Mode
  p : Profile
  d : Dev

/-- A link is fenced on entry into Run-Secure (R37, R118, R190, R246). -/
def Dev.secureFence (d : Dev) (l : Nat) : Dev :=
  let d := d.loseMons (fun x => decide (x.init = .link l)) 5
  let d := (d.brg.near.filter fun e => decide (e.2.owner = l)).foldl (fun d e => d.forceLock e.1 1 none) d
  (d.copiesLost fun x => decide (x = l)).fenceLink l

/-- A Run profile takes effect (R27, R32, R36, R37, R522): with profile 0x8 its cap, with profile 0x7 the fences and IDE set-up on links
without a stream (a forced entry reports the fences, Table MODE-9); outside profile 0x8 the fabric runs in its fastest state. -/
def Dev.takeProfile (d : Dev) (p : Profile) (cap : Nat) (force : Bool) : Dev :=
  let d := if p = .powerCapped then d.onCtl fun c => { c with capW := cap }
    else (d.onPwr fun w => { w with fab := 0, fabNext := none, overMs := 0, underMs := 0 }).onClk fun c => { c with slow := false }
  if p.isSecure then
    let bare := d.withoutIde
    let d := d.onCtl fun c => { c with fenceReply := if force then bare else [] }
    let d := bare.foldl Dev.secureFence d
    (d.links.filter fun l => d.isCxl l && (d.port l).up).foldl (fun d l => d.ideStart p l) d
  else d

/-- A commanded change whose epoch has come acts or begins (Table MODE-6, steps 4, 5, 8, 10 and 14). Step 12 is the core reset, which the
row itself begins. A change whose path does not start in the mode (no accepted command leaves one pending) ends without effect. -/
def pendActs (x : Moved) : Moved :=
  match x.d.ctl.pend with
  | some q =>
    if q.begun ∨ ! tGe x.d.now q.epoch then x
    else
      let done (d : Dev) : Dev := d.onCtl fun c => { c with pend := none }
      match q.target with
      | .toRun p =>
        if x.m = .configure ∧ p ≠ .none then { m := if x.d.redundancyLost then .degraded else p.mode, p := p, d := (done x.d).takeProfile p q.cap q.force }
        else { x with d := done x.d }
      | .newProfile p =>
        if x.m.tenant ∧ p ≠ .none then { m := if x.m.isRun then p.mode else x.m, p := p, d := (done x.d).takeProfile p q.cap q.force }
        else { x with d := done x.d }
      | .service =>
        if x.m.tenant then { x with m := .service, d := (done x.d).svcBegin .service x.p } else { x with d := done x.d }
      | _ => { x with d := x.d.onCtl fun c => { c with pend := some { q with begun := true } } }
  | none => x

/-- An automatic entry into Degraded or return to Run whose epoch has come acts (R31, R33, R402). A change to Configure or Safe in
progress takes precedence, and Service stays. -/
def autoActs (x : Moved) : Moved :=
  match x.d.ctl.auto with
  | some (lost, e) =>
    if ! tGe x.d.now e then x
    else
      let d := x.d.onCtl fun c => { c with auto := none }
      let leaving : Bool := match x.d.ctl.pend with
        | some q => q.target == .configure || q.target == .safe
        | none => false
      if leaving then { x with d := d }
      else if lost then
        let d := d.onCtl fun c => { c with auto := if x.m.isRun then c.back.map fun b => (false, b) else none, back := none }
        { x with m := if x.m.isRun then .degraded else x.m, d := d }
      else { x with m := if x.m = .degraded then x.p.mode else x.m, d := d }
  | none => x

/-- Service ends at the epoch that its operation set, or goes on with the operation that a hot-plug procedure waits for (R39, R299). -/
def serviceActs (x : Moved) : Moved :=
  match x.d.ctl.svc.bind (·.endAt) with
  | some e =>
    if ! tGe x.d.now e ∨ x.m ≠ .service then x
    else match x.d.hotWants with
      | some v => { x with d := (x.d.onCtl fun c => { c with svc := some v }).svcBegin .service x.p }
      | none => { x with m := x.d.serviceLeads x.p, d := x.d.onCtl fun c => { c with svc := none } }
  | none => x

/-- An operation that a hot-plug procedure runs without entering Service begins (R299). -/
def Dev.svcStart (d : Dev) (m : Mode) (p : Profile) : Dev :=
  if m = .configure ∨ m = .diagnostic then d.svcBegin m p else d

/-- A change of fabric state whose epoch has come acts, with the fabric clock (R36, R322). -/
def Dev.fabActs (d : Dev) : Dev :=
  match d.pwr.fabNext with
  | some (st, e) => if tGe d.now e then
      (d.onPwr fun w => { w with fab := st, fabNext := none }).onClk fun c => { c with slow := st == 2 }
    else d
  | none => d

/-- Path reservations at an epoch (R66, R67, R225, R247): those whose epoch has come become active, and suspended ones resume, with the
phase of a hop whose link measured a new cable delay placed anew. -/
def Dev.pathsAct (d : Dev) (m : Mode) (p : Profile) : Dev :=
  let due (e : Option Nat) : Bool := match e with
    | some e => tGe d.now e
    | none => false
  let clear (l : Nat) : Bool := ! d.isIggevo l || ((d.igg l).st == .active && ! d.timeDegraded l)
  let newly := (d.weir.paths.filter fun x => due x.2.epoch && ! x.2.active && ! x.2.freeing).map (·.1)
  let d' := d.onWeir fun w => { w with paths := w.paths.map fun x => (x.1, { x.2 with
    active := x.2.active || newly.contains x.1, suspended := x.2.suspended && ! clear x.2.egress }) }
  let d' := d'.onBrg fun b => { b with paths := b.paths.map fun x =>
    let back := x.2.suspended && clear x.2.egress && clear x.2.link
    (x.1, { x.2 with
      active := x.2.active || due x.2.epoch, suspended := x.2.suspended && ! back
      phase := if back && (d.igg x.2.link).moved then (byteAt x.2.record 18 + d.pathShift m p x.2.link) % 4 else x.2.phase }) }
  let d' := newly.foldl Dev.pathDone d'
  let e : Dev := d'
  { e with ig := e.ig.map fun x => (x.1, if x.2.st = .active then { x.2 with moved := false } else x.2) }

/-- The tiles that the loaded image lists; without a listing, every tile (assumption 30). -/
def Dev.listed (d : Dev) : List Nat :=
  let recs := match d.img.cfgUse with
    | some c => (d.img.copy.getD c {}).recs
    | none => []
  let l := recs.filterMap fun r => if r.1 = 0x3020 then some (byteAt r.2 0) else none
  if l.isEmpty then List.range 64 else l

/-- Joining without a service operation (R461): while it lasts, the tiles with an active link that are not in the pattern ask to join
together. -/
def Dev.joins (d : Dev) (m : Mode) : Dev :=
  if d.ctl.settled ∨ ! m.trains then d
  else if d.listed.all d.tileIn then d.onCtl fun c => { c with settled := true }
  else
    let new := (List.range 64).filter fun t => d.tileActive t && ! d.tileIn t && ! d.fab.removed.contains t
    if new.isEmpty ∨ d.fab.repat.isSome then d
    else d.onFab fun f => { f with repat := some { tiles := new, join := true, t6 := d.clk.t6 } }

/-- What every commit epoch recomputes: calendars of changed links (R216), hold-limit rates (R133), and overflow after a stack's return
(R148). -/
def Dev.epochFigures (d : Dev) : Dev :=
  let d := d.onWeir fun w => { w with calU := [] }
  d.onBas fun b => { b with
    rateU := (d.links.map fun l => (l, d.curRate l)).filter fun x => decide (x.2 ≠ 0)
    stopOvf := b.stopOvf && b.stack.any (· != .inService) }

/-- E1 of the Reach resets whose epoch has come (R316). -/
def Dev.resetsAct (d : Dev) : Dev :=
  (d.reset.filter fun x => ! x.2.e1 && tGe d.now x.2.epoch).foldl (fun d x => d.resetE1 x.1) d

/-- The response of a MODE_SET that acted at this epoch. -/
def Dev.modeAnswers (d : Dev) (m : Mode) : Dev :=
  let answer (o : Owed) : Owed := if o.set.isNone && tGe d.now o.epoch then { o with payload := modeReply m.code d.ctl.fenceReply } else o
  d.onMgmt fun g => { g with owed := g.owed.map answer }

/-- Everything that acts at a commit epoch, in the order of R360: the mode change, the device-wide set, the Reach sets. -/
def epochActs (m : Mode) (p : Profile) (d : Dev) : Moved :=
  let x := serviceActs (autoActs (pendActs { m, p, d := d.svcEpoch }))
  let d := ((x.d.svcStart x.m x.p).commitsAct x.p).resetsAct.fabActs.epochFigures
  let d := ((d.pathsAct x.m x.p).joins x.m).modeAnswers x.m
  let d := if x.m ≠ m ∨ x.p ≠ p then d.modeNotice x.m x.p else d
  { x with d := d.payOwed.hotNext x.m }

/-- A pending MODE_SET to Safe whose epoch has come (Table MODE-6, step 12; R521). -/
def Dev.safeDue (d : Dev) : Bool :=
  match d.ctl.pend with
  | some q => q.target == .safe && tGe d.now q.epoch
  | none => false

/-- A commit epoch, in every mode with the core running. -/
def execCommitEpoch (dt : Nat) (s : State) : Host.Outcome State Fault Refusal :=
  let s := s.elapse dt
  .next (
    if ! s.mode.adminServed then s
    else if s.dev.safeDue then s.toCoreReset true
    else
      let x := epochActs s.mode s.profile s.dev
      { s with mode := x.m, profile := x.p, dev := x.d })

/-! ### The ends of longer changes -/

/-- Admitted work has drained: no tenant transaction is open and no tenant message in flight (R28). -/
def Dev.drained (d : Dev) : Bool :=
  ! d.weir.trk.any (fun e => e.2.orphan.isNone) && ! d.weir.fly.any (fun e => e.2.cls != 0) && d.ord.ea.isEmpty

/-- A mode without a Run profile is reported (Table MODE-3), the pending change ends and its command completes. A start profile of
the image that was not committed is not committed any more. -/
def State.settle (s : State) (m : Mode) (d : Dev) : State :=
  let long := d.ctl.pend.bind (·.long)
  let d := d.onCtl fun c => { c with pend := none, auto := none, back := none, startProf := .none, svc := c.svc.filter fun v => decide (v.op ≠ 7) }
  let d := (d.onPwr fun w => { w with fab := 0, fabNext := none }).onClk fun c => { c with slow := false }
  let d := (d.finLong? long .success (modeReply m.code [])).modeNotice m .none
  { s with mode := m, profile := .none, dev := d }

/-- Admitted work has drained and Configure is reported (Table MODE-6, step 10). -/
def execConfigureDrainComplete (dt : Nat) (s : State) : Host.Outcome State Fault Refusal :=
  let s := s.elapse dt
  .next (if s.dev.draining ∧ s.mode.tenant ∧ s.dev.drained then s.settle .configure s.dev else s)

/-- Links train again after Diagnostic: every Iggevo link enters DETECT, and an added slot's time to train begins (R274, R299). -/
def Dev.leaveTest (d : Dev) (m : Mode) : Dev :=
  let d := d.onPhy fun x => { x with test := [] }
  let d := (List.range 64).foldl (fun d t => d.tileStart m t) d
  match d.cxl.hot with
  | h :: _ => if h.add ∧ h.step = 2 then d.onHot fun h => { h with t6 := d.clk.t6 } else d
  | [] => d

/-- A change between Configure and Diagnostic completes (Table MODE-6, step 11): entering clears approved and takes every link to test
patterns; leaving runs the conditional self-tests, and approved reads 1 again only if they pass (R25, R371, R387). -/
def execDiagnosticTransitionDone (dt : Nat) (testsOk : Bool) (s : State) : Host.Outcome State Fault Refusal :=
  let s := s.elapse dt
  .next (
    match s.dev.ctl.pend.map ModePend.target with
    | some (Target.diagnostic true) =>
      if s.mode ≠ .configure then s else
      let d := s.dev.links.foldl (fun d l => d.anyDown s.profile l) s.dev
      let d : Dev := { d with ig := d.ig.map fun x => (x.1, { x.2 with st := .down }) }
      s.settle .diagnostic ((d.onSec fun x => { x with approved := false }).audit .diagEnter 0xFF none 0)
    | some (Target.diagnostic false) =>
      if s.mode ≠ .diagnostic then s else
      let d := s.dev.audit .diagExit 0xFF none 0
      let d := if testsOk then d.onSec fun x => { x with approved := ! x.errState } else d.securityError 8
      s.settle .configure (d.leaveTest .configure)
    | _ => s)

end Sys2Proof.Machine
end

