-- ==== Sys2Proof/Machine/Image.lean ====
section
/-! DEFINITION. Flash copies and logs (chapter 22): records and their checks (R494), the commands of Table IMAGE-5, the end of a flash
operation, and the log region (R500, R501). -/

namespace Sys2Proof.Machine

/-! ### Records (R494) -/

/-- The set command of a record type (Table IMAGE-3). -/
def recCmd : Nat → Option Cmd
  | 0x4040 => some cmdReachCountSet
  | 0x4080 => some cmdBasinLayoutSet
  | 0x3020 => some cmdTileConfigSet
  | 0x3001 => some cmdLaneConfigSet
  | 0x3021 => some cmdPortConfigSet
  | 0x4042 => some cmdReachAssign
  | 0x7010 => some cmdIggevoDeviceSet
  | 0x7011 => some cmdIggevoLinkSet
  | 0x7020 => some cmdBridgeLinkSet
  | 0xA001 => some cmdSlotConfigSet
  | 0x800B => some cmdPercolatorSet
  | 0x4000 => some cmdVppbBind
  | 0x4003 => some cmdLdCoherenceSet
  | 0x4082 => some cmdBasinMemoryBind
  | 0x4085 => some cmdQueueThresholdSet
  | 0x5000 => some cmdRuleWrite
  | 0x5005 => some cmdDefaultMapSet
  | 0x5007 => some cmdGateWindowSet
  | 0x5008 => some cmdGateModeSet
  | 0x6000 => some cmdContractSet
  | 0x6003 => some cmdExpeditedReserve
  | 0x6004 => some cmdProfileSet
  | 0x7001 => some cmdMcastGroupSet
  | 0x0F01 => some cmdAliasWindowSet
  | 0x0F03 => some cmdResvGranuleSet
  | 0x6010 => some cmdSchedWeightSet
  | 0x6011 => some cmdShaperSet
  | 0x4004 => some cmdBiRouteSet
  | _ => none

/-- The pass of a record (Table IMAGE-3), 0 for a type that it does not list; 0x6010 and 0x6011 go by how many Reaches their link
serves. -/
def Dev.recPass (d : Dev) (t : Nat) (v : Bytes) : Nat :=
  match t with
  | 0x4040 => 1
  | 0x4080 | 0x3020 => 2
  | 0xB0F0 | 0x3001 | 0x3021 | 0x4042 | 0x7010 | 0x7011 | 0x7020 | 0xA001 | 0x800B => 3
  | 0x6010 | 0x6011 => if d.linkSet (leN v 0 2) = devSet then 5 else 4
  | 0x4004 => 5
  | _ => if (recCmd t).isSome then 4 else 0

/-- The failing field of a DEVICE_SETTINGS value (Table IMAGE-4). -/
def settingsBad (v : Bytes) : Option Nat :=
  let b := byteAt v
  let baud := leN v 8 4
  let checks : List (Nat × Bool) :=
    [(0, b 0 == 0 || (decide (4 ≤ b 0) && decide (b 0 ≤ 8))), (1, b 1 == 0),
     (2, if b 0 = 8 then decide (350 ≤ leN v 2 2) && decide (leN v 2 2 ≤ 700) else leN v 2 2 == 0),
     (4, decide (b 4 < 8) && decide (bits (b 4) 2 1 ≠ 3)), (5, decide (8 ≤ b 5) && decide (b 5 ≤ 0x77)), (6, decide (b 6 < 16)),
     (7, b 7 == 0), (8, decide (115200 ≤ baud) && decide (baud ≤ 3000000))]
      ++ (List.range 8).map fun i => (24 + i, decide (b (24 + i) < 128))
  (checks.find? fun c => ! c.2).map (·.1)

/-- The frame that stands for a record's command, and what it is checked against: the device as it enters Configure. -/
def Dev.recCtx (d : Dev) (v : Bytes) : Ctx := { m := .configure, p := .none, d, f := { mbx := .admin, payload := v } }

/-- The status and failing field (0xFFFF: none) of a record (R494, R530): its command's fields, trailing bytes and state. -/
def Dev.recBad (d : Dev) (t : Nat) (v : Bytes) : Option (Status × Nat) :=
  if t = 0xB0F0 then
    if v.length ≠ 32 then some (.invalidField, 0xFFFF) else (settingsBad v).map fun o => (.invalidField, o)
  else match recCmd t with
    | none => some (.invalidField, 0xFFFF)
    | some k =>
      if v.length < k.len ∨ v.length > 4080 then some (.invalidField, 0xFFFF)
      else (firstFail (k.fields ++ [fun c => trailing (k.len + k.ext c) c] ++ k.state) (d.recCtx v)).map fun f =>
        (f.1, if f.1 = .invalidField then leN f.2 0 4 + (if byteAt f.2 4 = 2 then leN f.2 8 4 else 0) else 0xFFFF)

/-- A body of records: each with the offset of its type field, or the offset at which the body is malformed (R494). `fuel` is the
number of words of the body. -/
def parseRecs : Nat → Bytes → Nat → Except Nat (List (Nat × Nat × Bytes))
  | 0, _, _ => .ok []
  | fuel + 1, b, off =>
    if b.isEmpty then .ok []
    else
      let n := leN b 2 2
      let size := 4 + ceilTo n 4
      if b.length < size || (b.drop (4 + n)).take (size - 4 - n) != zeros (size - 4 - n) then .error off
      else match parseRecs fuel (b.drop size) (off + size) with
        | .ok l => .ok ((off, leN b 0 2, (b.drop 4).take n) :: l)
        | .error o => .error o

/-- A record in its stored form. -/
def recBytes (r : Nat × Bytes) : Bytes := nb 2 r.1 ++ nb 2 r.2.length ++ fit (ceilTo r.2.length 4) r.2

/-- Records with the offsets of their type fields, from an offset on. -/
def withOffsets : Nat → List (Nat × Bytes) → List (Nat × Nat × Bytes)
  | _, [] => []
  | o, r :: l => (o, r.1, r.2) :: withOffsets (o + (recBytes r).length) l

/-! ### Copies -/

/-- A copy of the flash. -/
def Dev.flash (d : Dev) (k : Nat) : FlashCopy := d.img.copy.getD k {}

/-- The valid copy of a pair with the higher sequence, copy A where both are equal (R493). -/
def Dev.best (d : Dev) (a : Nat) (ok : FlashCopy → Bool) : Option Nat :=
  let good (k : Nat) : Bool := (d.flash k).valid && ok (d.flash k)
  if good a && (! good (a + 1) || decide ((d.flash (a + 1)).seq ≤ (d.flash a).seq)) then some a
  else if good (a + 1) then some (a + 1) else none

/-- What R375 and R492 ask of a firmware copy beyond its own contents. -/
def Dev.fwOk (d : Dev) (c : FlashCopy) : Bool :=
  decide (c.keyPair < 4) && ! d.sec.revoked.testBit c.keyPair && decide (d.sec.secVer ≤ c.secVer)

/-- What R492 asks of a configuration copy for the running firmware. -/
def Dev.cfgOk (d : Dev) (c : FlashCopy) : Bool := c.major == d.img.major && decide (c.minor ≤ d.img.minor)

/-- The copy that a write of a kind (1 firmware, 2 configuration) goes to: the inactive one (R497). Where none is in use it is the
copy that boot would not choose, and copy A where neither is valid. -/
def Dev.inactive (d : Dev) (kind : Nat) : Nat :=
  let a := 2 * (kind - 1)
  let used := if kind = 1 then d.img.fwUse.orElse fun _ => d.best 0 d.fwOk else d.img.cfgUse.orElse fun _ => d.best 2 d.cfgOk
  match used with
  | some k => 2 * a + 1 - k
  | none => a

/-- The sequence after that of a copy; without one, 1. -/
def Dev.nextSeq (d : Dev) (k : Option Nat) : Nat :=
  match k with
  | some k => (d.flash k).seq + 1
  | none => 1

/-- CRC-32 as IEEE 802.3 defines it, of the bytes of a header (Table IMAGE-2): least significant bit first, both ends inverted. -/
def crc32Bit (c : Nat) : Nat := if c % 2 = 1 then Nat.xor (c / 2) 0xEDB88320 else c / 2

/-- The CRC of some bytes. -/
def crc32 (b : Bytes) : Nat :=
  Nat.xor (b.foldl (fun c x => (List.range 8).foldl (fun c _ => crc32Bit c) (Nat.xor c x.toNat)) 0xFFFFFFFF) 0xFFFFFFFF

/-- The header of a firmware copy passes the checks of R492 and R375 that need no key. -/
def Dev.fwHeaderOk (d : Dev) (b : Bytes) (total : Nat) : Bool :=
  leN b 0 4 == 0x4F58494D && byteAt b 4 == 1 && byteAt b 5 == 1 && leN b 6 2 == 0
    && leN b 8 2 == 0x4F58 && leN b 10 2 == 0x6410 && byteAt b 12 == 0xB0 && byteAt b 15 == 0
    && decide (1 ≤ leN b 16 4) && decide (leN b 16 4 ≤ 0xFFFFFFFE) && decide (byteAt b 28 < 4) && ! d.sec.revoked.testBit (byteAt b 28)
    && decide (d.sec.secVer ≤ leN b 20 8) && leN b 29 3 == 0 && leN b 32 4 % 4 == 0 && leN b 36 4 == 4723
    && total == 0x1000 + leN b 32 4 + 4723 && leN b 88 4004 == 0 && leN b 4092 4 == crc32 (b.take 4092)

/-- The copy that a firmware region holds once its header is programmed. -/
def fwCopy (b : Bytes) (seq : Nat) : FlashCopy :=
  { valid := true, seq, major := byteAt b 13, minor := byteAt b 14, secVer := leN b 20 8, keyPair := byteAt b 28, data := b }

/-- A sealed configuration copy (R491). -/
def Dev.cfgCopy (d : Dev) (recs : List (Nat × Bytes)) (seq : Nat) : FlashCopy :=
  { valid := true, seq, major := d.img.major, minor := d.img.minor, recs
    data := zeros 0x1000 ++ (recs.map recBytes).flatten }

/-! ### Saving (R496) -/

/-- The factory default of an item as the payload of its command, for the items that have one. -/
def Dev.factory (d : Dev) (k : CfgKey) : Option Bytes :=
  let e := d.onConf fun _ => {}
  match k.op with
  | 0x4040 => some (nb 4 1)
  | 0x4080 => some (zeros 4)
  | 0x3001 => some (e.laneCfg false k.a k.b)
  | 0x3021 => some (e.portCfg k.a)
  | 0x4042 => some (nb 2 k.a ++ nb 1 k.b ++ nb 1 0xFF)
  | 0x7011 => some (nb 2 k.a ++ nb 1 4 ++ nb 1 4 ++ nb 1 1 ++ zeros 3)
  | 0x7020 => some (nb 2 k.a ++ nb 1 3 ++ nb 1 0 ++ nb 4 200 ++ nb 4 2000 ++ List.replicate 32 0xFF)
  | 0xA001 => some (e.slotCfg k.a)
  | 0x4003 => some (nb 2 k.a ++ nb 1 k.b ++ nb 1 0 ++ nb 2 0xFFFF)
  | 0x4085 => some (nb 2 k.a ++ nb 1 k.b ++ nb 1 0 ++ nb 4 (e.queueT false k.a k.b) ++ nb 4 (if k.b = 7 then 0 else 0xFFFFFFFF))
  | 0x5000 | 0x5005 => some (zeros 48)
  | 0x5007 => some (nb 2 k.a ++ nb 1 k.b ++ zeros 13)
  | 0x5008 => some (nb 2 k.a ++ zeros 2)
  | 0x6003 => some (nb 2 k.a ++ nb 2 k.b ++ zeros 8)
  | 0x6004 => let r := e.refusal false k.a k.b
    some (nb 1 k.a ++ nb 1 k.b ++ nb 1 r.1 ++ nb 1 r.2.1 ++ nb 1 r.2.2 ++ zeros 3)
  | 0x0F03 => some (nb 4 k.a)
  | 0x6010 => some (nb 2 k.a ++ zeros 2 ++ ((List.range 5).flatMap fun i => nb 1 (e.weight false k.a (i + 3))) ++ zeros 3)
  | 0x6011 => some (nb 2 k.a ++ nb 1 k.b ++ zeros 9)
  | 0x4004 => some (nb 2 k.a ++ nb 1 k.b ++ zeros 3)
  | _ => none

/-- The request payload that sets an item to its stored value: a rule and a Default Map are stored as their entry alone. -/
def recValue (k : CfgKey) (v : Bytes) : Bytes :=
  if k.op = 0x5000 then nb 1 k.a ++ zeros 1 ++ nb 2 k.b ++ v else if k.op = 0x5005 then nb 4 k.a ++ v else v

/-- One record for every item whose active value differs from its factory default (R496), pass by pass. -/
def Dev.snapshot (d : Dev) : List (Nat × Bytes) :=
  let tiles := ((List.range 64).filter fun t => decide (d.tileCode t ≠ 0)).map fun t => (0x3020, nb 1 t ++ nb 1 (d.tileCode t) ++ zeros 2)
  let tasks := ((List.range 6).filter fun k => decide ((d.task k).period ≠ taskPeriod0 k)).map fun k =>
    (0x800B, nb 4 k ++ nb 8 (d.task k).period)
  let own := if d.img.settings.isEmpty then [] else [(0xB0F0, d.img.settings)]
  let items := (d.conf.active.filter fun e => d.factory e.1 != some e.2).map fun e => (e.1.op, recValue e.1 e.2)
  let all := tiles ++ tasks ++ own ++ items
  (List.range 5).flatMap fun p => all.filter fun r => decide (d.recPass r.1 r.2 = p + 1)

/-! ### Commands -/

/-- In a mode that serves tenants the image commands need service operation 0x7 in progress (R498). -/
def imageMode : Check := require .wrongMode fun c => ! c.m.tenant || (match c.d.ctl.svc with
  | some v => v.op == 7 && v.begun && v.endAt.isNone
  | none => false)

/-- One image command runs at a time, and none of the firmware kind during an activation (R498). -/
def imageFree (fw : Ctx → Bool) : Check := require .busy fun c => c.d.img.cmd.isNone && ! (fw c && c.d.activating)

/-- An image command begins: the copy it writes has no valid header until it is done (R492). -/
def Dev.startFlash (d : Dev) (j : FlashJob) : Dev :=
  d.onImg fun i => { i with cmd := some j, copy := i.copy.upd j.copy {} fun c => { c with valid := false } }

/-- IMAGE_STATUS_GET (R503). -/
def cmdImageStatusGet : Cmd where
  op := 0xB000
  src := Src.observer
  body := reads fun c =>
    let one (k : Nat) : Bytes :=
      let x := c.d.flash k
      let ok := if k < 2 then c.d.fwOk x else c.d.cfgOk x
      nb 1 (b2n (x.valid && ok)) ++ nb 1 (b2n (c.d.img.fwUse == some k || c.d.img.cfgUse == some k)) ++ nb 1 x.major ++ nb 1 x.minor
        ++ nb 4 x.seq ++ nb 8 x.secVer
    (List.range 4).flatMap one ++ nb 8 c.d.sec.secVer ++ nb 4 (128 - c.d.img.retired.length)

def execImageStatusGet (dt : Nat) (f : Frame) (s : State) : Host.Outcome State Fault Refusal :=
  bilod cmdImageStatusGet dt f s

/-- SAVE_IMAGE (R496, R498). -/
def cmdSaveImage : Cmd where
  op := 0xB001
  src := Src.admin
  fields := [imageMode]
  long := true
  state := [imageFree fun _ => false,
    require .busy fun c => ! (devSet :: List.range 32).any fun i => (c.d.set i).accepted || (c.d.set i).resync,
    require .resourceExhausted fun c => decide (c.d.nextSeq (c.d.best 2 c.d.cfgOk) ≤ 0xFFFFFFFE)]
  body := fun c =>
    let top := c.d.best 2 c.d.cfgOk
    let seq := c.d.nextSeq top
    let k := 5 - top.getD 3
    let recs := c.d.snapshot
    (c.d.startFlash {
      op := 0xB001, mbx := c.f.mbx, tag := c.f.tag, copy := k, after := c.d.cfgCopy recs seq
      reply := nb 4 seq ++ nb 4 recs.length ++ nb 1 (k - 2) }, .started [])

def execSaveImage (dt : Nat) (f : Frame) (s : State) : Host.Outcome State Fault Refusal :=
  bilod cmdSaveImage dt f s

/-- Kind and reserved bytes of a request. -/
def kindChecks : List Check := [imageMode, need 0 fun c => c.u8 0 == 1 || c.u8 0 == 2]

/-- The size of the region of a kind (Table IMAGE-1). -/
def regionSize (kind : Nat) : Nat := if kind = 1 then 2 ^ 24 else 2 ^ 23

/-- IMAGE_WRITE (R497): data at an offset of the region of the inactive copy, which is erased before its first data. -/
def cmdImageWrite : Cmd where
  op := 0xB002
  len := 8
  ext := fun c => c.f.payload.length - 8
  src := Src.admin
  fields := kindChecks ++ [rsvd 1 3, need 4 fun c => decide (c.u32 4 + (c.f.payload.length - 8) ≤ regionSize (c.u8 0))]
  long := true
  state := [imageFree fun c => c.u8 0 == 1]
  body := fun c =>
    let k := c.d.inactive (c.u8 0)
    let old := c.d.flash k
    let was := if old.valid then [] else old.data
    (c.d.startFlash {
      op := 0xB002, mbx := c.f.mbx, tag := c.f.tag, copy := k
      after := { data := put was (c.u32 4) (c.f.payload.drop 8) }, reply := [] }, .started [])

def execImageWrite (dt : Nat) (f : Frame) (s : State) : Host.Outcome State Fault Refusal :=
  bilod cmdImageWrite dt f s

/-- The verification of a written copy (R497): what it holds once its header is programmed, or the status and payload that its checks
give. A configuration body starts at region offset 0x1000. -/
def Dev.finish (d : Dev) (kind total : Nat) : Except (Status × Bytes) FlashCopy :=
  let b := (d.flash (d.inactive kind)).data
  if kind = 1 then
    let img := fit total b
    if d.fwHeaderOk img total && Sys2Proof.Config.firmwareVerifies img then
      .ok (fwCopy img (d.nextSeq (d.img.fwUse.orElse fun _ => d.best 0 d.fwOk)))
    else .error (.integrityFailure, [])
  else match parseRecs (total / 4 + 1) (fit total (b.drop 0x1000)) 0 with
    | .error o => .error (invalidRecord 0 o)
    | .ok recs =>
      let bad := recs.findSome? fun r => (d.recBad r.2.1 r.2.2).map fun f => (r.1, f.2)
      match bad with
      | some (o, fld) => .error (invalidRecord fld o)
      | none => .ok (d.cfgCopy (recs.map fun r => r.2) (d.nextSeq (d.best 2 d.cfgOk)))

/-- IMAGE_FINISH (R497). A copy that fails its checks stays without a valid header. -/
def cmdImageFinish : Cmd where
  op := 0xB003
  len := 8
  src := Src.admin
  fields := kindChecks ++ [rsvd 1 3,
    need 4 fun c => if c.u8 0 = 1 then decide (c.u32 4 ≤ regionSize 1) else c.u32 4 % 4 == 0 && decide (0x1000 + c.u32 4 + 96 ≤ regionSize 2)]
  long := true
  state := [imageFree fun c => c.u8 0 == 1,
    require .resourceExhausted fun c => decide (c.d.nextSeq (if c.u8 0 = 1 then c.d.img.fwUse else c.d.best 2 c.d.cfgOk) ≤ 0xFFFFFFFE)]
  body := fun c =>
    let k := c.d.inactive (c.u8 0)
    match c.d.finish (c.u8 0) (c.u32 4) with
    | .error (st, b) =>
      let d := c.d.onImg fun i => { i with copy := i.copy.upd k {} fun x => { x with valid := false } }
      (if c.u8 0 = 1 then d.audit .imageRejected 0xFF (some c.f.mbx) st.code else d, .ended st b)
    | .ok x => (c.d.startFlash {
        op := 0xB003, mbx := c.f.mbx, tag := c.f.tag, copy := k, after := x, reply := nb 4 x.seq }, .started [])

def execImageFinish (dt : Nat) (f : Frame) (s : State) : Host.Outcome State Fault Refusal :=
  bilod cmdImageFinish dt f s

/-- IMAGE_INVALIDATE (R498). -/
def cmdImageInvalidate : Cmd where
  op := 0xB004
  len := 4
  src := Src.admin
  fields := kindChecks ++ [atMost 1 1, rsvd 2 2]
  state := [imageFree fun c => c.u8 0 == 1,
    require .wrongMode fun c => let k := 2 * (c.u8 0 - 1) + c.u8 1
      decide (c.d.img.fwUse ≠ some k) && decide (c.d.img.cfgUse ≠ some k)]
  body := changes fun c => c.d.onImg fun i => { i with
    copy := i.copy.upd (2 * (c.u8 0 - 1) + c.u8 1) {} fun x => { x with valid := false } }

def execImageInvalidate (dt : Nat) (f : Frame) (s : State) : Host.Outcome State Fault Refusal :=
  bilod cmdImageInvalidate dt f s

/-- The security version of the running firmware; the factory firmware's is not above the counter (assumption 31). -/
def Dev.runningVer (d : Dev) : Nat :=
  match d.img.fwUse with
  | some k => (d.flash k).secVer
  | none => d.sec.secVer

/-- SECURITY_VERSION_ADVANCE (R499): the counter never falls (R375). -/
def cmdSecurityVersionAdvance : Cmd where
  op := 0xB005
  src := Src.officer
  state := [require .wrongMode fun c => [0, 1].all fun k => (c.d.flash k).valid && c.d.fwOk (c.d.flash k) && decide (c.d.runningVer ≤ (c.d.flash k).secVer)]
  body := fun c =>
    let d := c.d.onSec fun x => { x with secVer := max x.secVer c.d.runningVer }
    (d, .done (nb 8 d.sec.secVer))

def execSecurityVersionAdvance (dt : Nat) (f : Frame) (s : State) : Host.Outcome State Fault Refusal :=
  bilod cmdSecurityVersionAdvance dt f s

/-! ### Flash and logs -/

/-- The flash operation of the image command in progress ends (R476, R498): the copy holds what the command wrote, or FLASH_ERROR is
posted and the command ends with ABORTED. A failure on a device that serves no image command is that of a log write. -/
def execFlashOpComplete (dt dev : Nat) (res : FlashRes) (s : State) : Host.Outcome State Fault Refusal :=
  event dt s fun mode _ d =>
    if ! mode.adminServed ∨ dev ≥ 2 then d
    else
      let d := if res = .failed then d.countDev 0x262 dev else d
      match d.img.cmd with
      | some j =>
        if j.copy % 2 ≠ dev then d
        else
          let e := d.onImg fun i => { i with cmd := none }
          if res = .failed then e.finLong (j.mbx, j.tag) .aborted []
          else
            let e := (e.onImg fun i => { i with copy := i.copy.set j.copy j.after }).finLong (j.mbx, j.tag) .success j.reply
            if j.op = 0xB001 then e.countDev 0x261 dev else e
      | none => d

/-- Entries that waited in MPC SRAM are programmed (R501). -/
def execLogFlush (dt : Nat) (s : State) : Host.Outcome State Fault Refusal :=
  event dt s fun mode _ d => if mode.adminServed then d.flushNv else d

/-- A pass of task 4 (R501): a sector that fails for the second time is retired on both devices. -/
def execWearLevelling (dt : Nat) (failedSector : Option Nat) (s : State) : Host.Outcome State Fault Refusal :=
  event dt s fun mode _ d =>
    if ! mode.adminServed then d
    else
      let d := d.taskPass 4
      match failedSector with
      | some k =>
        if k ≥ 128 ∨ d.img.retired.contains k then d
        else
          let d := d.onImg fun i => { i with fails := i.fails.upd k 0 (· + 1) }
          if d.img.fails.getD k 0 < 2 then d
          else (d.onImg fun i => { i with retired := i.retired ++ [k] }).countDev 0x263 k
      | none => d

end Sys2Proof.Machine
end

