-- ==== Sys2Proof/Machine/Boot.lean ====
section
/-! DEFINITION. Start-up (chapters 20 and 22): entry into Safe, the image load, time before Run, the start profile, and the restart
after a fatal fault. -/

namespace Sys2Proof.Machine

/-! ### Entry into Safe -/

/-- The firmware that boot runs (R375, R493): the valid copy with the higher sequence; where that one fails the firmware load test,
the other; else the factory firmware in ROM. -/
def Dev.bootFirmware (d : Dev) (rejected : Bool) : Dev :=
  let first := d.best 0 d.fwOk
  let use : Option Nat := match first with
    | some k => if rejected then (if (d.flash (1 - k)).valid && d.fwOk (d.flash (1 - k)) then some (1 - k) else none) else some k
    | none => none
  let d := if rejected && first.isSome then d.audit .imageRejected 0xFF none Status.integrityFailure.code else d
  match use with
  | some k => (d.onImg fun i => { i with fwUse := some k, major := (d.flash k).major, minor := (d.flash k).minor }).audit .imageLoad 0xFF none 0
  | none => d.onImg fun i => { i with
      fwUse := none, major := Sys2Proof.Config.romRevision.toNat / 256, minor := Sys2Proof.Config.romRevision.toNat % 256 }

/-- The power-up self-tests end (R371, R372): a failed known-answer test (row 2) or DRBG health test (row 5) sets the error state; while
the entropy source fails its start-up tests (row 3) the DRBG stays unseeded. -/
def Dev.bootTests (d : Dev) (failed : Nat) : Dev :=
  let d := if failed.testBit 2 then d.onSec fun x => { x with seeded := false } else d
  let d := if failed.testBit 1 then d.securityError 2 else d
  let d := if failed.testBit 4 then d.securityError 5 else d
  d.onSec fun x => { x with approved := ! x.errState }

/-- The record that a fatal restart retained is copied into the NV log and posted, and FATAL_RESTART is counted (R403, R408). -/
def Dev.reportFatal (d : Dev) : Dev :=
  if ! d.flt.retained then d
  else
    let d := d.onFlt fun f => { f with retained := false }
    let d := match d.flt.snaps.get? (32, 2) with
      | some h =>
        let d := d.logNv { h, fatal := some (d.flt.status, (d.flt.hist.drop (d.flt.hist.length - 16))) }
        ((d.postTo .admin (d.faultRecord h.msg)).postTo .oob (d.faultRecord h.msg)).postTo .tunnel (d.faultRecord h.msg)
      | none => d
    d.countDev 0x20B

/-- Fatal restarts within an hour hold the device in Safe (R404). -/
def Dev.restartsHold (d : Dev) : Bool := decide (d.ctl.fatalTimes.length ≥ 3)

/-- Step 3 is automatic (Table MODE-6): a valid user image, running firmware from flash (R375), and nothing that holds the device. -/
def Dev.autoLoads (d : Dev) : Bool :=
  ! d.ctl.stayInSafe && ! d.restartsHold && d.img.fwUse.isSome && (d.best 2 d.cfgOk).isSome

/-- R513 and R385 hold the device in Safe: a thermal shutdown until every sensor has read below 95 °C for 10 s, and a latched tamper. -/
def Dev.heldInSafe (d : Dev) : Bool :=
  d.sec.tamper || (d.ctl.coolUntil.isSome && ! (match d.pwr.coldT with
    | some t => decide (d.since t ≥ 10 * s6)
    | none => false))

/-- Cold Boot ends (R459, Table PWR-5): firmware runs and the device reports Safe. A failed boot ROM test, an untolerable rail and the loss
of both reference clocks keep it in Cold Boot (Table SEC-2, R447, R455). -/
def execSafeEntry (dt : Nat) (boot : BootResult) (s : State) : Host.Outcome State Fault Refusal :=
  let s := s.elapse dt
  .next (
    if s.mode ≠ .coldBoot ∨ ! s.dev.pwr.railsBad.isEmpty ∨ s.dev.ctl.bothLost ∨ s.dev.ctl.romBad then s
    else if ! boot.romOk then s.onDev fun d => d.onCtl fun c => { c with romBad := true }
    else
      let d := ((s.dev.bootStore.bootTests boot.failed).bootFirmware (boot.failed.testBit 6)).reportFatal
      let d := d.onMgmt fun g => { g with heartbeat := d.clk.t6 }
      let d := d.finLong? (d.ctl.pend.bind (·.long)) .success (modeReply 2 [])
      let go := d.autoLoads && ! d.heldInSafe
      let d := d.onCtl fun c => { c with pend := if go then some { target := .load, epoch := d.now, begun := true } else none }
      { s with mode := .safe, profile := .none, dev := d.modeNotice .safe .none })

/-! ### The image load (R495) -/

/-- Why a load fails (R530): the offset of the record, the status and the failing field. -/
structure LoadFail where
  off   : Nat
  st    : Status
  field : Nat

/-- The configuration at its factory defaults. -/
def Dev.defaults (d : Dev) : Dev :=
  let tasks : Tbl Nat Task := d.tele.tasks.map fun e => (e.1, { e.2 with period := taskPeriod0 e.1 })
  ({ d with conf := {}, cxl := {}, tele := { d.tele with tasks := tasks, telMs := 100 } } : Dev).onImg fun i => { i with
    cfgUse := none, settings := [] }

/-- A record's command acts: it stages, or changes the device at once. -/
def Dev.stageRec (d : Dev) (t : Nat) (v : Bytes) : Dev :=
  if t = 0xB0F0 then d.onImg fun i => { i with settings := v }
  else match recCmd t with
    | some k => (k.body { d.recCtx v with m := .safe }).1
    | none => d

/-- The item that a conflict names is the one that a record stages (R530, Table MBX-11). -/
def Conflict.names (c : Conflict) (t : Nat) (v : Bytes) : Bool :=
  match c.kind with
  | 1 | 2 => t == 0x5000 && byteAt v 0 == c.reach && leN v 2 2 == c.index
  | 3 => t == 0x5005 && byteAt v 0 == c.reach
  | 5 => t == 0x7001 && leN v 0 2 == c.index
  | 6 => t == 0x0F01 && byteAt v 0 == c.reach && byteAt v 1 == c.index
  | 7 => t == 0x4082 && byteAt v 0 == c.index
  | 8 => t == 0x4000 && 32 * leN v 0 2 + byteAt v 2 == c.index
  | 9 => t == 0x4042 && leN v 0 2 == c.index
  | 10 => t == 0x7020 && leN v 0 2 == c.index
  | 11 => t == 0x4004 && leN v 0 2 == c.index && byteAt v 2 == c.reach
  | 13 => t == 0x4040
  | 14 => t == 0x4080
  | _ => false

/-- A pass stages its records in their stored order and commits (R495): the sets act at one epoch, in the order of R360. -/
def Dev.loadPass (d : Dev) (recs : List (Nat × Nat × Bytes)) (n : Nat) : Except LoadFail Dev :=
  let mine := recs.filter fun r => decide (d.recPass r.2.1 r.2.2 = n)
  let one (d : Dev) (r : Nat × Nat × Bytes) : Except LoadFail Dev :=
    match d.recBad r.2.1 r.2.2 with
    | some (st, fld) => .error { off := r.1, st, field := fld }
    | none => .ok (d.stageRec r.2.1 r.2.2)
  let sets := if n = 4 then List.range 32 else [devSet]
  let arm (d : Dev) (i : Nat) : Except LoadFail Dev :=
    if (d.set i).changes.isEmpty then .ok d
    else match (d.conflicts i 0xFFFFFFFF).head? with
      | some c =>
        let hit := (mine.filter fun r => c.names r.2.1 r.2.2).getLast?
        .error { off := (hit.map (·.1)).getD 0xFFFFFFFF, st := .stagingConflict, field := 0xFFFF }
      | none => .ok (d.arm i d.now false none)
  let armed : Except LoadFail Dev := do sets.foldlM arm (← mine.foldlM one d)
  armed.map fun d => sets.foldl (fun d i => if (d.set i).armed.isSome then d.applySet .none i else d) d

/-- The five passes over the records of a copy; a type that Table IMAGE-3 does not list fails the load first. -/
def Dev.loadCopy (d : Dev) (k : Nat) : Except LoadFail Dev :=
  let recs := withOffsets 0 (d.flash k).recs
  match recs.find? fun r => decide (d.recPass r.2.1 r.2.2 = 0) with
  | some r => .error { off := r.1, st := .invalidField, field := 0xFFFF }
  | none =>
    ([1, 2, 3, 4, 5].foldlM (fun (d : Dev) n => d.loadPass recs n) d).map fun d => d.onImg fun i => { i with cfgUse := some k }

/-- IMAGE_LOAD_FAILED is counted and posted for a copy (R502, R530). -/
def Dev.loadFailed (d : Dev) (k : Nat) (f : LoadFail) : Dev :=
  d.countX 0x260 64 0x3F 7 (k - 2) 1 (nb 4 f.off ++ nb 2 f.st.code ++ nb 2 f.field)

/-- Configure is entered with the configuration loaded (R454, R460, R495, Table IMAGE-4): marked slots are turned on, Iggevo tiles train. -/
def State.enterConfigure (s : State) (d : Dev) : State :=
  let pref := d.setting 4 1 % 2
  let d := d.onPwr fun w => { w with clk := if w.valid.getD pref false && w.failovers == 0 then pref else w.clk }
  let marked := (List.range 64).filter fun t => (d.setting 16 8).testBit t
  let d := marked.foldl (fun d t => (d.chanOn t).onCxl fun c => { c with addHold := c.addHold ++ [t] }) d
  let d := if d.img.cfgUse.isSome then d.audit .imageLoad 0xFF none 0 else d
  let t := s.settle .configure d
  t.onDev fun d => (List.range 64).foldl (fun d t => d.tileStart .configure t) (d.onCtl fun c => { c with
    startProf := Profile.ofCode (d.setting 0 1), startCap := d.setting 2 2, configureT := d.clk.t6, settled := false, coolUntil := none })

/-- A load that no copy completes resets the core into Safe, where the device stays (Table MODE-6, step 12). -/
def State.loadEnds (s : State) (first : Dev) (k : Nat) : State :=
  match first.defaults.loadCopy k with
  | .ok d => s.enterConfigure d
  | .error f =>
    let d := first.loadFailed k f
    let other := 5 - k
    if (d.flash other).valid && d.cfgOk (d.flash other) then
      match d.defaults.loadCopy other with
      | .ok d => s.enterConfigure d
      | .error f => ({ s with dev := d.loadFailed other f } : State).toCoreReset true
    else ({ s with dev := d } : State).toCoreReset true

/-- The loader runs (Table MODE-6, step 3): automatically, or by MODE_SET, which without a valid image applies the factory defaults
(R493). -/
def execImageLoad (dt : Nat) (s : State) : Host.Outcome State Fault Refusal :=
  let s := s.elapse dt
  let d := s.dev
  let asked : Bool := match d.ctl.pend with
    | some q => q.target == .load
    | none => false
  .next (
    if s.mode ≠ .safe ∨ d.heldInSafe ∨ ! (asked || (d.ctl.pend.isNone && d.autoLoads)) then s
    else match d.best 2 d.cfgOk with
      | some k => s.loadEnds d k
      | none => s.enterConfigure d.defaults)

/-! ### Configure -/

/-- The device steps its timebase to its upstream (R223, R457): only in Safe or Configure, while no commit is armed. Every theta measured
moves with it. -/
def execTimebaseStep (dt : Nat) (s : State) : Host.Outcome State Fault Refusal :=
  event dt s fun mode _ d =>
    let armed := (devSet :: List.range 32).any fun i => (d.set i).accepted
    match d.tim.up with
    | some l =>
      if ! (mode = .safe ∨ mode = .configure) ∨ armed ∨ d.tim.stepped ∨ (d.igg l).thetas.isEmpty then d
      else
        let last := (d.igg l).thetas.drop ((d.igg l).thetas.length - 4)
        let step : Int := last.sum / (last.length : Nat)
        let tb : Int := ((d.clk.tb48 : Nat) : Int) - 3 * step
        let d := d.onClk fun c => { c with tb48 := (tb % ((2 ^ 40 * 48 : Nat) : Int)).toNat, slew := 0, slewT := 0 }
        let ig : Tbl Nat Ig := d.ig.map fun x => (x.1, { x.2 with thetas := x.2.thetas.map (· - step) })
        ({ d with ig := ig } : Dev).onTim fun t => { t with stepped := true }
    | none => d

/-- The start profile of the image is committed (R457, Table MODE-6, step 4): with an Iggevo tile listed, once the timebase has
stepped or 1.1 s after power-good no link is a candidate. -/
def execStartProfileCommit (dt : Nat) (s : State) : Host.Outcome State Fault Refusal :=
  event dt s fun mode _ d =>
    let iggevo := (List.range 64).any fun t => d.tileCode t == 3
    let timed := ! iggevo || d.tim.stepped || (d.timeOffers.isEmpty && decide (10 * d.clk.t6 ≥ 11 * s6))
    if mode ≠ .configure ∨ d.ctl.startProf = .none ∨ d.transition ∨ ! timed then d
    else d.onCtl fun c => { c with
      pend := some { target := .toRun c.startProf, epoch := epochAfter d.now, cap := c.startCap }, startProf := .none }

/-- 2 s after Configure tiles no longer join without a service operation (R461). -/
def execConfigureJoinWindowEnd (dt : Nat) (s : State) : Host.Outcome State Fault Refusal :=
  event dt s fun mode _ d =>
    if mode.trains ∧ d.since d.ctl.configureT ≥ 2 * s6 then d.onCtl fun c => { c with settled := true } else d

/-! ### Fatal faults -/

/-- The sequence of R403 after a fatal message: the record is retained and the core is reset into Safe. The restart counts toward R404:
the third within an hour holds until a MODE_SET to Configure. -/
def execFatalFault (dt : Nat) (s : State) : Host.Outcome State Fault Refusal :=
  let s := s.elapse dt
  let f := s.dev.flt
  .next (
    if ! f.fatal ∨ s.mode = .shelf then s
    else
      let c := s.dev.ctl
      let now := s.dev.clk.t6
      let times := if c.fatalTimes.length ≥ 3 then c.fatalTimes else (c.fatalTimes.filter fun t => decide (now - t ≤ 3600 * s6)) ++ [now]
      let kept : Tbl (Nat × Nat) Hist := f.snaps.filter fun e => e.1 == (32, 2)
      let t := s.toCoreReset false
      t.onDev fun d => (d.onCtl fun c => { c with fatalTimes := times }).onFlt fun g => { g with
        status := f.status, snaps := kept, hist := f.hist.drop (f.hist.length - 16), next := f.next, retained := true })

end Sys2Proof.Machine
end

