-- ==== Sys2Proof/Machine/FmApi.lean ====
section
/-! DEFINITION. FM API commands (R292, R293, Table CXLP-5): bindings, port control, requests passed to devices, and FMAPI_REQUEST, which
carries them inside a Bilod frame (R367). The last response is the return code of CXL 3.2 and its payload. -/

namespace Sys2Proof.Machine

/-- FM API return codes (PRESUMED, CXL 3.2). -/
def fmSuccess : Nat := 0
/-- A background operation has started. -/
def fmBackground : Nat := 1
/-- The request's input is invalid. -/
def fmInvalid : Nat := 2
/-- The command is not supported. -/
def fmUnsupported : Nat := 3
/-- The device is busy. -/
def fmBusy : Nat := 6

/-- A source may issue FM API commands (R292): the CCI of a manager link, MCTP, or a Bilod frame. -/
def Dev.fmServes (d : Dev) (src : FmSrc) : Bool := src == .bilod || d.fmSource src

/-- The device answers an FM API command. -/
def Dev.fmAnswer (d : Dev) (code : Nat) (b : Bytes) : Dev := d.onCxl fun c => { c with fmOut := some (code, b) }

/-- An FM API command from a source: another source's CCI serves no FM API command set. -/
def Dev.fmCommand (d : Dev) (src : FmSrc) (act : Dev → Dev) : Dev := if d.fmServes src then act d else d.fmAnswer fmUnsupported []

/-- An FM API row: the device serves it while firmware runs, and the CCI and MCTP in the modes that serve the tunnel. -/
def fmRow (dt : Nat) (src : FmSrc) (s : State) (act : Mode → Profile → Dev → Dev) : Host.Outcome State Fault Refusal :=
  event dt s fun m p d => if m.allServed || (m.adminServed && src == .bilod) then d.fmCommand src (act m p) else d

/-! ### Virtual Switch -/

/-- A change of a binding is staged under the Reach of the VCS and committed alone (R293). -/
def Dev.fmBindings (d : Dev) (vcs vppb : Nat) (item : Option Bytes) : Dev :=
  let i := (d.owner vcs 0xFF).getD devSet
  if ! (d.set i).changes.isEmpty ∨ (d.set i).accepted ∨ (d.reset.get? i).isSome ∨ d.cxl.fmBack.isSome then d.fmAnswer fmBusy []
  else
    let e := d.stage i [({ op := 0x4000, a := vcs, b := vppb }, item)]
    if (e.conflicts i 0xFFFFFFFF).isEmpty then
      ((e.arm i (epochAfter d.now) false none).onCxl fun c => { c with fmBack := some i }).fmAnswer fmBackground []
    else d.fmAnswer fmInvalid []

/-- Bind vPPB, as VPPB_BIND without sharing. -/
def Dev.fmBind (d : Dev) (vcs vppb link ld : Nat) : Dev :=
  let b := nb 2 vcs ++ nb 1 vppb ++ nb 1 0 ++ nb 2 link ++ nb 1 ld ++ nb 1 0 ++ nb 2 0xFFFF
  let c : Ctx := { m := .configure, p := .none, d, f := { mbx := .admin, payload := b } }
  if ld > 0xFF ∨ (firstFail cmdVppbBind.fields c).isSome ∨ (firstFail (cmdVppbBind.state.take 1) c).isSome then d.fmAnswer fmInvalid []
  else d.fmBindings vcs vppb (some b)

/-- Unbind vPPB, as VPPB_UNBIND; in mode 1 a managed removal of the slot starts too (R284, R295). -/
def Dev.fmUnbind (d : Dev) (m : Mode) (vcs vppb mode : Nat) : Dev :=
  let b := nb 2 vcs ++ nb 1 vppb ++ nb 1 mode
  let c : Ctx := { m := .configure, p := .none, d, f := { mbx := .admin, payload := b } }
  if mode > 2 ∨ (firstFail (cmdVppbUnbind false).fields c).isSome then d.fmAnswer fmInvalid []
  else
    let e := d.fmBindings vcs vppb (if mode = 2 then none else some (nb 1 mode))
    match d.binding vcs vppb with
    | some o =>
      if mode = 1 ∧ e.cxl.fmBack.isSome ∧ d.cxl.fmBack.isNone ∧ ! d.hotHas (o.link / 4) false then
        e.hotQueue m { tile := o.link / 4, add := false }
      else e
    | none => e

def execFmApiBindVppb (dt : Nat) (src : FmSrc) (vcs vppb link ld : Nat) (s : State) : Host.Outcome State Fault Refusal :=
  fmRow dt src s fun _ _ d => d.fmBind vcs vppb link ld

def execFmApiUnbindVppb (dt : Nat) (src : FmSrc) (vcs vppb umode : Nat) (s : State) : Host.Outcome State Fault Refusal :=
  fmRow dt src s fun m _ d => d.fmUnbind m vcs vppb umode

/-! ### Physical Switch and devices -/

/-- Physical Port Control (Table CXLP-5): PERST_N, which stays low without slot power-good (R439), and link reset (Table PWR-4). -/
def Dev.fmPort (d : Dev) (p : Profile) (link : Nat) (act : PortControl) : Dev :=
  if ! d.isLink link then d.fmAnswer fmInvalid []
  else
    let t := link / 4
    let d := match act with
      | .assertPerst => d.perstLow t
      | .deassertPerst => if (d.chan t).pg && ! d.pwr.perst.contains t then d.onPwr fun w => { w with perst := w.perst ++ [t] } else d
      | .resetLink => d.anyDown p link
    d.fmAnswer fmSuccess []

def execFmApiPhysicalPortControl (dt : Nat) (src : FmSrc) (link : Nat) (act : PortControl) (s : State) :
    Host.Outcome State Fault Refusal :=
  fmRow dt src s fun _ p d => d.fmPort p link act

/-- A request passed to the device on a link, for an LD or (0xFFFF) the device itself; its answer is the device's. -/
def Dev.fmForward (d : Dev) (link ld : Nat) (body : Bytes) : Dev :=
  if d.isCxl link && (d.port link).up then d.onCxl fun c => { c with fwd := some (link, ld, body), fmOut := none }
  else d.fmAnswer fmInvalid []

def execFmApiMldPortRequest (dt : Nat) (src : FmSrc) (link ld : Nat) (body : List Byte) (s : State) :
    Host.Outcome State Fault Refusal :=
  fmRow dt src s fun _ _ d => d.fmForward link ld body

def execFmApiTunnelledComponent (dt : Nat) (src : FmSrc) (link : Nat) (body : List Byte) (s : State) :
    Host.Outcome State Fault Refusal :=
  fmRow dt src s fun _ _ d => d.fmForward link 0xFFFF body

def execFmApiUnsupportedSet (dt : Nat) (src : FmSrc) (_opcode : Nat) (s : State) : Host.Outcome State Fault Refusal :=
  fmRow dt src s fun _ _ d => d.fmAnswer fmUnsupported []

/-! ### FMAPI_REQUEST (R367) -/

/-- A port in Get Physical Port State: link role and LTSSM state (Table CXLP-5); the bytes that only CXL 3.2 defines are free
(assumption 12). -/
def Dev.fmPortState (d : Dev) (l : Nat) : Bytes :=
  let free := (Sys2Proof.Config.freeWord (d.free + l)).toNat
  nb 1 l ++ nb 1 (d.port l).role ++ nb 9 free ++ nb 1 (d.port l).ltssm ++ nb 4 (free / 2 ^ 72)

/-- The FM API command that a frame carries acts; opcodes and layouts are PRESUMED (CXL 3.2), with the message header of 12 bytes in
front: bytes 3–4 the opcode. -/
def Dev.fmRun (d : Dev) (m : Mode) (p : Profile) (op : Nat) (b : Bytes) : Dev :=
  match op with
  | 0x5101 => d.fmAnswer fmSuccess (nb 1 (byteAt b 0) ++ zeros 3 ++ (List.range (byteAt b 0)).flatMap fun i => d.fmPortState (byteAt b (1 + i)))
  | 0x5102 => match byteAt b 1 with
    | 0 => d.fmPort p (byteAt b 0) .assertPerst
    | 1 => d.fmPort p (byteAt b 0) .deassertPerst
    | 2 => d.fmPort p (byteAt b 0) .resetLink
    | _ => d.fmAnswer fmInvalid []
  | 0x5100 | 0x5200 => d.fmAnswer fmSuccess (wordBytes 48 (Sys2Proof.Config.freeWord d.free))
  | 0x5201 => d.fmBind (byteAt b 0) (byteAt b 1) (byteAt b 2) (if leN b 4 2 = 0xFFFF then 0xFF else leN b 4 2)
  | 0x5202 => d.fmUnbind m (byteAt b 0) (byteAt b 1) (byteAt b 2 % 16)
  | 0x5300 | 0x5301 | 0x5302 => d.fmForward (byteAt b 0) (leN b 2 2) b
  | _ => if op / 256 = 0x54 ∨ op / 256 = 0x56 then d.fmForward (byteAt b 0) 0xFFFF b else d.fmAnswer fmUnsupported []

/-- FMAPI_REQUEST: the response is the FM API response message. A request that a device answers carries no payload of this device. -/
def cmdFmapiRequest : Cmd where
  op := 0xD000
  len := 12
  ext := fun c => c.f.payload.length - 12
  src := { role := some 2 }
  fields := [need 5 fun c => decide (12 + leN c.f.payload 5 3 % 2 ^ 21 ≤ c.f.payload.length)]
  body := fun c =>
    let op := c.u16 3
    let d := c.d.fmRun c.m c.p op ((c.f.payload.drop 12).take (leN c.f.payload 5 3 % 2 ^ 21))
    let (code, b) := d.cxl.fmOut.getD (fmSuccess, [])
    ({ d with free := d.free + 256 },
     .done (nb 1 1 ++ nb 1 (c.u8 1) ++ nb 1 0 ++ nb 2 op ++ nb 3 b.length ++ nb 2 code ++ nb 2 0 ++ b))

def execFmapiRequest (dt : Nat) (f : Frame) (s : State) : Host.Outcome State Fault Refusal :=
  bilod cmdFmapiRequest dt f s

end Sys2Proof.Machine
end

