-- ==== Sys2Proof/Machine/Jtag.lean ====
section
/-! DEFINITION. The TAP (R480, R481): the JTAG instructions and its reset. The TAP is on the core rails, so nothing acts in Shelf. -/

namespace Sys2Proof.Machine

/-- The value that IDCODE reads (R480). -/
def jtagId : Nat := 0xB6410A9B

/-- An instruction is in force, with what its data register captured. -/
def Dev.jtagSet (d : Dev) (j : Jtag) (dr : Nat) : Dev := d.onSide fun x => { x with jtag := j, jtagDr := dr }

/-- BYPASS, whose register captures 0 (PRESUMED, IEEE 1149.1). -/
def Dev.jtagBypass (d : Dev) : Dev := d.jtagSet .bypass 0

/-- The effect of a JTAG instruction, in every mode with the core rails on. -/
def jtagRow (dt : Nat) (s : State) (g : Profile → Dev → Dev) : Host.Outcome State Fault Refusal :=
  event dt s fun m p d => if m = .shelf then d else g p d

/-- An instruction that takes the scanned pins from their functions: BYPASS in Run-Secure, and elsewhere every link on those pins goes
down (R481). -/
def pinRow (dt : Nat) (j : Jtag) (s : State) : Host.Outcome State Fault Refusal :=
  jtagRow dt s fun p d =>
    if p.isSecure then d.jtagBypass
    else
      let d := d.jtagSet j 0
      d.links.foldl (fun d l => d.anyDown p l) d

/-- BYPASS. -/
def execBypass (dt : Nat) (s : State) : Host.Outcome State Fault Refusal := jtagRow dt s fun _ d => d.jtagBypass

/-- IDCODE. -/
def execIdcode (dt : Nat) (s : State) : Host.Outcome State Fault Refusal := jtagRow dt s fun _ d => d.jtagSet .idcode jtagId

/-- SAMPLE/PRELOAD: the levels of the scanned pins are free (assumption 12). -/
def execSamplePreload (dt : Nat) (s : State) : Host.Outcome State Fault Refusal :=
  jtagRow dt s fun _ d =>
    let (x, d) := d.draw
    d.jtagSet .samplePreload x.toNat

/-- EXTEST. -/
def execExtest (dt : Nat) (s : State) : Host.Outcome State Fault Refusal := pinRow dt .extest s
/-- EXTEST_PULSE. -/
def execExtestPulse (dt : Nat) (s : State) : Host.Outcome State Fault Refusal := pinRow dt .extestPulse s
/-- EXTEST_TRAIN. -/
def execExtestTrain (dt : Nat) (s : State) : Host.Outcome State Fault Refusal := pinRow dt .extestTrain s
/-- CLAMP. -/
def execClamp (dt : Nat) (s : State) : Host.Outcome State Fault Refusal := pinRow dt .clamp s
/-- HIGHZ. -/
def execHighz (dt : Nat) (s : State) : Host.Outcome State Fault Refusal := pinRow dt .highz s

/-- A private debug instruction: BYPASS until DEBUG_ENABLE and always in Run-Secure; what one does after it the manual does not say. -/
def execPrivateDebugInstruction (dt code : Nat) (s : State) : Host.Outcome State Fault Refusal :=
  if s.mode ≠ .shelf ∧ (s.elapse dt).dev.sec.debug ∧ ! s.profile.isSecure then .refused (.privateDebugUndefined code)
  else jtagRow dt s fun _ d => d.jtagBypass

/-- The TAP goes to Test-Logic-Reset, and nothing else changes (R481). The instruction in force is then IDCODE (PRESUMED, IEEE 1149.1). -/
def execTapReset (dt : Nat) (s : State) : Host.Outcome State Fault Refusal := jtagRow dt s fun _ d => d.jtagSet .idcode 0

end Sys2Proof.Machine
end

