-- ==== Sys2Proof/Machine/Tasks.lean ====
section
/-! DEFINITION. The table SRAM scrub (R429) and network requests that receive no response (R328). -/

namespace Sys2Proof.Machine

/-- What the scrub does with an entry (R429): a correctable ART entry is corrected and logged, an uncorrectable one costs its bank the
vote of R86 where another bank can vote, an uncorrectable table of the fabric core is fatal, and SRAM of an MPC fails that MPC. -/
def Dev.scrubFound (d : Dev) : TableScrub → Dev
  | .clean => d
  | .corrected bank rule => d.sendFault 1 bank 0x10 0 0x3F (rule % 65536)
  | .artUncorrectable bank _ =>
    if ! d.art.up.getD bank false then d
    else if (List.range 4).any fun k => decide (k ≠ bank) && d.art.up.getD k false then d.artBankOut bank
    else d.sendFault 1 bank 0x12 1 0x3F 0
  | .fabricCore table => d.sendFault 14 0 1 2 0x3F (table % 16)
  | .mpc k =>
    if k ≠ d.mgmt.active then (if d.mgmt.standby ≠ .outOfService then d.standbyFails else d)
    else if d.standbyCan then d.takeover 1 else d.restartMpc

/-- A pass of the table SRAM scrub, the Percolator's task 1 (R427, R429). -/
def execTableScrub (dt : Nat) (found : TableScrub) (s : State) : Host.Outcome State Fault Refusal :=
  event dt s fun mode _ d => if mode.adminServed then (d.taskPass 1).scrubFound found else d

/-- A network request has had no response for 10 µs and ends as failed (R328): a head whose ART lookup was lost is evaluated again after
the back-off of R46. Other requests of a stop leave nothing behind that a later one sees. -/
def execNocRequestTimeout (dt _stop : Nat) (art : Option (Nat × Nat)) (s : State) : Host.Outcome State Fault Refusal :=
  event dt s fun m _ d =>
    match art with
    | some (link, cls) => match d.head m link cls with
      | some x => d.wait x
      | none => d
    | none => d

end Sys2Proof.Machine
end

