-- ==== Sys2Proof/Machine/Dispatch.lean ====
section
/-! DEFINITION. The effect of each command of the opcode table on everything but the waiting commands. -/

namespace Sys2Proof.Machine

def exec (i : Instr) (s : State) : Host.Outcome State Fault Refusal :=
  match i with
  | .modeGet dt f => Sys2Proof.Machine.execModeGet dt f s
  | .modeSet dt f => Sys2Proof.Machine.execModeSet dt f s
  | .serviceBegin dt f => Sys2Proof.Machine.execServiceBegin dt f s
  | .serviceEnd dt f => Sys2Proof.Machine.execServiceEnd dt f s
  | .contractSet dt f => Sys2Proof.Machine.execContractSet dt f s
  | .contractGet dt f => Sys2Proof.Machine.execContractGet dt f s
  | .contractClear dt f => Sys2Proof.Machine.execContractClear dt f s
  | .expeditedReserve dt f => Sys2Proof.Machine.execExpeditedReserve dt f s
  | .profileSet dt f => Sys2Proof.Machine.execProfileSet dt f s
  | .profileGet dt f => Sys2Proof.Machine.execProfileGet dt f s
  | .pathReserve dt f => Sys2Proof.Machine.execPathReserve dt f s
  | .pathRelease dt f => Sys2Proof.Machine.execPathRelease dt f s
  | .calendarGet dt f => Sys2Proof.Machine.execCalendarGet dt f s
  | .weirStatusGet dt f => Sys2Proof.Machine.execWeirStatusGet dt f s
  | .ruleWrite dt f => Sys2Proof.Machine.execRuleWrite dt f s
  | .ruleRead dt f => Sys2Proof.Machine.execRuleRead dt f s
  | .ruleClear dt f => Sys2Proof.Machine.execRuleClear dt f s
  | .rulesetStatusGet dt f => Sys2Proof.Machine.execRulesetStatusGet dt f s
  | .ruleLookup dt f => Sys2Proof.Machine.execRuleLookup dt f s
  | .defaultMapSet dt f => Sys2Proof.Machine.execDefaultMapSet dt f s
  | .defaultMapGet dt f => Sys2Proof.Machine.execDefaultMapGet dt f s
  | .gateWindowSet dt f => Sys2Proof.Machine.execGateWindowSet dt f s
  | .gateModeSet dt f => Sys2Proof.Machine.execGateModeSet dt f s
  | .gateGet dt f => Sys2Proof.Machine.execGateGet dt f s
  | .fabricStatusGet dt f => Sys2Proof.Machine.execFabricStatusGet dt f s
  | .mcastGroupSet dt f => Sys2Proof.Machine.execMcastGroupSet dt f s
  | .mcastGroupGet dt f => Sys2Proof.Machine.execMcastGroupGet dt f s
  | .replicateWrite dt f => Sys2Proof.Machine.execReplicateWrite dt f s
  | .basinLayoutSet dt f => Sys2Proof.Machine.execBasinLayoutSet dt f s
  | .basinStatusGet dt f => Sys2Proof.Machine.execBasinStatusGet dt f s
  | .basinMemoryBind dt f => Sys2Proof.Machine.execBasinMemoryBind dt f s
  | .basinMemoryGet dt f => Sys2Proof.Machine.execBasinMemoryGet dt f s
  | .basinFill dt f => Sys2Proof.Machine.execBasinFill dt f s
  | .queueThresholdSet dt f => Sys2Proof.Machine.execQueueThresholdSet dt f s
  | .queueStatusGet dt f => Sys2Proof.Machine.execQueueStatusGet dt f s
  | .bufferStatusGet dt f => Sys2Proof.Machine.execBufferStatusGet dt f s
  | .schedWeightSet dt f => Sys2Proof.Machine.execSchedWeightSet dt f s
  | .shaperSet dt f => Sys2Proof.Machine.execShaperSet dt f s
  | .schedGet dt f => Sys2Proof.Machine.execSchedGet dt f s
  | .schedStatusGet dt f => Sys2Proof.Machine.execSchedStatusGet dt f s
  | .fabricFlush dt f => Sys2Proof.Machine.execFabricFlush dt f s
  | .aliasWindowSet dt f => Sys2Proof.Machine.execAliasWindowSet dt f s
  | .aliasWindowGet dt f => Sys2Proof.Machine.execAliasWindowGet dt f s
  | .resvGranuleSet dt f => Sys2Proof.Machine.execResvGranuleSet dt f s
  | .orderStatusGet dt f => Sys2Proof.Machine.execOrderStatusGet dt f s
  | .resvStatusGet dt f => Sys2Proof.Machine.execResvStatusGet dt f s
  | .iggevoDeviceSet dt f => Sys2Proof.Machine.execIggevoDeviceSet dt f s
  | .iggevoLinkSet dt f => Sys2Proof.Machine.execIggevoLinkSet dt f s
  | .iggevoLinkStatusGet dt f => Sys2Proof.Machine.execIggevoLinkStatusGet dt f s
  | .iggevoLaneWidthSet dt f => Sys2Proof.Machine.execIggevoLaneWidthSet dt f s
  | .iggevoRetrain dt f => Sys2Proof.Machine.execIggevoRetrain dt f s
  | .timeStatusGet dt f => Sys2Proof.Machine.execTimeStatusGet dt f s
  | .bridgeLinkSet dt f => Sys2Proof.Machine.execBridgeLinkSet dt f s
  | .bridgeLinkGet dt f => Sys2Proof.Machine.execBridgeLinkGet dt f s
  | .lockStatusGet dt f => Sys2Proof.Machine.execLockStatusGet dt f s
  | .lockRelease dt f => Sys2Proof.Machine.execLockRelease dt f s
  | .bridgeStatusGet dt f => Sys2Proof.Machine.execBridgeStatusGet dt f s
  | .laneStatusGet dt f => Sys2Proof.Machine.execLaneStatusGet dt f s
  | .laneConfigSet dt f => Sys2Proof.Machine.execLaneConfigSet dt f s
  | .laneSpareSet dt f => Sys2Proof.Machine.execLaneSpareSet dt f s
  | .laneEyeScan dt f => Sys2Proof.Machine.execLaneEyeScan dt f s
  | .laneEyeGet dt f => Sys2Proof.Machine.execLaneEyeGet dt f s
  | .laneTestSet dt f => Sys2Proof.Machine.execLaneTestSet dt f s
  | .laneTestGet dt f => Sys2Proof.Machine.execLaneTestGet dt f s
  | .laneConfigGet dt f => Sys2Proof.Machine.execLaneConfigGet dt f s
  | .tileConfigSet dt f => Sys2Proof.Machine.execTileConfigSet dt f s
  | .portConfigSet dt f => Sys2Proof.Machine.execPortConfigSet dt f s
  | .portStatusGet dt f => Sys2Proof.Machine.execPortStatusGet dt f s
  | .hotplugRequest dt f => Sys2Proof.Machine.execHotplugRequest dt f s
  | .ideKeyRefresh dt f => Sys2Proof.Machine.execIdeKeyRefresh dt f s
  | .ideStatusGet dt f => Sys2Proof.Machine.execIdeStatusGet dt f s
  | .vppbBind dt f => Sys2Proof.Machine.execVppbBind dt f s
  | .vppbUnbind dt f => Sys2Proof.Machine.execVppbUnbind dt f s
  | .vcsGet dt f => Sys2Proof.Machine.execVcsGet dt f s
  | .ldCoherenceSet dt f => Sys2Proof.Machine.execLdCoherenceSet dt f s
  | .biRouteSet dt f => Sys2Proof.Machine.execBiRouteSet dt f s
  | .reachCountSet dt f => Sys2Proof.Machine.execReachCountSet dt f s
  | .reachGet dt f => Sys2Proof.Machine.execReachGet dt f s
  | .reachAssign dt f => Sys2Proof.Machine.execReachAssign dt f s
  | .reachMapGet dt f => Sys2Proof.Machine.execReachMapGet dt f s
  | .reachReset dt f => Sys2Proof.Machine.execReachReset dt f s
  | .reachStatusGet dt f => Sys2Proof.Machine.execReachStatusGet dt f s
  | .nocStatsGet dt f => Sys2Proof.Machine.execNocStatsGet dt f s
  | .nocStatsClear dt f => Sys2Proof.Machine.execNocStatsClear dt f s
  | .domainStatusGet dt f => Sys2Proof.Machine.execDomainStatusGet dt f s
  | .identify dt f => Sys2Proof.Machine.execIdentify dt f s
  | .eventRead dt f => Sys2Proof.Machine.execEventRead dt f s
  | .resultGet dt f => Sys2Proof.Machine.execResultGet dt f s
  | .commit dt f => Sys2Proof.Machine.execCommit dt f s
  | .rulesetCommit dt f => Sys2Proof.Machine.execRulesetCommit dt f s
  | .stagingDiscard dt f => Sys2Proof.Machine.execStagingDiscard dt f s
  | .stagingStatusGet dt f => Sys2Proof.Machine.execStagingStatusGet dt f s
  | .mpcStatusGet dt f => Sys2Proof.Machine.execMpcStatusGet dt f s
  | .mpcSwitchover dt f => Sys2Proof.Machine.execMpcSwitchover dt f s
  | .fmapiRequest dt f => Sys2Proof.Machine.execFmapiRequest dt f s
  | .securityStatusGet dt f => Sys2Proof.Machine.execSecurityStatusGet dt f s
  | .sessionChallenge dt f => Sys2Proof.Machine.execSessionChallenge dt f s
  | .openSession dt f => Sys2Proof.Machine.execOpenSession dt f s
  | .closeSession dt f => Sys2Proof.Machine.execCloseSession dt f s
  | .credentialSet dt f => Sys2Proof.Machine.execCredentialSet dt f s
  | .credentialGet dt f => Sys2Proof.Machine.execCredentialGet dt f s
  | .selfTestRun dt f => Sys2Proof.Machine.execSelfTestRun dt f s
  | .zeroize dt f => Sys2Proof.Machine.execZeroize dt f s
  | .auditRead dt f => Sys2Proof.Machine.execAuditRead dt f s
  | .debugEnable dt f => Sys2Proof.Machine.execDebugEnable dt f s
  | .faultStatusGet dt f => Sys2Proof.Machine.execFaultStatusGet dt f s
  | .faultStatusClear dt f => Sys2Proof.Machine.execFaultStatusClear dt f s
  | .faultSnapshotGet dt f => Sys2Proof.Machine.execFaultSnapshotGet dt f s
  | .faultHistoryRead dt f => Sys2Proof.Machine.execFaultHistoryRead dt f s
  | .faultRedundancyGet dt f => Sys2Proof.Machine.execFaultRedundancyGet dt f s
  | .faultLogRead dt f => Sys2Proof.Machine.execFaultLogRead dt f s
  | .faultCountGet dt f => Sys2Proof.Machine.execFaultCountGet dt f s
  | .faultInject dt f => Sys2Proof.Machine.execFaultInject dt f s
  | .counterConfigSet dt f => Sys2Proof.Machine.execCounterConfigSet dt f s
  | .counterConfigGet dt f => Sys2Proof.Machine.execCounterConfigGet dt f s
  | .counterRead dt f => Sys2Proof.Machine.execCounterRead dt f s
  | .counterWrite dt f => Sys2Proof.Machine.execCounterWrite dt f s
  | .tallyRead dt f => Sys2Proof.Machine.execTallyRead dt f s
  | .bwWindowSet dt f => Sys2Proof.Machine.execBwWindowSet dt f s
  | .bwWindowGet dt f => Sys2Proof.Machine.execBwWindowGet dt f s
  | .sampleRead dt f => Sys2Proof.Machine.execSampleRead dt f s
  | .traceSet dt f => Sys2Proof.Machine.execTraceSet dt f s
  | .traceRead dt f => Sys2Proof.Machine.execTraceRead dt f s
  | .telemetrySet dt f => Sys2Proof.Machine.execTelemetrySet dt f s
  | .percolatorSet dt f => Sys2Proof.Machine.execPercolatorSet dt f s
  | .percolatorStatusGet dt f => Sys2Proof.Machine.execPercolatorStatusGet dt f s
  | .traceMarker dt f => Sys2Proof.Machine.execTraceMarker dt f s
  | .slotStatusGet dt f => Sys2Proof.Machine.execSlotStatusGet dt f s
  | .slotConfigSet dt f => Sys2Proof.Machine.execSlotConfigSet dt f s
  | .slotConfigGet dt f => Sys2Proof.Machine.execSlotConfigGet dt f s
  | .slotResetLatch dt f => Sys2Proof.Machine.execSlotResetLatch dt f s
  | .slotFeedSelect dt f => Sys2Proof.Machine.execSlotFeedSelect dt f s
  | .feedStatusGet dt f => Sys2Proof.Machine.execFeedStatusGet dt f s
  | .supplyStatusGet dt f => Sys2Proof.Machine.execSupplyStatusGet dt f s
  | .clockStatusGet dt f => Sys2Proof.Machine.execClockStatusGet dt f s
  | .clockSelect dt f => Sys2Proof.Machine.execClockSelect dt f s
  | .shelfEnter dt f => Sys2Proof.Machine.execShelfEnter dt f s
  | .imageStatusGet dt f => Sys2Proof.Machine.execImageStatusGet dt f s
  | .saveImage dt f => Sys2Proof.Machine.execSaveImage dt f s
  | .imageWrite dt f => Sys2Proof.Machine.execImageWrite dt f s
  | .imageFinish dt f => Sys2Proof.Machine.execImageFinish dt f s
  | .imageInvalidate dt f => Sys2Proof.Machine.execImageInvalidate dt f s
  | .securityVersionAdvance dt f => Sys2Proof.Machine.execSecurityVersionAdvance dt f s
  | .undefinedOpcode dt opcode f => Sys2Proof.Machine.execUndefinedOpcode dt opcode f s
  | .fmApiTunnelFrame dt src opcode f => Sys2Proof.Machine.execFmApiTunnelFrame dt src opcode f s
  | .fmApiBindVppb dt src vcs vppb link ld => Sys2Proof.Machine.execFmApiBindVppb dt src vcs vppb link ld s
  | .fmApiUnbindVppb dt src vcs vppb umode => Sys2Proof.Machine.execFmApiUnbindVppb dt src vcs vppb umode s
  | .fmApiPhysicalPortControl dt src link act => Sys2Proof.Machine.execFmApiPhysicalPortControl dt src link act s
  | .fmApiMldPortRequest dt src link ld body => Sys2Proof.Machine.execFmApiMldPortRequest dt src link ld body s
  | .fmApiTunnelledComponent dt src link body => Sys2Proof.Machine.execFmApiTunnelledComponent dt src link body s
  | .fmApiUnsupportedSet dt src opcode => Sys2Proof.Machine.execFmApiUnsupportedSet dt src opcode s
  | .ring dt v => Sys2Proof.Machine.execRing dt v s
  | .next dt v => Sys2Proof.Machine.execNext dt v s
  | .drop dt v => Sys2Proof.Machine.execDrop dt v s
  | .claim dt v => Sys2Proof.Machine.execClaim dt v s
  | .release dt v => Sys2Proof.Machine.execRelease dt v s
  | .registerWrite dt v off width value => Sys2Proof.Machine.execRegisterWrite dt v off width value s
  | .claimTimeout dt r => Sys2Proof.Machine.execClaimTimeout dt r s
  | .commandDone dt mb tag => Sys2Proof.Machine.execCommandDone dt mb tag s
  | .mctpBilodRequest dt opcode f whole => Sys2Proof.Machine.execMctpBilodRequest dt opcode f whole s
  | .mctpControlMessage dt mtype cmd eid pecOk => Sys2Proof.Machine.execMctpControlMessage dt mtype cmd eid pecOk s
  | .i3cAddressAssign dt addr setdasa staticAddr => Sys2Proof.Machine.execI3cAddressAssign dt addr setdasa staticAddr s
  | .i3cBusReset dt => Sys2Proof.Machine.execI3cBusReset dt s
  | .spdmRequest dt port req => Sys2Proof.Machine.execSpdmRequest dt port req s
  | .spiReadPage dt off len crcOk extra => Sys2Proof.Machine.execSpiReadPage dt off len crcOk extra s
  | .spiWritePage dt off data crcOk extra => Sys2Proof.Machine.execSpiWritePage dt off data crcOk extra s
  | .spiReadSbStatus dt crcOk extra => Sys2Proof.Machine.execSpiReadSbStatus dt crcOk extra s
  | .spiFormatError dt => Sys2Proof.Machine.execSpiFormatError dt s
  | .spiPartialFrame dt => Sys2Proof.Machine.execSpiPartialFrame dt s
  | .uartCharacter dt ch stop => Sys2Proof.Machine.execUartCharacter dt ch stop s
  | .uartBreak dt => Sys2Proof.Machine.execUartBreak dt s
  | .bypass dt => Sys2Proof.Machine.execBypass dt s
  | .idcode dt => Sys2Proof.Machine.execIdcode dt s
  | .samplePreload dt => Sys2Proof.Machine.execSamplePreload dt s
  | .extest dt => Sys2Proof.Machine.execExtest dt s
  | .extestPulse dt => Sys2Proof.Machine.execExtestPulse dt s
  | .extestTrain dt => Sys2Proof.Machine.execExtestTrain dt s
  | .clamp dt => Sys2Proof.Machine.execClamp dt s
  | .highz dt => Sys2Proof.Machine.execHighz dt s
  | .privateDebugInstruction dt code => Sys2Proof.Machine.execPrivateDebugInstruction dt code s
  | .tapReset dt => Sys2Proof.Machine.execTapReset dt s
  | .sidebandScan dt inputs signature => Sys2Proof.Machine.execSidebandScan dt inputs signature s
  | .presenceInserted dt t => Sys2Proof.Machine.execPresenceInserted dt t s
  | .presenceLost dt t => Sys2Proof.Machine.execPresenceLost dt t s
  | .attentionButtonPressed dt t => Sys2Proof.Machine.execAttentionButtonPressed dt t s
  | .attentionButtonReleased dt t => Sys2Proof.Machine.execAttentionButtonReleased dt t s
  | .chainFault dt => Sys2Proof.Machine.execChainFault dt s
  | .chainFaultEnd dt => Sys2Proof.Machine.execChainFaultEnd dt s
  | .indicatorBlink dt => Sys2Proof.Machine.execIndicatorBlink dt s
  | .tamperEvent dt cause => Sys2Proof.Machine.execTamperEvent dt cause s
  | .shelfTamperSample dt low => Sys2Proof.Machine.execShelfTamperSample dt low s
  | .stbyWake dt heldNs => Sys2Proof.Machine.execStbyWake dt heldNs s
  | .vstbyPowerOn dt => Sys2Proof.Machine.execVstbyPowerOn dt s
  | .vstbyLoss dt => Sys2Proof.Machine.execVstbyLoss dt s
  | .powerGood dt railsBad => Sys2Proof.Machine.execPowerGood dt railsBad s
  | .resetNAssert dt heldNs => Sys2Proof.Machine.execResetNAssert dt heldNs s
  | .railRecovered dt rail => Sys2Proof.Machine.execRailRecovered dt rail s
  | .coreRailsOff dt => Sys2Proof.Machine.execCoreRailsOff dt s
  | .supplyOutOfRange dt rail lastedNs => Sys2Proof.Machine.execSupplyOutOfRange dt rail lastedNs s
  | .entropyStartupDone dt passed => Sys2Proof.Machine.execEntropyStartupDone dt passed s
  | .entropyTestFail dt => Sys2Proof.Machine.execEntropyTestFail dt s
  | .drbgReseed dt healthOk => Sys2Proof.Machine.execDrbgReseed dt healthOk s
  | .safeEntry dt boot => Sys2Proof.Machine.execSafeEntry dt boot s
  | .imageLoad dt => Sys2Proof.Machine.execImageLoad dt s
  | .timebaseStep dt => Sys2Proof.Machine.execTimebaseStep dt s
  | .startProfileCommit dt => Sys2Proof.Machine.execStartProfileCommit dt s
  | .configureJoinWindowEnd dt => Sys2Proof.Machine.execConfigureJoinWindowEnd dt s
  | .perstRelease dt t => Sys2Proof.Machine.execPerstRelease dt t s
  | .commitEpoch dt => Sys2Proof.Machine.execCommitEpoch dt s
  | .resyncStart dt set => Sys2Proof.Machine.execResyncStart dt set s
  | .resyncDone dt set => Sys2Proof.Machine.execResyncDone dt set s
  | .configureDrainComplete dt => Sys2Proof.Machine.execConfigureDrainComplete dt s
  | .diagnosticTransitionDone dt testsOk => Sys2Proof.Machine.execDiagnosticTransitionDone dt testsOk s
  | .serviceOpComplete dt ok => Sys2Proof.Machine.execServiceOpComplete dt ok s
  | .ingressArrival dt m => Sys2Proof.Machine.execIngressArrival dt m s
  | .weirEvaluate dt tile => Sys2Proof.Machine.execWeirEvaluate dt tile s
  | .artLookupAnswer dt tile r idx a b third link cls => Sys2Proof.Machine.execArtLookupAnswer dt tile r idx a b third link cls s
  | .expeditedDemoted dt link => Sys2Proof.Machine.execExpeditedDemoted dt link s
  | .selfGeneratedAdmission dt src => Sys2Proof.Machine.execSelfGeneratedAdmission dt src s
  | .pressureRecompute dt => Sys2Proof.Machine.execPressureRecompute dt s
  | .queueStateBroadcast dt => Sys2Proof.Machine.execQueueStateBroadcast dt s
  | .tilePark dt t => Sys2Proof.Machine.execTilePark dt t s
  | .tileUnpark dt t => Sys2Proof.Machine.execTileUnpark dt t s
  | .stageTransfer dt plane stage => Sys2Proof.Machine.execStageTransfer dt plane stage s
  | .cellArrival dt id check => Sys2Proof.Machine.execCellArrival dt id check s
  | .lockChamberRelease dt dest => Sys2Proof.Machine.execLockChamberRelease dt dest s
  | .lockAck dt dest => Sys2Proof.Machine.execLockAck dt dest s
  | .seqMissing dt src dest space seq => Sys2Proof.Machine.execSeqMissing dt src dest space seq s
  | .basinReturn dt link q => Sys2Proof.Machine.execBasinReturn dt link q s
  | .basinCellLost dt id => Sys2Proof.Machine.execBasinCellLost dt id s
  | .mcastAggregate dt tracker => Sys2Proof.Machine.execMcastAggregate dt tracker s
  | .planeLost dt p builtInTestFailed => Sys2Proof.Machine.execPlaneLost dt p builtInTestFailed s
  | .patternEpoch dt => Sys2Proof.Machine.execPatternEpoch dt s
  | .patternChangeTimeout dt => Sys2Proof.Machine.execPatternChangeTimeout dt s
  | .transmitUnit dt link => Sys2Proof.Machine.execTransmitUnit dt link s
  | .egressDeparture dt link id => Sys2Proof.Machine.execEgressDeparture dt link id s
  | .shaperRefill dt link => Sys2Proof.Machine.execShaperRefill dt link s
  | .egressStall dt link => Sys2Proof.Machine.execEgressStall dt link s
  | .basinSlot dt stack => Sys2Proof.Machine.execBasinSlot dt stack s
  | .basinMemoryAccess dt port id => Sys2Proof.Machine.execBasinMemoryAccess dt port id s
  | .basinAtomicop dt port id => Sys2Proof.Machine.execBasinAtomicop dt port id s
  | .dredgerScrub dt stack line found => Sys2Proof.Machine.execDredgerScrub dt stack line found s
  | .stackLost dt stack cause => Sys2Proof.Machine.execStackLost dt stack cause s
  | .basinGibCleared dt g => Sys2Proof.Machine.execBasinGibCleared dt g s
  | .fabricFlushRead dt link => Sys2Proof.Machine.execFabricFlushRead dt link s
  | .flushComplete dt id => Sys2Proof.Machine.execFlushComplete dt id s
  | .flushTimeout dt id => Sys2Proof.Machine.execFlushTimeout dt id s
  | .monitorAgeExpiry dt => Sys2Proof.Machine.execMonitorAgeExpiry dt s
  | .statusPageRead dt link window => Sys2Proof.Machine.execStatusPageRead dt link window s
  | .flitReceived dt link fl => Sys2Proof.Machine.execFlitReceived dt link fl s
  | .ackTimer dt link => Sys2Proof.Machine.execAckTimer dt link s
  | .replayRequestTimeout dt link => Sys2Proof.Machine.execReplayRequestTimeout dt link s
  | .retrain dt link cause => Sys2Proof.Machine.execRetrain dt link cause s
  | .linkDown dt link cause => Sys2Proof.Machine.execLinkDown dt link cause s
  | .linkRecordReceived dt link rec rx16 => Sys2Proof.Machine.execLinkRecordReceived dt link rec rx16 s
  | .exchangeComplete dt link => Sys2Proof.Machine.execExchangeComplete dt link s
  | .exchangeFailed dt link => Sys2Proof.Machine.execExchangeFailed dt link s
  | .timeFlitSend dt link => Sys2Proof.Machine.execTimeFlitSend dt link s
  | .timeFlitReceived dt link rec rx16 => Sys2Proof.Machine.execTimeFlitReceived dt link rec rx16 s
  | .timeFlitMissing dt link => Sys2Proof.Machine.execTimeFlitMissing dt link s
  | .upstreamSelect dt => Sys2Proof.Machine.execUpstreamSelect dt s
  | .laneChangeAct dt link transmit => Sys2Proof.Machine.execLaneChangeAct dt link transmit s
  | .detectComplete dt link lane8Los anyData => Sys2Proof.Machine.execDetectComplete dt link lane8Los anyData s
  | .detectTimeout dt link => Sys2Proof.Machine.execDetectTimeout dt link s
  | .patternComplete dt link pass inverted => Sys2Proof.Machine.execPatternComplete dt link pass inverted s
  | .amReceived dt link lane am => Sys2Proof.Machine.execAmReceived dt link lane am s
  | .lockComplete dt link => Sys2Proof.Machine.execLockComplete dt link s
  | .lossOfSignal dt tile lane asserted => Sys2Proof.Machine.execLossOfSignal dt tile lane asserted s
  | .towpathLockLost dt link => Sys2Proof.Machine.execTowpathLockLost dt link s
  | .laneFailing dt tile lane row => Sys2Proof.Machine.execLaneFailing dt tile lane row s
  | .subReady dt link => Sys2Proof.Machine.execSubReady dt link s
  | .substitutionTimeout dt link => Sys2Proof.Machine.execSubstitutionTimeout dt link s
  | .l0pRequest dt link width => Sys2Proof.Machine.execL0pRequest dt link width s
  | .l0pNarrow dt link => Sys2Proof.Machine.execL0pNarrow dt link s
  | .l0pWiden dt link => Sys2Proof.Machine.execL0pWiden dt link s
  | .cxlLinkTrained dt link tr => Sys2Proof.Machine.execCxlLinkTrained dt link tr s
  | .adaptationStep dt tile lane signs => Sys2Proof.Machine.execAdaptationStep dt tile lane signs s
  | .offsetRecalStep dt tile lane => Sys2Proof.Machine.execOffsetRecalStep dt tile lane s
  | .eyeMonitorMeasure dt tile lane h w => Sys2Proof.Machine.execEyeMonitorMeasure dt tile lane h w s
  | .laneMarginRequest dt link lane timing up steps => Sys2Proof.Machine.execLaneMarginRequest dt link lane timing up steps s
  | .eyeScanDone dt tile lane counts => Sys2Proof.Machine.execEyeScanDone dt tile lane counts s
  | .configRequest dt link fn off wr => Sys2Proof.Machine.execConfigRequest dt link fn off wr s
  | .hostPowerControlWrite dt vcs vppb on => Sys2Proof.Machine.execHostPowerControlWrite dt vcs vppb on s
  | .removeTimeout dt t => Sys2Proof.Machine.execRemoveTimeout dt t s
  | .hotplugAddFailed dt t => Sys2Proof.Machine.execHotplugAddFailed dt t s
  | .ideEstablished dt link => Sys2Proof.Machine.execIdeEstablished dt link s
  | .ideRefreshDue dt link => Sys2Proof.Machine.execIdeRefreshDue dt link s
  | .ideRefreshFailed dt link => Sys2Proof.Machine.execIdeRefreshFailed dt link s
  | .reachResetE2 dt r => Sys2Proof.Machine.execReachResetE2 dt r s
  | .nocRequestTimeout dt stop art => Sys2Proof.Machine.execNocRequestTimeout dt stop art s
  | .nocPacketLost dt net dom isFault => Sys2Proof.Machine.execNocPacketLost dt net dom isFault s
  | .sluiceFenceRequest dt d cause => Sys2Proof.Machine.execSluiceFenceRequest dt d cause s
  | .sluiceDrainDone dt d => Sys2Proof.Machine.execSluiceDrainDone dt d s
  | .sluiceForced dt d => Sys2Proof.Machine.execSluiceForced dt d s
  | .domainPowerOn dt d => Sys2Proof.Machine.execDomainPowerOn dt d s
  | .heartbeat dt => Sys2Proof.Machine.execHeartbeat dt s
  | .mpcTakeover dt lockstep => Sys2Proof.Machine.execMpcTakeover dt lockstep s
  | .mpcRestart dt => Sys2Proof.Machine.execMpcRestart dt s
  | .standbyReady dt => Sys2Proof.Machine.execStandbyReady dt s
  | .serviceFrame dt => Sys2Proof.Machine.execServiceFrame dt s
  | .shedLevel dt busy => Sys2Proof.Machine.execShedLevel dt busy s
  | .standbyImageVerified dt ok => Sys2Proof.Machine.execStandbyImageVerified dt ok s
  | .firmwareHandover dt => Sys2Proof.Machine.execFirmwareHandover dt s
  | .sessionTimeout dt id => Sys2Proof.Machine.execSessionTimeout dt id s
  | .challengeExpiry dt slot mb => Sys2Proof.Machine.execChallengeExpiry dt slot mb s
  | .lockoutEnd dt slot => Sys2Proof.Machine.execLockoutEnd dt slot s
  | .faultMessageTaken dt m => Sys2Proof.Machine.execFaultMessageTaken dt m s
  | .fatalLine dt => Sys2Proof.Machine.execFatalLine dt s
  | .fatalFault dt => Sys2Proof.Machine.execFatalFault dt s
  | .fatalUnidentified dt => Sys2Proof.Machine.execFatalUnidentified dt s
  | .sampleCapture dt tile id => Sys2Proof.Machine.execSampleCapture dt tile id s
  | .sampleCaptureTimeout dt tile ctr => Sys2Proof.Machine.execSampleCaptureTimeout dt tile ctr s
  | .sourceRecordHoldoff dt src => Sys2Proof.Machine.execSourceRecordHoldoff dt src s
  | .bwWindowBoundary dt link => Sys2Proof.Machine.execBwWindowBoundary dt link s
  | .telemetryPush dt => Sys2Proof.Machine.execTelemetryPush dt s
  | .tableScrub dt found => Sys2Proof.Machine.execTableScrub dt found s
  | .wearLevelling dt failedSector => Sys2Proof.Machine.execWearLevelling dt failedSector s
  | .floorMissed dt task => Sys2Proof.Machine.execFloorMissed dt task s
  | .logFlush dt => Sys2Proof.Machine.execLogFlush dt s
  | .flashOpComplete dt dev res => Sys2Proof.Machine.execFlashOpComplete dt dev res s
  | .feedValid dt g fd mv => Sys2Proof.Machine.execFeedValid dt g fd mv s
  | .feedInvalid dt g fd mv => Sys2Proof.Machine.execFeedInvalid dt g fd mv s
  | .feedWarning dt g fd mv => Sys2Proof.Machine.execFeedWarning dt g fd mv s
  | .feedWarningClear dt g fd mv => Sys2Proof.Machine.execFeedWarningClear dt g fd mv s
  | .changeoverMake dt t => Sys2Proof.Machine.execChangeoverMake dt t s
  | .feedRevert dt t => Sys2Proof.Machine.execFeedRevert dt t s
  | .rampStart dt g => Sys2Proof.Machine.execRampStart dt g s
  | .enhancementStart dt t mv => Sys2Proof.Machine.execEnhancementStart dt t mv s
  | .slotPowerGood dt t mv => Sys2Proof.Machine.execSlotPowerGood dt t mv s
  | .attemptTimeout dt t => Sys2Proof.Machine.execAttemptTimeout dt t s
  | .fastTrip dt t ma => Sys2Proof.Machine.execFastTrip dt t ma s
  | .breakerTrip dt t ma lastedNs => Sys2Proof.Machine.execBreakerTrip dt t ma lastedNs s
  | .retryStart dt t => Sys2Proof.Machine.execRetryStart dt t s
  | .attemptCountClear dt t => Sys2Proof.Machine.execAttemptCountClear dt t s
  | .rampRestart dt t => Sys2Proof.Machine.execRampRestart dt t s
  | .slotUndervoltage dt t mv lastedNs => Sys2Proof.Machine.execSlotUndervoltage dt t mv lastedNs s
  | .adcSample dt t ma vout feedA feedB => Sys2Proof.Machine.execAdcSample dt t ma vout feedA feedB s
  | .avsUpdate dt target answered => Sys2Proof.Machine.execAvsUpdate dt target answered s
  | .pmbusPoll dt readings => Sys2Proof.Machine.execPmbusPoll dt readings s
  | .powerCapStep dt => Sys2Proof.Machine.execPowerCapStep dt s
  | .refclkValid dt c off10ppm => Sys2Proof.Machine.execRefclkValid dt c off10ppm s
  | .refclkLost dt c => Sys2Proof.Machine.execRefclkLost dt c s
  | .refclkBothLost dt => Sys2Proof.Machine.execRefclkBothLost dt s
  | .thermalSample dt temps => Sys2Proof.Machine.execThermalSample dt temps s
  | .thermalWarning dt sensor => Sys2Proof.Machine.execThermalWarning dt sensor s
  | .thermalWarningClear dt => Sys2Proof.Machine.execThermalWarningClear dt s
  | .thermalShutdown dt sensor => Sys2Proof.Machine.execThermalShutdown dt sensor s
  | .rd dt link msg => Sys2Proof.Machine.execRd dt link msg s
  | .wr dt link msg => Sys2Proof.Machine.execWr dt link msg s
  | .atomic dt link msg => Sys2Proof.Machine.execAtomic dt link msg s
  | .lockRd dt link msg => Sys2Proof.Machine.execLockRd dt link msg s
  | .unlock dt link msg => Sys2Proof.Machine.execUnlock dt link msg s
  | .flush dt link msg => Sys2Proof.Machine.execFlush dt link msg s
  | .snoop dt link msg => Sys2Proof.Machine.execSnoop dt link msg s
  | .pathHold dt link msg => Sys2Proof.Machine.execPathHold dt link msg s
  | .pathActivate dt link msg => Sys2Proof.Machine.execPathActivate dt link msg s
  | .pathFree dt link msg => Sys2Proof.Machine.execPathFree dt link msg s
  | .rdData dt link msg => Sys2Proof.Machine.execRdData dt link msg s
  | .wrCmp dt link msg => Sys2Proof.Machine.execWrCmp dt link msg s
  | .atomicData dt link msg => Sys2Proof.Machine.execAtomicData dt link msg s
  | .lockData dt link msg => Sys2Proof.Machine.execLockData dt link msg s
  | .unlockCmp dt link msg => Sys2Proof.Machine.execUnlockCmp dt link msg s
  | .flushDone dt link msg => Sys2Proof.Machine.execFlushDone dt link msg s
  | .snoopRsp dt link msg => Sys2Proof.Machine.execSnoopRsp dt link msg s
  | .err dt link msg => Sys2Proof.Machine.execErr dt link msg s
  | .pathRsp dt link msg => Sys2Proof.Machine.execPathRsp dt link msg s
  | .bridgeTimeout dt tag => Sys2Proof.Machine.execBridgeTimeout dt tag s
  | .discardExpired dt tag => Sys2Proof.Machine.execDiscardExpired dt tag s
  | .lockHoldLimit dt r => Sys2Proof.Machine.execLockHoldLimit dt r s
  | .farLockLimit dt r => Sys2Proof.Machine.execFarLockLimit dt r s
  | .farFlushTimeout dt id => Sys2Proof.Machine.execFarFlushTimeout dt id s
  | .pathHoldExpiry dt origin handle => Sys2Proof.Machine.execPathHoldExpiry dt origin handle s
  | .pathReserveTimeout dt handle => Sys2Proof.Machine.execPathReserveTimeout dt handle s
  | .cxlLinkDown dt link => Sys2Proof.Machine.execCxlLinkDown dt link s
  | .laneLockLost dt tile lane => Sys2Proof.Machine.execLaneLockLost dt tile lane s
  | .lane9JudgementTimeout dt link => Sys2Proof.Machine.execLane9JudgementTimeout dt link s
  | .refclkStartTestPass dt c => Sys2Proof.Machine.execRefclkStartTestPass dt c s
  | .standbyFailed dt => Sys2Proof.Machine.execStandbyFailed dt s
  | .mpcRestartComplete dt => Sys2Proof.Machine.execMpcRestartComplete dt s
  | .slotPowerOff dt t => Sys2Proof.Machine.execSlotPowerOff dt t s

end Sys2Proof.Machine
end

