-- ==== Sys2Proof/Machine/Step.lean ====
section
/-! DEFINITION. One step of the block: the command at the front of the queue runs with the queue's rest; an empty
queue leaves the block idle. -/

namespace Sys2Proof.Machine

/-- The state with `rest` as the waiting commands. -/
def State.withPending (s : State) (rest : List Instr) : State := { s with pending := rest }

/-- One step. On an empty queue the block idles (DESIGN CHOICE, assumption 2: time passes only with a command). -/
def step (s : State) : Host.Outcome State Fault Refusal :=
  match s.pending with
  | [] => .next s
  | c :: rest => exec c (s.withPending rest)

/-- The state with the command that a table word spells at the front of its queue. -/
def State.withFetchWord (s : State) (nbits w : Nat) : State :=
  match decodeTableWord nbits w with
  | some c => s.withPending (c :: s.pending)
  | none => s

end Sys2Proof.Machine
end

