-- ==== Sys2Proof/Safety.lean ====
section
/-! DEFINITION. The terms that claims use: a step that goes on, the paths between modes, the profile that a mode may have, and what it
means that a row of the opcode table completes with a given effect. -/

namespace Sys2Proof.Machine

/-- The step goes on: it neither faults nor refuses. -/
def goesOn (s : State) : Prop := ∃ t, step s = .next t

/-- The paths of Table MODE-6, with the core reset into Safe (step 12) in its two parts: any mode but Shelf enters the boot that DEV_MODE
reads as Cold Boot (R521), and Cold Boot leads to Safe. -/
def modePath (a b : Mode) : Bool :=
  a == b || b == .shelf || (b == .coldBoot) || (a == .coldBoot && b == .safe) || (a == .safe && b == .configure)
  || (a == .configure && (b.isRun || b == .degraded || b == .diagnostic)) || (a == .diagnostic && b == .configure)
  || (a.tenant && (b.tenant || b == .configure))

/-- The profile agrees with the mode (R24, Table MODE-3): in a Run mode it equals the mode, in Degraded and Service it is a Run profile, and
elsewhere it is 0x0. -/
def profileFits (m : Mode) (p : Profile) : Bool :=
  if m.isRun then p.mode == m else if m == .degraded || m == .service then p != .none else p == .none

/-- A row with the device effect `act` completes wherever `ok` holds: `dt` passes and the device becomes what `act` makes of it; the mode,
the profile, the Basin memory and the waiting commands stay. -/
def Acts (i : Nat → Instr) (ok : Mode → Profile → Dev → Prop) (act : Mode → Profile → Dev → Dev) : Prop :=
  ∀ dt s, ok s.mode s.profile (s.elapse dt).dev → exec (i dt) s = .next ((s.elapse dt).onDev (act s.mode s.profile))

/-- A row completes wherever `ok` holds, with a device of which `post` says what it holds; the mode, the profile, the Basin memory and the
waiting commands stay. -/
def Leaves (i : Nat → Instr) (ok : Mode → Profile → Dev → Prop) (post : Dev → Dev → Prop) : Prop :=
  ∀ dt s, ok s.mode s.profile (s.elapse dt).dev →
    ∃ d, exec (i dt) s = .next { s.elapse dt with dev := d } ∧ post (s.elapse dt).dev d

/-- A Bilod row whose command is accepted acts and replies as `b` says; everything but the device stays. -/
def Serves (row : Nat → Frame → Instr) (k : Cmd) (b : Ctx → Dev × Reply) : Prop :=
  ∀ dt f s, k.accepts f s.mode s.profile (s.elapse dt).dev = true →
    exec (row dt f) s = .next ((s.elapse dt).onDev fun d =>
      let r := b { m := s.mode, p := s.profile, d := d.served f, f := f }
      r.1.reply f k.op r.2)

/-- A Bilod row that only reads answers SUCCESS with a payload, and changes nothing else of the device but what serving a command counts. -/
def Reads (row : Nat → Frame → Instr) (k : Cmd) (payload : Ctx → Bytes) : Prop :=
  ∀ dt f s, k.accepts f s.mode s.profile (s.elapse dt).dev = true →
    exec (row dt f) s = .next ((s.elapse dt).onDev fun d =>
      (d.served f).respond f k.op .success (payload { m := s.mode, p := s.profile, d := d.served f, f := f }))

/-- A Bilod row that stages items answers SUCCESS with an empty payload; of the configuration it changes only the staged set named, whose
generation it increases by 1. -/
def Stages (row : Nat → Frame → Instr) (k : Cmd) (set : Ctx → Nat) (items : Ctx → List (CfgKey × Option Bytes)) : Prop :=
  ∀ dt f s, k.accepts f s.mode s.profile (s.elapse dt).dev = true →
    exec (row dt f) s = .next ((s.elapse dt).onDev fun d =>
      let c : Ctx := { m := s.mode, p := s.profile, d := d.served f, f := f }
      let old := c.d.conf.staged.getD (set c) {}
      let new : Staged := { old with
        gen := (old.gen + 1) % 2 ^ 32, changes := (items c).foldl (fun t e => t.set e.1 e.2) old.changes }
      ({ c.d with conf := { c.d.conf with staged := c.d.conf.staged.set (set c) new } } : Dev).respond f k.op .success [])

/-- A bridge message of operation `op` arrives on an Iggevo link and is not malformed. -/
def hears (op link : Nat) (msg : Bytes) (d : Dev) : Prop :=
  d.isIggevo link = true ∧ msg ≠ [] ∧ brgMalformed msg = false ∧ byteAt msg 0 = op

/-- A fabric-manager request is served: where the tunnel is served, and over Bilod wherever firmware runs (R293, R342). -/
def fmHeard (src : FmSrc) (m : Mode) : Prop := m.allServed = true ∨ (m.adminServed = true ∧ src = .bilod)

/-- The rows that can change the mode or the profile (Table MODE-6). -/
def movesMode : Instr → Bool
  | .powerGood .. | .resetNAssert .. | .coreRailsOff .. | .safeEntry .. | .imageLoad .. | .commitEpoch .. | .configureDrainComplete ..
  | .diagnosticTransitionDone .. | .fatalFault .. | .zeroize .. | .debugEnable .. | .tamperEvent .. => true
  | _ => false

/-- The rows that can change the Basin memory: its ports, the Dredger, BASIN_FILL, the clearing of a GiB or of a returned stack, and what
resets the core. -/
def touchesMemory : Instr → Bool
  | .basinMemoryAccess .. | .basinAtomicop .. | .dredgerScrub .. | .basinFill .. | .basinGibCleared .. | .serviceOpComplete ..
  | .powerGood .. | .resetNAssert .. | .coreRailsOff .. | .imageLoad .. | .commitEpoch .. | .fatalFault .. | .zeroize .. | .debugEnable ..
  | .tamperEvent .. => true
  | _ => false

/-- Every Bilod command of the opcode table in the order of its opcode; a command that is long or simple by its operands twice. -/
def commandTable : List Cmd :=
  [cmdIdentify, cmdEventRead, cmdResultGet, cmdCommit true, cmdCommit false, cmdRulesetCommit, cmdStagingDiscard,
   cmdStagingStatusGet, cmdMpcStatusGet, cmdMpcSwitchover, cmdFabricFlush, cmdAliasWindowSet, cmdAliasWindowGet,
   cmdResvGranuleSet, cmdOrderStatusGet, cmdResvStatusGet, cmdSecurityStatusGet, cmdSessionChallenge, cmdOpenSession,
   cmdCloseSession, cmdCredentialSet, cmdCredentialGet, cmdSelfTestRun, cmdZeroize] ++
  [cmdAuditRead, cmdDebugEnable, cmdModeGet, cmdModeSet true, cmdModeSet false, cmdServiceBegin, cmdServiceEnd,
   cmdSupplyStatusGet, cmdClockStatusGet, cmdClockSelect, cmdShelfEnter, cmdLaneStatusGet, cmdLaneConfigSet, cmdLaneSpareSet,
   cmdLaneEyeScan, cmdLaneEyeGet, cmdLaneTestSet, cmdLaneTestGet, cmdLaneConfigGet, cmdTileConfigSet, cmdPortConfigSet,
   cmdPortStatusGet, cmdHotplugRequest, cmdIdeKeyRefresh] ++
  [cmdIdeStatusGet, cmdVppbBind, cmdVppbUnbind true, cmdVppbUnbind false, cmdVcsGet, cmdLdCoherenceSet, cmdBiRouteSet,
   cmdReachCountSet, cmdReachGet, cmdReachAssign, cmdReachMapGet, cmdReachReset, cmdReachStatusGet, cmdBasinLayoutSet,
   cmdBasinStatusGet, cmdBasinMemoryBind, cmdBasinMemoryGet, cmdBasinFill, cmdQueueThresholdSet, cmdQueueStatusGet,
   cmdBufferStatusGet, cmdRuleWrite, cmdRuleRead, cmdRuleClear] ++
  [cmdRulesetStatusGet, cmdRuleLookup, cmdDefaultMapSet, cmdDefaultMapGet, cmdGateWindowSet, cmdGateModeSet, cmdGateGet,
   cmdContractSet, cmdContractGet, cmdContractClear, cmdExpeditedReserve, cmdProfileSet, cmdProfileGet, cmdPathReserve,
   cmdPathRelease, cmdCalendarGet, cmdWeirStatusGet, cmdSchedWeightSet, cmdShaperSet, cmdSchedGet, cmdSchedStatusGet,
   cmdFabricStatusGet, cmdMcastGroupSet, cmdMcastGroupGet] ++
  [cmdReplicateWrite, cmdIggevoDeviceSet, cmdIggevoLinkSet, cmdIggevoLinkStatusGet, cmdIggevoLaneWidthSet, cmdIggevoRetrain,
   cmdTimeStatusGet, cmdBridgeLinkSet, cmdBridgeLinkGet, cmdLockStatusGet, cmdLockRelease, cmdBridgeStatusGet,
   cmdCounterConfigSet, cmdCounterConfigGet, cmdCounterRead, cmdCounterWrite, cmdTallyRead, cmdBwWindowSet, cmdBwWindowGet,
   cmdSampleRead, cmdTraceSet, cmdTraceRead, cmdTelemetrySet, cmdPercolatorSet] ++
  [cmdPercolatorStatusGet, cmdNocStatsGet, cmdNocStatsClear, cmdDomainStatusGet, cmdFaultStatusGet, cmdFaultStatusClear,
   cmdFaultSnapshotGet, cmdFaultHistoryRead, cmdFaultRedundancyGet, cmdFaultLogRead, cmdFaultCountGet, cmdFaultInject,
   cmdSlotStatusGet, cmdSlotConfigSet, cmdSlotConfigGet, cmdSlotResetLatch, cmdSlotFeedSelect, cmdFeedStatusGet,
   cmdImageStatusGet, cmdSaveImage, cmdImageWrite, cmdImageFinish, cmdImageInvalidate, cmdSecurityVersionAdvance] ++
  [cmdTraceMarker, cmdFmapiRequest]

/-- The messages that a source holds unsent or on their way to the collector (R393). -/
def unsent (d : Dev) (block inst : Nat) : Nat := (d.flt.transit.filter fun x => x.block == block && x.inst == inst).length

end Sys2Proof.Machine
end

