-- ==== Sys2Proof/Certificates/Slice0/Obligations.lean ====
section
/-! DEFINITION. The statements for the provers, from the numbered rules of spec/ and its tables: by chapter, what each command does, what
it leaves unchanged, and the invariants of the whole block. -/

open Sys2Proof Sys2Proof.Machine

/-- Table MODE-7: MODE_GET answers with DEV_MODE and the target of the change in progress; an accepted MODE_SET leaves one pending change
at the first epoch at least 2 µs away and answers at the epoch or with IN_PROGRESS; SERVICE_BEGIN and SERVICE_END likewise. -/
def Obligations.ModeCommands : Prop :=
  Reads .modeGet cmdModeGet (fun c => nb 4 (devMode c.m c.p c.d) ++ nb 4 (c.d.targetCode c.p))
  ∧ (∀ dt f s, modeSetLong f = true → (cmdModeSet true).accepts f s.mode s.profile (s.elapse dt).dev = true →
      exec (.modeSet dt f) s = .next ((s.elapse dt).onDev fun d =>
        let d := d.served f
        let t := setTarget s.mode (byteAt f.payload 0)
        let atOnce := match t with
          | .load | .diagnostic _ => true
          | _ => false
        let p : ModePend := { target := t, epoch := epochAfter d.now, begun := atOnce, cap := leN f.payload 4 2, force := byteAt f.payload 1 == 1, long := some (f.mbx, f.tag) }
        let d := d.onCtl fun x => { x with
          pend := some p, fenceReply := [], fatalTimes := if t = .load then [] else x.fatalTimes
          stayInSafe := if t = .load then false else x.stayInSafe }
        (d.startLong f 0x2001).respond f 0x2001 .inProgress []))
  ∧ (∀ dt f s, modeSetLong f = false → (cmdModeSet false).accepts f s.mode s.profile (s.elapse dt).dev = true →
      exec (.modeSet dt f) s = .next ((s.elapse dt).onDev fun d =>
        let d := d.served f
        let t := setTarget s.mode (byteAt f.payload 0)
        let atOnce := match t with
          | .load | .diagnostic _ => true
          | _ => false
        let d := d.onCtl fun x => { x with
          pend := some { target := t, epoch := epochAfter d.now, begun := atOnce, cap := leN f.payload 4 2, force := byteAt f.payload 1 == 1, long := none }, fenceReply := []
          fatalTimes := if t = .load then [] else x.fatalTimes, stayInSafe := if t = .load then false else x.stayInSafe }
        let o : Owed := { mbx := f.mbx, opcode := 0x2001, tag := f.tag, sid := f.sid, payload := [], epoch := epochAfter d.now, set := none }
        (d.onMgmt fun g => { g with owed := g.owed ++ [o] }).onMbx f.mbx fun x => { x with rung := none, wait := true, resp := none }))
  ∧ Serves .serviceBegin cmdServiceBegin (fun c => (c.d.onCtl fun x => { x with
      svc := some { op := c.u8 0, inst := c.u8 1 }, pend := some { target := .service, epoch := epochAfter c.d.now } }, .done []))
  ∧ Serves .serviceEnd cmdServiceEnd (fun c =>
      (c.d.onCtl fun x => { x with svc := x.svc.map fun v => { v with endAt := some (epochAfter c.d.now) } }, .done []))

/-- The 27 rows that only stage items (Tables WEIR-7, RULE-5, CELL-10, BASIN-6, SCHED-4, ORDER-7, LINK-4, BRIDGE-8, LANE-10, CXLP-8,
REACH-4, SLOT-4): each changes only its staged set, and answers SUCCESS. -/
def Obligations.StagedCommands : Prop :=
  Stages .contractSet cmdContractSet (fun c => c.u8 0) (fun c => [(c.contractKey, some (fit 28 c.f.payload))])
  ∧ Stages .contractClear cmdContractClear (fun c => c.u8 0) (fun c => [(c.contractKey, none)])
  ∧ Stages .profileSet cmdProfileSet (fun c => c.u8 0) (fun c => [({ op := 0x6004, a := c.u8 0, b := c.u8 1 }, some (fit 8 c.f.payload))])
  ∧ Stages .ruleWrite cmdRuleWrite (fun c => c.u8 0) (fun c => [(ruleKey (c.u8 0) (c.u16 2), some (slice c.f.payload 4 48))])
  ∧ Stages .ruleClear cmdRuleClear (fun c => c.u8 0)
      (fun c => (List.range (c.u32 4)).map fun i => (ruleKey (c.u8 0) (c.u16 2 + i), none))
  ∧ Stages .defaultMapSet cmdDefaultMapSet (fun c => c.u8 0) (fun c => [({ op := 0x5005, a := c.u8 0 }, some (slice c.f.payload 4 48))])
  ∧ Stages .gateWindowSet cmdGateWindowSet Ctx.linkSet0
      (fun c => [({ op := 0x5007, a := c.u16 0, b := c.u8 2 }, some (fit 16 c.f.payload))])
  ∧ Stages .gateModeSet cmdGateModeSet Ctx.linkSet0 (fun c => [({ op := 0x5008, a := c.u16 0 }, some (fit 4 c.f.payload))])
  ∧ Stages .mcastGroupSet cmdMcastGroupSet (fun c => c.u8 5) (fun c => [({ op := 0x7001, a := c.u16 0 }, some (fit 44 c.f.payload))])
  ∧ Stages .basinLayoutSet cmdBasinLayoutSet (fun _ => 32) (fun c => [({ op := 0x4080 }, some (fit 4 c.f.payload))])
  ∧ Stages .basinMemoryBind cmdBasinMemoryBind Ctx.bindSet (fun c => [({ op := 0x4082, a := c.u8 0 }, some (fit 4 c.f.payload))])
  ∧ Stages .queueThresholdSet cmdQueueThresholdSet (fun c => c.d.linkSet (c.u16 0))
      (fun c => [({ op := 0x4085, a := c.u16 0, b := c.u8 2 }, some (fit 12 c.f.payload))])
  ∧ Stages .schedWeightSet cmdSchedWeightSet Ctx.schedSet (fun c => [({ op := 0x6010, a := c.u16 0 }, some (fit 12 c.f.payload))])
  ∧ Stages .shaperSet cmdShaperSet Ctx.schedSet (fun c => [({ op := 0x6011, a := c.u16 0, b := c.u8 2 }, some (fit 12 c.f.payload))])
  ∧ Stages .aliasWindowSet cmdAliasWindowSet (fun c => c.u8 0) (fun c =>
      [({ op := 0x0F01, a := c.u8 0, b := c.u8 1 }, if (c.u8 2).testBit 0 then some (fit 16 c.f.payload) else none)])
  ∧ Stages .resvGranuleSet cmdResvGranuleSet (fun c => c.u8 0) (fun c => [({ op := 0x0F03, a := c.u8 0 }, some (fit 4 c.f.payload))])
  ∧ Stages .iggevoDeviceSet cmdIggevoDeviceSet (fun _ => 32) (fun c => [({ op := 0x7010 }, some (fit 8 c.f.payload))])
  ∧ Stages .iggevoLinkSet cmdIggevoLinkSet (fun _ => 32) (fun c => [({ op := 0x7011, a := c.u16 0 }, some (fit 8 c.f.payload))])
  ∧ Stages .bridgeLinkSet cmdBridgeLinkSet (fun _ => 32) (fun c => [({ op := 0x7020, a := c.u16 0 }, some (fit 44 c.f.payload))])
  ∧ Stages .laneConfigSet cmdLaneConfigSet (fun _ => 32) (fun c =>
      (if c.u8 1 = 0xFF then List.range 10 else [c.u8 1]).map fun n =>
        ({ op := 0x3001, a := c.u8 0, b := n }, some (put (fit 12 c.f.payload) 1 (nb 1 n))))
  ∧ Stages .portConfigSet cmdPortConfigSet (fun _ => 32) (fun c => [({ op := 0x3021, a := c.u16 0 }, some (fit 8 c.f.payload))])
  ∧ Stages .vppbBind cmdVppbBind Ctx.vcsSet (fun c => [({ op := 0x4000, a := c.u16 0, b := c.u8 2 }, some (fit 10 c.f.payload))])
  ∧ Stages .ldCoherenceSet cmdLdCoherenceSet (fun c => (c.d.owner (c.u16 0) (c.u8 2)).getD 32)
      (fun c => [({ op := 0x4003, a := c.u16 0, b := c.u8 2 }, some (fit 6 c.f.payload))])
  ∧ Stages .biRouteSet cmdBiRouteSet (fun _ => 32) (fun c => [({ op := 0x4004, a := c.u16 0, b := c.u8 2 }, some (fit 6 c.f.payload))])
  ∧ Stages .reachCountSet cmdReachCountSet (fun _ => 32) (fun c => [({ op := 0x4040 }, some (fit 4 c.f.payload))])
  ∧ Stages .reachAssign cmdReachAssign (fun _ => 32) (fun c =>
      (if c.u8 2 = 0xFF then ((List.range 16).filter fun ld => (c.d.staged 32 { op := 0x4042, a := c.u16 0, b := ld }).isSome).map
        fun ld => (({ op := 0x4042, a := c.u16 0, b := ld } : CfgKey), (none : Option Bytes)) else [])
        ++ [({ op := 0x4042, a := c.u16 0, b := c.u8 2 }, some (fit 4 c.f.payload))])
  ∧ Stages .slotConfigSet cmdSlotConfigSet (fun _ => 32) (fun c =>
      (if c.u8 0 = 0xFF then List.range 64 else [c.u8 0]).map fun t =>
        ({ op := 0xA001, a := t }, some (nb 1 t ++ slice c.f.payload 1 7)))

/-- Reading commands of chapters 3 to 6 (Tables WEIR-7, RULE-5, CELL-10, BASIN-6): the payload of each answer. -/
def Obligations.AdmissionReads : Prop :=
  Reads .contractGet cmdContractGet (fun c =>
      (c.d.view (c.u8 4 == 1) (c.u8 0) c.contractKey).getD (fit 4 c.f.payload ++ zeros 24))
  ∧ Reads .profileGet cmdProfileGet (fun c =>
      let v := c.d.refusal false (c.u8 0) (c.u8 1)
      nb 1 (c.u8 0) ++ nb 1 (c.u8 1) ++ nb 1 v.1 ++ nb 1 v.2.1 ++ nb 1 v.2.2)
  ∧ Reads .calendarGet cmdCalendarGet (fun c =>
      let e := c.u16 0
      let held (r : Nat) : Nat := if r < c.d.nReach then ((c.d.pattern e).map fun x => if x.1 = r then x.2.sum else 0).sum else 0
      let shown (r : Nat) : Nat := match c.f.mbx with
        | .reach o => if o = r then held r else 0
        | _ => held r
      nb 2 (c.d.calC e) ++ nb 2 (c.d.calW e) ++ nb 2 (c.d.calW e - ((c.d.pattern e).map fun x => x.2.sum).sum)
        ++ ((List.range 32).map fun r => nb 2 (shown r)).flatten)
  ∧ Reads .weirStatusGet cmdWeirStatusGet (fun c =>
      ([0x000, 0x010, 0x020, 0x030, 0x031, 0x108, 0x109, 0x10A].map fun sel =>
        nb 8 (if selReach sel then c.d.tele.rtally.getD (c.u8 0, sel, c.u8 1) 0 else c.d.tally (c.u8 0) sel)).flatten)
  ∧ Reads .ruleRead cmdRuleRead (fun c => fit 48 ((c.d.view (c.u8 4 == 1) (c.u8 0) (ruleKey (c.u8 0) (c.u16 2))).getD []))
  ∧ Reads .rulesetStatusGet cmdRulesetStatusGet (fun c =>
      let s := c.d.set (c.u8 0)
      nb 1 (b2n (c.d.conf.setB.getD (c.u8 0) false)) ++ nb 1 (b2n s.resync + 2 * b2n s.accepted + 4 * b2n c.d.bankOut) ++ zeros 2
        ++ nb 4 (s.changes.filter fun e => e.1.op == 0x5000).length ++ nb 5 (c.d.conf.flipT.getD (c.u8 0) 0))
  ∧ Reads .ruleLookup cmdRuleLookup (fun c =>
      let stg := (c.u8 2).testBit 1
      let k := c.d.lookup stg c.p.isSecure (c.u8 0) (c.u8 1) ((c.u8 2).testBit 0) (c.u64 4)
      let shut := (c.u8 2).testBit 2 && ! c.d.gateGrants stg (c.u8 3) (c.u8 1) (c.u64 4) 1
      nb 1 (if shut then 4 else k.outcome) ++ zeros 1 ++ nb 2 k.rule ++ nb 2 k.desc)
  ∧ Reads .defaultMapGet cmdDefaultMapGet (fun c =>
      fit 48 ((c.d.view (c.u8 1 == 1) (c.u8 0) { op := 0x5005, a := c.u8 0 }).getD []))
  ∧ Reads .gateGet cmdGateGet (fun c =>
      (c.d.view (c.u8 3 == 1) c.linkSet0 { op := 0x5007, a := c.u16 0, b := c.u8 2 }).getD (nb 2 (c.u16 0) ++ nb 1 (c.u8 2) ++ zeros 13)
        ++ nb 1 (c.d.gateSetting (c.u8 3 == 1) (c.u16 0)) ++ nb 1 (b2n (c.d.gateInForce c.p (c.u16 0))))
  ∧ Reads .mcastGroupGet cmdMcastGroupGet (fun c =>
      match c.d.view (c.u8 2 == 1) ((c.d.groupReach (c.u16 0)).getD 0) { op := 0x7001, a := c.u16 0 } with
      | some b => slice b 4 40
      | none => zeros 40)
  ∧ Reads .fabricStatusGet cmdFabricStatusGet (fun c =>
      nb 1 (bitsOf (fun i => c.d.planesUsed.contains i) 2) ++ nb 1 (b2n c.d.clk.slow) ++ nb 1 c.d.fab.inSvc.length
        ++ nb 1 (b2n c.d.fab.parity + 2 * b2n c.d.fab.repat.isSome) ++ nb 8 (bitsOf c.d.fab.inSvc.contains 64) ++ nb 4 c.d.fab.count)
  ∧ Reads .basinStatusGet cmdBasinStatusGet (fun c =>
      let st (k : Nat) : Nat := match c.d.bas.stack.getD k .inService with
        | .inService => 0
        | .lost => 1
        | .returning => 2
      nb 1 (st 0) ++ nb 1 (st 1) ++ nb 1 c.d.basinK.1 ++ nb 1 c.d.basinK.2 ++ nb 8 c.d.overflowShare
        ++ nb 8 (c.d.overflowUse (c.u8 0)) ++ nb 4 (c.d.task 0).passes)
  ∧ Reads .basinMemoryGet cmdBasinMemoryGet (fun c => (List.range 24).flatMap fun g => nb 1 (c.gibByte g))
  ∧ Reads .queueStatusGet cmdQueueStatusGet (fun c =>
      let l := c.u16 0
      let q := c.u8 2
      let st : Nat := match c.d.qState l q with
        | .direct => 0
        | .overflow => 1
        | .saturated => 2
      nb 4 st ++ nb 4 (c.d.queueT false l q) ++ nb 4 (c.d.queueTeff c.p l q) ++ nb 4 (c.d.holdLimit c.p l q)
        ++ nb 4 (c.d.inQueue l q) ++ nb 4 (c.d.heldCells l q))
  ∧ Reads .bufferStatusGet cmdBufferStatusGet (fun c =>
      nb 4 (c.d.strictUse (c.u8 0)) ++ nb 4 (c.d.pinnedUse (c.u8 0)) ++ nb 4 c.d.egressUse ++ nb 4 c.d.transitUse)

/-- Reading commands of chapters 7 to 12 (Tables SCHED-4, ORDER-7, LINK-4, LINK-10, BRIDGE-8, LANE-10, CXLP-8): the payload of each answer. -/
def Obligations.LinkReads : Prop :=
  Reads .schedGet cmdSchedGet (fun c =>
      ((List.range 5).flatMap fun k => nb 1 (c.d.weight (c.u8 2 == 1) (c.u16 0) (k + 3))) ++ zeros 3
        ++ ([3, 4, 5, 6, 7, 8].flatMap fun t =>
          let v := c.d.shaperCfg (c.u8 2 == 1) (c.u16 0) t
          nb 4 (b2n v.1) ++ nb 4 v.2.1 ++ nb 4 v.2.2))
  ∧ Reads .schedStatusGet cmdSchedStatusGet (fun c =>
      ((List.range 8).flatMap fun q => nb 4 (c.d.inQueue (c.u16 0) q))
        ++ ([3, 4, 5, 6, 7, 8].flatMap fun t => intBytes 4 ((c.d.egr.shp.getD (c.u16 0, t) {}).tok / 256))
        ++ nb 8 (c.d.tally (c.u16 0 / 4) 0x070))
  ∧ Reads .aliasWindowGet cmdAliasWindowGet (fun c =>
      fit 16 ((c.d.view (c.u8 2 == 1) (c.u8 0) { op := 0x0F01, a := c.u8 0, b := c.u8 1 }).getD (nb 1 (c.u8 0) ++ nb 1 (c.u8 1))))
  ∧ Reads .orderStatusGet cmdOrderStatusGet (fun c =>
      let l := c.u16 0
      nb 2 (c.d.eaLines l) ++ nb 2 (c.d.eaUsed l) ++ nb 4 (c.d.ord.lost.getD (.link l) 0)
        ++ nb 2 (c.d.ord.mons.filter fun m => decide (m.init = .link l)).length)
  ∧ Reads .resvStatusGet cmdResvStatusGet (fun c =>
      let r := c.u8 0
      nb 2 (16384 / max 1 c.d.nReach) ++ nb 2 (c.d.ord.mons.filter fun m => decide (m.reach = r)).length
        ++ nb 1 (byteAt ((c.d.cfg { op := 0x0F03, a := r }).getD []) 1) ++ zeros 3
        ++ ((List.range 6).flatMap fun k => nb 8 (c.d.ord.losses.getD (r, k + 1) 0)))
  ∧ Reads .iggevoLinkStatusGet cmdIggevoLinkStatusGet (fun c =>
      let l := c.u16 0
      let g := c.d.igg l
      let old : Bool := match g.replay.head? with
        | some h => decide (g.rfirst = h.seq)
        | none => false
      nb 1 g.st.code ++ nb 1 g.txMask ++ nb 1 g.rxMask
        ++ nb 1 (b2n (c.d.timeDegraded l) + 2 * b2n (c.d.tim.up == some l) + 4 * b2n (g.cd.isSome || g.cdRx.isSome))
        ++ nb 4 g.pId ++ intBytes 4 g.tCable ++ intBytes 4 (g.thetas.getLast?.getD 0) ++ nb 1 (if old then g.rcount else 0) ++ zeros 3
        ++ g.u.flatMap (nb 2))
  ∧ Reads .timeStatusGet cmdTimeStatusGet (fun c =>
      let t := c.d.tim
      nb 4 t.root ++ nb 1 (if t.hold then 255 else t.hops) ++ nb 1 (b2n t.hold + 2 * b2n (t.up.isNone && ! t.hold))
        ++ nb 2 (t.up.getD 0xFFFF) ++ nb 5 c.d.now)
  ∧ Reads .bridgeLinkGet cmdBridgeLinkGet (fun c =>
      (c.d.view (c.u8 2 == 1) 32 { op := 0x7020, a := c.u16 0 }).getD
        (nb 2 (c.u16 0) ++ nb 1 3 ++ nb 1 0 ++ nb 4 200 ++ nb 4 2000 ++ List.replicate 32 0xFF))
  ∧ Reads .lockStatusGet cmdLockStatusGet (fun c =>
      match c.d.brg.near.get? (c.u8 0) with
      | some k =>
        nb 1 k.st.code ++ nb 1 k.owner ++ nb 2 k.link ++ nb 1 k.reach ++ zeros 3
          ++ nb 4 (if k.st = .broken then 0 else min (2 ^ 32 - 1) (c.d.since k.t6 / 6))
      | none => zeros 12)
  ∧ Reads .bridgeStatusGet cmdBridgeStatusGet (fun c =>
      let l := c.u16 0
      nb 4 (c.d.weir.trk.filter fun e => decide (e.2.dst = l) && ! e.2.done && e.2.orphan.isNone && e.2.far.isNone).length
        ++ nb 4 (c.d.weir.trk.filter fun e => decide (e.2.dst = l) && e.2.orphan.isSome).length
        ++ nb 4 (c.d.weir.trk.filter fun e => (e.2.far.map (·.link)) == some l).length
        ++ [0x0B0, 0x0B1, 0x119, 0x11A, 0x11B, 0x0B2].flatMap fun sel => nb 8 (c.d.tally (l / 4) sel))
  ∧ Reads .laneEyeGet cmdLaneEyeGet (fun c =>
      match (c.d.phy.scan.getD (c.u8 0, c.u8 1) {}).res with
      | some r => nb 2 r.1 ++ nb 2 r.2.1 ++ r.2.2.flatMap (nb 4)
      | none => [])
  ∧ Reads .laneConfigGet cmdLaneConfigGet (fun c => fit 12 (c.d.laneCfg (c.u8 2 == 1) (c.u8 0) (c.u8 1)))
  ∧ Reads .portStatusGet cmdPortStatusGet (fun c =>
      let l := c.u16 0
      let q := c.d.port l
      let slot := 2 * b2n (c.d.inserted (l / 4)) + 4 * b2n (c.d.chan (l / 4)).pg
      if c.d.isIggevo l then
        let on : Bool := (c.d.igg l).st == .active
        nb 1 0 ++ nb 1 0 ++ nb 1 (if on then 7 else 0xFF) ++ nb 1 (if on then popcount (c.d.igg l).txMask else 0)
          ++ nb 1 0 ++ nb 1 0 ++ nb 1 slot ++ zeros 1
      else
        nb 1 (if q.up then q.role else c.d.cfgRole l) ++ nb 1 q.ltssm ++ nb 1 (if q.up then q.rate else 0xFF) ++ nb 1 q.width
          ++ nb 1 (if q.up then q.devType else 0) ++ nb 1 (if q.up then q.lds else 0) ++ nb 1 (b2n q.fenced + slot) ++ zeros 1)
  ∧ Reads .ideStatusGet cmdIdeStatusGet (fun c =>
      let i := c.d.ide (c.u16 0)
      nb 1 i.cxl ++ nb 1 i.io ++ nb 1 i.set ++ zeros 5 ++ nb 5 i.time)

/-- Reading commands of chapters 13 to 22 (Tables REACH-4, NOC-9, MBX-16, SEC-5, FAULT-12, TELE-10, SLOT-4, PWR-8, IMAGE-5): the payload of
each answer. -/
def Obligations.ManagementReads : Prop :=
  Reads .reachGet cmdReachGet (fun c =>
      let n := max 1 (byteAt ((c.d.view (c.u8 0 == 1) 32 { op := 0x4040 }).getD [1]) 0)
      let lay := (c.d.view (c.u8 0 == 1) 32 { op := 0x4080 }).getD []
      nb 1 n ++ zeros 3 ++ nb 4 (65536 / n) ++ nb 4 (65536 / n) ++ nb 2 (4096 / n) ++ nb 2 (16384 / n) ++ nb 2 (1024 / n) ++ nb 1 (32 / n)
        ++ nb 1 (32 / n) ++ nb 8 ((32 - byteAt lay 0 - byteAt lay 1) * gib / n))
  ∧ Reads .reachMapGet cmdReachMapGet (fun c =>
      let stg : Bool := c.u8 1 == 1
      let own (l : Nat) : Bool := c.d.isCxl l && (if c.d.isMld l then (List.range 16).any fun ld => c.d.ownerIn stg l ld == some (c.u8 0)
        else c.d.ownerIn stg l 0xFF == some (c.u8 0))
      nb 32 (bitsOf own 256)
        ++ nb 3 (bitsOf (fun g => decide (g < c.d.basinK.1 + c.d.basinK.2) && c.d.gibOwner stg (c.u8 0) g == some (c.u8 0)) 24))
  ∧ Reads .reachStatusGet cmdReachStatusGet (fun c =>
      let r := c.u8 0
      let groups := (List.range 1024).filter fun g => c.d.groupReach g == some r && (match c.d.cfg { op := 0x7001, a := g } with
        | some b => (byteAt b 4).testBit 0
        | none => false)
      nb 1 (if (c.d.reset.get? r).isSome then 2 else if (c.d.linksOf r).isEmpty then 0 else 1) ++ zeros 3
        ++ nb 4 (c.d.trkUsed r true + c.d.trkUsed r false) ++ nb 4 (c.d.rules false r).length ++ nb 2 (c.d.policers false r)
        ++ nb 2 (c.d.ord.mons.filter fun m => decide (m.reach = r)).length ++ nb 2 groups.length ++ zeros 2 ++ nb 8 (c.d.overflowUse r))
  ∧ Reads .nocStatsGet cmdNocStatsGet (fun c =>
      let s := c.d.noc.stats.getD (c.u8 0, c.u8 1) {}
      nb 8 s.packets ++ nb 8 s.flits ++ nb 8 s.latSum ++ nb 4 s.latMax ++ zeros 4)
  ∧ Reads .domainStatusGet cmdDomainStatusGet (fun c =>
      nb 12 (bitsOf (fun k => ! c.d.domOff k) 96) ++ nb 12 (bitsOf (fun k => (c.d.noc.dom.get? k).isSome) 96) ++ nb 8 (c.d.tally 64 0x125))
  ∧ Reads .identify cmdIdentify (fun c =>
      nb 8 c.d.ident ++ wordBytes 8 Sys2Proof.Config.serial ++ wordBytes 4 Sys2Proof.Config.firmwareBuild
        ++ nb 1 c.d.nReach ++ nb 1 c.d.mgmt.active ++ zeros 2 ++ nb 4 c.d.switchId)
  ∧ Reads .resultGet cmdResultGet (fun c => ((c.d.mbx c.f.mbx).result (c.u16 0)).getD [])
  ∧ Reads .stagingStatusGet cmdStagingStatusGet (fun c =>
      let s := c.d.set c.setNamed
      nb 4 s.code ++ nb 4 s.gen ++ nb 4 s.changes.length ++ nb 5 (s.armed.getD 0))
  ∧ Reads .mpcStatusGet cmdMpcStatusGet (fun c =>
      let g := c.d.mgmt
      nb 1 g.active ++ nb 1 g.standby.code ++ nb 2 g.shed ++ nb 4 g.handovers ++ nb 8 g.served ++ nb 4 g.busyPct)
  ∧ Reads .securityStatusGet cmdSecurityStatusGet (fun c =>
      let x := c.d.sec
      nb 1 (b2n x.approved + 2 * b2n x.errState + 4 * b2n x.seeded + 8 * b2n x.tamper + 16 * b2n x.debug) ++ zeros 3
        ++ nb 8 x.secVer ++ nb 4 x.audit.length)
  ∧ Reads .credentialGet cmdCredentialGet (fun c =>
      let k := c.d.cred (c.u8 0)
      let left := match k.until6 with
        | some t => ceilDiv (t - c.d.clk.t6) s6
        | none => 0
      nb 1 (c.u8 0) ++ nb 1 (b2n k.enabled) ++ nb 1 k.role ++ nb 1 k.method ++ nb 4 k.iter ++ nb 1 k.fails ++ nb 1 k.k ++ nb 4 left)
  ∧ Reads .faultStatusGet cmdFaultStatusGet (fun c =>
      let s := c.faultScope
      nb 8 (c.d.faultStatus s) ++ nb 8 (c.d.faultCount s 0) ++ nb 8 (c.d.faultCount s 1) ++ nb 8 (c.d.faultCount s 2)
        ++ nb 8 (if s = 32 then c.d.flt.lost else 0))
  ∧ Reads .faultSnapshotGet cmdFaultSnapshotGet (fun c =>
      match c.d.flt.snaps.get? (c.faultScope, c.u8 2) with
      | some h => h.bytes
      | none => zeros 32)
  ∧ Reads .faultHistoryRead cmdFaultHistoryRead (fun c =>
      let h := c.d.flt.hist
      let from_ := h.filter fun e => decide ((e.index + 2 ^ 32 - c.u32 0) % 2 ^ 32 < 2 ^ 31)
      nb 4 ((h.head?.map (·.index)).getD c.d.flt.next) ++ nb 4 c.d.flt.next ++ ((from_.take (c.u8 4)).map Hist.bytes).flatten)
  ∧ Reads .faultRedundancyGet cmdFaultRedundancyGet (fun c => nb 8 c.d.causes ++ nb 8 (bitsOf c.d.spareUsed 64))
  ∧ Reads .faultLogRead cmdFaultLogRead (fun c =>
      nb 4 c.d.flt.nvBase ++ (((c.d.flt.nvLog.drop (c.u32 0 - c.d.flt.nvBase)).take (c.u8 4)).map fun x => x.h.bytes).flatten)
  ∧ Reads .faultCountGet cmdFaultCountGet (fun c =>
      ((List.range 48).map fun i => nb 8 (c.d.flt.fam.getD (i / 3, i % 3) 0)).flatten)
  ∧ Reads .counterConfigGet cmdCounterConfigGet (fun c =>
      let x := c.d.tele.ctr.getD (c.blk, c.u8 2) {}
      nb 8 x.cfg ++ nb 6 x.reload)
  ∧ Reads .tallyRead cmdTallyRead (fun c => nb 8 (c.d.tallyRead c.blk (c.u16 2) (c.u8 4)) ++ nb 5 c.d.now)
  ∧ Reads .bwWindowGet cmdBwWindowGet (fun c =>
      let w := c.d.tele.bw.getD (c.u16 0) {}
      nb 6 w.pTx ++ nb 6 w.pRx ++ nb 5 w.pStart ++ nb 1 w.pK ++ nb 1 (b2n w.pPart) ++ zeros 1 ++ nb 4 w.pSeq)
  ∧ Reads .traceRead cmdTraceRead (fun c =>
      let t := c.d.tele
      nb 4 t.trBase ++ nb 4 (t.trBase + t.trRecs.length) ++ nb 1 (b2n (t.trDone || ! t.trOn)) ++ zeros 7
        ++ ((t.trRecs.drop (c.u32 0 - t.trBase)).take (c.u8 4)).flatten)
  ∧ Reads .percolatorStatusGet cmdPercolatorStatusGet (fun c => ((List.range 6).map c.d.taskEntry).flatten ++ nb 1 c.d.mgmt.shed)
  ∧ Reads .slotStatusGet cmdSlotStatusGet (fun c =>
      let x := c.d.chan (c.u8 0)
      let code : Nat := match x.st with
        | .off => 0 | .waiting => 1 | .ramping => 2 | .on => 3 | .retry => 4 | .latched => 5 | .feedLost => 6 | .changeover => 7
      nb 1 code ++ nb 1 (x.feed.getD 0xFF) ++ nb 1 x.tries ++ nb 1 (b2n x.pg + 2 * b2n x.flagged) ++ nb 2 x.ma
        ++ nb 2 x.vout ++ nb 2 (c.d.feed (c.u8 0 / 8) 0).mv ++ nb 2 (c.d.feed (c.u8 0 / 8) 1).mv)
  ∧ Reads .slotConfigGet cmdSlotConfigGet (fun c => c.d.slotCfgIn (c.u8 1 == 1) (c.u8 0))
  ∧ Reads .feedStatusGet cmdFeedStatusGet (fun c =>
      let a := c.d.feed (c.u8 0) 0
      let b := c.d.feed (c.u8 0) 1
      nb 2 a.mv ++ nb 2 b.mv ++ nb 1 (b2n a.valid + 2 * b2n b.valid + 4 * b2n a.warn + 8 * b2n b.warn))
  ∧ Reads .clockStatusGet cmdClockStatusGet (fun c =>
      let w := c.d.pwr
      nb 1 w.clk ++ nb 1 (b2n (w.valid.getD 0 false) + 2 * b2n (w.valid.getD 1 false) + 4 * (c.d.setting 4 1 % 2)) ++ zeros 2
        ++ intBytes 2 (w.off.getD 0 0) ++ intBytes 2 (w.off.getD 1 0) ++ nb 4 w.failovers)
  ∧ Reads .imageStatusGet cmdImageStatusGet (fun c =>
      let one (k : Nat) : Bytes :=
        let x := c.d.flash k
        let ok := if k < 2 then c.d.fwOk x else c.d.cfgOk x
        nb 1 (b2n (x.valid && ok)) ++ nb 1 (b2n (c.d.img.fwUse == some k || c.d.img.cfgUse == some k)) ++ nb 1 x.major ++ nb 1 x.minor
          ++ nb 4 x.seq ++ nb 8 x.secVer
      (List.range 4).flatMap one ++ nb 8 c.d.sec.secVer ++ nb 4 (128 - c.d.img.retired.length))

/-- Acting commands of chapters 3 to 10 (Tables WEIR-7, CELL-10, BASIN-6, ORDER-7, LINK-4, LINK-10, BRIDGE-8). -/
def Obligations.TrafficCommands : Prop :=
  Serves .expeditedReserve cmdExpeditedReserve (fun c =>
      let r := c.u8 0
      let e := c.u16 2
      let d := c.d.stage r [({ op := 0x6003, a := r, b := e }, some (fit 12 c.f.payload))]
      let held := max (d.resvQ false r e) (d.resvQ true r e) + d.heldByOthers e r
      (d, .done (nb 2 c.resvAsk ++ nb 2 (d.calW e) ++ nb 2 (d.calW e - held))))
  ∧ Serves .pathReserve cmdPathReserve (fun c =>
      let h := c.d.weir.nextPath
      let x : Path := {
        reach := c.u8 0, egress := c.u16 2, rate := c.u32 4, burst := c.u16 8, q := c.pathAsk
        hops := (List.range (c.u8 1)).map fun k => slice c.f.payload (12 + 4 * k) 4
        t6 := c.d.clk.t6, phase := c.pathStart, long := some (c.f.mbx, c.f.tag) }
      ((c.d.onWeir fun w => { w with paths := w.paths.set h x, nextPath := h + 1 }).pathSend h x 0x08 0, .started (nb 4 h)))
  ∧ Serves .pathRelease cmdPathRelease (fun c =>
      let h := c.u32 0
      match c.d.weir.paths.get? h with
      | some x =>
        if (c.d.pathSend h x 0x0A 0).reachable x.egress then
          ((c.d.pathSend h x 0x0A 0).onPath h fun x => { x with freeing := true, active := false, q := 0, long := some (c.f.mbx, c.f.tag) },
            .started [])
        else (c.d.dropPath h, .ended .success [])
      | none => (c.d, .ended .success []))
  ∧ Serves .replicateWrite cmdReplicateWrite (fun c =>
      let g := c.u16 0
      let d := c.d.onFab fun f => { f with repl := f.repl.set c.d.weir.nextMsg { long := (c.f.mbx, c.f.tag), group := g, parts := 1 } }
      (d.enqueue {
        id := 0, link := (c.d.members g).head?.getD 0x100, kind := 1, cls := 3, reach := (c.d.groupReach g).getD 0, init := .mpc
        acc := .write, priv := true, addr := c.u64 4, len := c.u32 12, data := slice c.f.payload 16 (c.u32 12), dst := some (.group g)
        queued := true, tIn := c.d.now, tP := c.d.now }, .started []))
  ∧ (∀ dt f s, cmdBasinFill.accepts f s.mode s.profile (s.elapse dt).dev = true →
      ∃ d, exec (.basinFill dt f) s = .next { s.elapse dt with dev := d, mem := ((s.elapse dt).ctx f).filled s.mem })
  ∧ Serves .fabricFlush cmdFabricFlush (fun c =>
      let ls := c.flushLinks
      if ls.isEmpty then (c.d, .ended .success (nb 4 0))
      else (ls.foldl (fun d l => d.flushLink (c.f.mbx, c.f.tag) l)
        (c.d.onOrd fun o => { o with flushed := o.flushed.set (c.f.mbx, c.f.tag) (ls.length, 0) }), .started []))
  ∧ Serves .iggevoLaneWidthSet cmdIggevoLaneWidthSet (fun c =>
      let l := c.u16 0
      if (c.u8 3).testBit 0 ∨ (c.u8 3).testBit 1 then
        ((if (c.u8 3).testBit 0 then c.d.startChange l (c.u8 2) else c.d).onIg l fun g => { g with
          widthLong := some (c.f.mbx, c.f.tag), req := if (c.u8 3).testBit 1 then some (c.u8 2) else g.req }, .started [])
      else (c.d, .ended .success []))
  ∧ Serves .iggevoRetrain cmdIggevoRetrain (fun c =>
      (((c.d.onIg (c.u16 0) fun g => g.sendRetrain 3).igRetrain c.p (c.u16 0) 0x11).onIg (c.u16 0) fun g => { g with
        trainLong := some (c.f.mbx, c.f.tag) }, .started []))
  ∧ Serves .lockRelease cmdLockRelease (fun c =>
      let d := c.d.forceLock (c.u8 0) 0 (some (c.f.mbx, c.f.tag))
      (d, if (d.brg.near.get? (c.u8 0)).map (·.st) = some .releasing then .started [] else .ended .success []))

/-- Acting commands of chapters 11 to 14, 19 and 20 (Tables LANE-10, CXLP-8, REACH-4, NOC-9, SLOT-4, PWR-8). -/
def Obligations.PhysicalCommands : Prop :=
  Serves .laneStatusGet cmdLaneStatusGet (fun c =>
      let t := c.u8 0
      let n := c.u8 1
      let x := c.d.lane t n
      let live := c.d.laneLive t n
      let errs := if live then (Sys2Proof.Config.freeWord c.d.free).toNat % 2 ^ 32 else 0
      let d := if live then { c.d with free := c.d.free + 1 } else c.d
      let rate := if ! live then 0xFF else if c.d.tileCode t = 3 then 7
        else (c.d.port (c.d.laneLink t (if n = 9 then (c.d.sparedLane t).getD 0 else n))).rate
      (d, .done (nb 1 (c.d.laneState t n) ++ nb 1 (c.d.laneLogical t n) ++ nb 1 rate
        ++ nb 1 (b2n x.inv + 2 * b2n x.los + 4 * b2n x.lol + 8 * b2n x.rev) ++ nb 1 x.ctle ++ zeros 1
        ++ ((List.range 12).flatMap fun k => intBytes 1 (x.dfe.getD k 0)) ++ nb 2 x.eyeH ++ nb 2 x.eyeW ++ nb 4 errs ++ nb 4 x.cal ++ zeros 2)))
  ∧ Serves .laneSpareSet cmdLaneSpareSet (fun c =>
      let t := c.u8 0
      let k := some (c.f.mbx, c.f.tag)
      if c.u8 1 = 2 then
        if c.d.spareUsed t then (c.d.onIg (4 * t) fun g => { g with endSub := true, subLong := k }, .started []) else (c.d, .ended .success [])
      else if c.d.tileCode t = 3 then
        (c.d.onIg (4 * t) fun g => { g with sub := c.u8 2, subT := some c.d.clk.t6, subReady := false, subLong := k }, .started [])
      else (c.d.cxlSpare c.p t (c.u8 2), .ended .success []))
  ∧ Serves .laneEyeScan cmdLaneEyeScan (fun c => (c.d.onPhy fun x => { x with scan := x.scan.upd (c.u8 0, c.u8 1) {} fun y => { y with
      run := some (c.u8 2, c.u8 3, c.u32 4, c.f.mbx, c.f.tag) } }, .started []))
  ∧ Serves .laneTestSet cmdLaneTestSet (fun c => (c.d.onPhy fun x => { x with
      test := if c.u8 4 = 0 then x.test.erase (c.u8 0)
        else x.test.set (c.u8 0) { rate := c.u8 1, mask := c.u16 2, fn := c.u8 4, pat := c.u64 8 } }, .done []))
  ∧ (∀ dt f s, cmdLaneTestGet.accepts f s.mode s.profile (s.elapse dt).dev = true →
      ∃ n b, b.length = 42 ∧ exec (.laneTestGet dt f) s = .next ((s.elapse dt).onDev fun d =>
        ({ d.served f with free := n } : Dev).respond f 0x3006 .success b))
  ∧ Serves .tileConfigSet cmdTileConfigSet (fun c =>
      (((c.d.tileLinks (c.u8 0)).foldl (fun d l => d.anyDown c.p l) c.d).tileConfig c.m (c.u8 0) (c.u8 1), .done []))
  ∧ Serves .hotplugRequest cmdHotplugRequest (fun c =>
      let t := c.u8 0
      let k := some (c.f.mbx, c.f.tag)
      if c.u8 1 = 1 then (c.d.hotQueue c.m { tile := t, add := false, long := k }, .started [])
      else if (c.d.chan t).st = .on ∧ c.d.tileIn t then (c.d, .ended .success [])
      else ((c.d.onCxl fun x => { x with addHold := if x.addHold.contains t then x.addHold else x.addHold ++ [t] }).hotQueue c.m
        { tile := t, add := true, long := k }, .started []))
  ∧ Serves .ideKeyRefresh cmdIdeKeyRefresh (fun c => (c.d.onIde (c.u16 0) fun i => { i with
      busy := some (i.busy.getD c.d.clk.t6), longs := i.longs ++ [(c.f.mbx, c.f.tag)] }, .started []))
  ∧ (∀ dt f s, byteAt f.payload 3 < 2 → (cmdVppbUnbind true).accepts f s.mode s.profile (s.elapse dt).dev = true →
      exec (.vppbUnbind dt f) s = .next ((s.elapse dt).onDev fun d =>
        let c : Ctx := { m := s.mode, p := s.profile, d := d.served f, f := f }
        let d := c.d.stage c.vcsSet [({ op := 0x4000, a := c.u16 0, b := c.u8 2 }, some (nb 1 (c.u8 3)))]
        let d := (d.finLong? (d.vppb (c.u16 0, c.u8 2)).waitLong .aborted []).onVppb (c.u16 0, c.u8 2) fun v => { v with
          waitLong := some (f.mbx, f.tag) }
        (d.startLong f 0x4001).respond f 0x4001 .inProgress []))
  ∧ (∀ dt f s, ¬ byteAt f.payload 3 < 2 → (cmdVppbUnbind false).accepts f s.mode s.profile (s.elapse dt).dev = true →
      exec (.vppbUnbind dt f) s = .next ((s.elapse dt).onDev fun d =>
        let c : Ctx := { m := s.mode, p := s.profile, d := d.served f, f := f }
        (c.d.stage c.vcsSet [({ op := 0x4000, a := c.u16 0, b := c.u8 2 }, none)]).respond f 0x4001 .success []))
  ∧ Serves .vcsGet cmdVcsGet (fun c =>
      let v := c.u16 0
      let stg : Bool := c.u8 2 == 1
      let mgr : Bool := if stg then (byteAt ((c.d.staged 32 { op := 0x3021, a := v }).getD []) 3).testBit 0 else (c.d.port v).mgr
      ({ c.d with free := c.d.free + 32 },
        .done (nb 1 ((c.d.owner v 0xFF).getD 0xFF) ++ nb 1 (b2n mgr) ++ zeros 2 ++ (List.range 32).flatMap (c.d.vcsEntry stg v))))
  ∧ Serves .reachReset cmdReachReset (fun c =>
      let r := c.u8 0
      let d := if (c.d.set r).accepted then c.d else c.d.discard r
      ({ d with reset := d.reset.set r { epoch := epochAfter d.now, unbind := c.u8 1 == 1, long := some (c.f.mbx, c.f.tag) } }, .started []))
  ∧ Serves .nocStatsClear cmdNocStatsClear (fun c => (c.d.onNoc fun x => { x with
      stats := x.stats.filter fun e => ! (c.u8 0 == 0xFF || e.1.1 == c.u8 0) }, .done []))
  ∧ Serves .slotResetLatch cmdSlotResetLatch (fun c => (c.d.onChan (c.u8 0) fun x => { x with st := .off, tries := 0 }, .done []))
  ∧ Serves .slotFeedSelect cmdSlotFeedSelect (fun c =>
      (if (c.d.chan (c.u8 0)).st = .on ∧ (c.d.chan (c.u8 0)).feed ≠ some (c.u8 1) then c.d.changeover (c.u8 0) (c.u8 1) else c.d, .done []))
  ∧ Serves .supplyStatusGet cmdSupplyStatusGet (fun c =>
      let r := c.d.railReads railCount
      (r.2, .done (r.1 ++ nb 2 r.2.pwr.avsMv ++ nb 2 (r.2.meanPower / 1000) ++ nb 1 (b2n r.2.pwr.avsFault) ++ zeros 3)))
  ∧ Serves .clockSelect cmdClockSelect (fun c => (c.d.onPwr fun w => { w with clk := c.u8 0 }, .done []))
  ∧ Serves .shelfEnter cmdShelfEnter (fun c =>
      let lag := (Sys2Proof.Config.freeWord c.d.free).toNat % (50 * ms6 + 1)
      (({ c.d with free := c.d.free + 1 } : Dev).flushNv.onPwr fun w => { w with coreEn := false, coreEnT := c.d.clk.t6 + lag }, .done []))

/-- Acting commands of chapters 15, 17, 18 and 22 (Tables MBX-16, FAULT-12, TELE-10, IMAGE-5). -/
def Obligations.ManagementCommands : Prop :=
  Serves .eventRead cmdEventRead (fun c =>
      let m := c.f.mbx
      let x := c.d.mbx m
      let out := x.evq.take (c.u8 0)
      (c.d.onMbx m fun x => { x with evq := x.evq.drop (c.u8 0), lost := if m = .oob ∨ m = .tunnel then false else x.lost },
        .done (nb 2 out.length ++ nb 2 (x.evq.length - out.length) ++ nb 1 (b2n x.lost) ++ zeros 3 ++ (out.map EvRec.bytes).flatten)))
  ∧ Serves .stagingDiscard cmdStagingDiscard (fun c => (c.d.discard c.setNamed, .done []))
  ∧ Serves .mpcSwitchover cmdMpcSwitchover (fun c => (c.d.onMgmt fun g => { g with switching := some (c.f.mbx, c.f.tag) }, .started []))
  ∧ (∀ dt f s, (s.elapse dt).dev.commitWaits (commitSet f) = true →
      (cmdCommit true).accepts f s.mode s.profile (s.elapse dt).dev = true →
      exec (.commit dt f) s = .next ((s.elapse dt).onDev fun d =>
        ((((d.served f).arm (commitSet f) 0 true (some (f.mbx, f.tag))).startLong f 0x0003).respond f 0x0003 .inProgress [])))
  ∧ (∀ dt f s, (s.elapse dt).dev.commitWaits (commitSet f) = false →
      (cmdCommit false).accepts f s.mode s.profile (s.elapse dt).dev = true →
      exec (.commit dt f) s = .next ((s.elapse dt).onDev fun d =>
        let d := d.served f
        let e := epochAfter d.now
        let o : Owed := {
          mbx := f.mbx, opcode := 0x0003, tag := f.tag, sid := f.sid, epoch := e, set := some (commitSet f)
          payload := nb 5 e ++ zeros 3 ++ nb 4 (d.set (commitSet f)).changes.length }
        ((d.arm (commitSet f) e false none).onMgmt fun g => { g with owed := g.owed ++ [o] }).onMbx f.mbx fun x => { x with
          rung := none, wait := true, resp := none }))
  ∧ Serves .rulesetCommit cmdRulesetCommit (fun c =>
      (c.d.arm c.setNamed (leN c.f.payload 8 5) (c.d.commitWaits c.setNamed) (some (c.f.mbx, c.f.tag)), .started []))
  ∧ Serves .fmapiRequest cmdFmapiRequest (fun c =>
      let d := c.d.fmRun c.m c.p (c.u16 3) ((c.f.payload.drop 12).take (leN c.f.payload 5 3 % 2 ^ 21))
      let a := d.cxl.fmOut.getD (fmSuccess, [])
      ({ d with free := d.free + 256 },
        .done (nb 1 1 ++ nb 1 (c.u8 1) ++ nb 1 0 ++ nb 2 (c.u16 3) ++ nb 3 a.2.length ++ nb 2 a.1 ++ nb 2 0 ++ a.2)))
  ∧ Serves .faultStatusClear cmdFaultStatusClear (fun c =>
      let d := c.d.clearFault c.m c.faultScope (c.u64 8)
      (d, .done (nb 8 (d.faultStatus c.faultScope))))
  ∧ Serves .faultInject cmdFaultInject (fun c => (c.d.takeFault c.m (faultOfWord (leN c.f.payload 0 16)) true, .done []))
  ∧ Serves .counterConfigSet cmdCounterConfigSet (fun c => (c.d.onTele fun t => { t with
      ctr := t.ctr.upd (c.blk, c.u8 2) {} fun x => { x with cfg := c.u64 4, reload := leN c.f.payload 12 6 } }, .done []))
  ∧ Serves .counterRead cmdCounterRead (fun c =>
      let n := c.u8 3
      let lag := (Sys2Proof.Config.freeWord c.d.free).toNat % ((n - 1) * 200 + 1)
      let v (i : Nat) : Counter := c.d.tele.ctr.getD (c.blk, c.u8 2 + i) {}
      ({ c.d with free := c.d.free + 1 },
        .done (nb 5 c.d.now ++ nb 5 (c.d.now + lag) ++ nb 4 (bitsOf (fun i => (v i).ovf) n) ++ zeros 2
          ++ ((List.range n).map fun i => nb 8 (v i).value).flatten)))
  ∧ Serves .counterWrite cmdCounterWrite (fun c =>
      let key := (c.blk, c.u8 2)
      let x := c.d.tele.ctr.getD key {}
      let y : Counter := { x with
        value := if (c.u8 3).testBit 0 then leN c.f.payload 4 6 else x.value, ovf := x.ovf && ! (c.u8 3).testBit 1 }
      (c.d.onTele fun t => { t with ctr := t.ctr.set key y }, .done (nb 1 (b2n y.ovf))))
  ∧ Serves .bwWindowSet cmdBwWindowSet (fun c => (c.d.onTele fun t => { t with
      bw := t.bw.upd (c.u16 0) {} fun w => { w with newK := some (c.u8 2, c.d.now) } }, .done []))
  ∧ Serves .sampleRead cmdSampleRead (fun c =>
      let x := c.d.tele.samp.getD (c.u8 0) {}
      (c.d.onTele fun t => { t with samp := t.samp.set (c.u8 0) { x with recs := x.recs.drop (c.u8 1) } },
        .done (nb 1 (x.recs.take (c.u8 1)).length ++ nb 1 (x.recs.length - (x.recs.take (c.u8 1)).length) ++ nb 2 (min x.dropped 0xFFFF)
          ++ zeros 4 ++ (x.recs.take (c.u8 1)).flatten)))
  ∧ Serves .traceSet cmdTraceSet (fun c =>
      let on := (c.u8 0).testBit 0
      let d := if c.d.tele.trOn && ! on then
          c.d.noc.dom.foldl (fun d e =>
            match e.2 with
            | .off tOff cause => if e.1 < 64 && cause == 2 then d.gapRecord e.1 cause tOff (2 ^ 40 - 1) else d
            | _ => d) c.d
        else c.d
      (d.onTele fun t => { t with
        trOn := on, trStop := (c.u8 0).testBit 1, trMask := c.u8 1
        trCount := if on then 0 else t.trCount, trDone := if on then false else t.trDone }, .done []))
  ∧ Serves .traceMarker cmdTraceMarker (fun c => (c.d.traceRec 0x06 0xFF (c.u8 0) (slice c.f.payload 1 7), .done []))
  ∧ Serves .telemetrySet cmdTelemetrySet (fun c => (c.d.onTele fun t => { t with
      telLink := c.u16 0, telE := c.u8 2, telMask := c.u8 3, telBase := c.u64 4, telMs := c.u16 12
      tasks := t.tasks.set 5 { c.d.task 5 with period := c.u16 12 } }, .done []))
  ∧ Serves .percolatorSet cmdPercolatorSet (fun c => (c.d.onTele fun t => { t with
      tasks := t.tasks.set (c.u8 0) { c.d.task (c.u8 0) with period := c.u64 4 }
      telMs := if c.u8 0 = 5 then c.u64 4 else t.telMs }, .done []))
  ∧ Serves .saveImage cmdSaveImage (fun c =>
      let top := c.d.best 2 c.d.cfgOk
      let seq := c.d.nextSeq top
      (c.d.startFlash {
        op := 0xB001, mbx := c.f.mbx, tag := c.f.tag, copy := 5 - top.getD 3, after := c.d.cfgCopy c.d.snapshot seq
        reply := nb 4 seq ++ nb 4 c.d.snapshot.length ++ nb 1 (5 - top.getD 3 - 2) }, .started []))
  ∧ Serves .imageWrite cmdImageWrite (fun c =>
      let k := c.d.inactive (c.u8 0)
      let was := if (c.d.flash k).valid then [] else (c.d.flash k).data
      (c.d.startFlash {
        op := 0xB002, mbx := c.f.mbx, tag := c.f.tag, copy := k, after := { data := put was (c.u32 4) (c.f.payload.drop 8) }, reply := [] },
        .started []))
  ∧ Serves .imageFinish cmdImageFinish (fun c =>
      let k := c.d.inactive (c.u8 0)
      match c.d.finish (c.u8 0) (c.u32 4) with
      | .error e =>
        let d := c.d.onImg fun i => { i with copy := i.copy.upd k {} fun x => { x with valid := false } }
        (if c.u8 0 = 1 then d.audit .imageRejected 0xFF (some c.f.mbx) e.1.code else d, .ended e.1 e.2)
      | .ok x => (c.d.startFlash {
          op := 0xB003, mbx := c.f.mbx, tag := c.f.tag, copy := k, after := x, reply := nb 4 x.seq }, .started []))
  ∧ Serves .imageInvalidate cmdImageInvalidate (fun c => (c.d.onImg fun i => { i with
      copy := i.copy.upd (2 * (c.u8 0 - 1) + c.u8 1) {} fun x => { x with valid := false } }, .done []))
  ∧ Serves .securityVersionAdvance cmdSecurityVersionAdvance (fun c =>
      let v := max c.d.sec.secVer c.d.runningVer
      (c.d.onSec fun x => { x with secVer := v }, .done (nb 8 v)))

/-- Acting commands of chapter 16 (R377 to R387, Table SEC-5). ZEROIZE and DEBUG_ENABLE lead to the core reset into Safe. -/
def Obligations.SecurityCommands : Prop :=
  Serves .sessionChallenge cmdSessionChallenge (fun c =>
      let slot := c.u8 0
      let n := wordBytes 48 (Sys2Proof.Config.freeWord c.d.free)
      let k := c.d.cred slot
      let d : Dev := { c.d with free := c.d.free + 1 }
      (d.onSec fun x => { x with
        drbgReqs := x.drbgReqs + 1
        challs := (x.challs.filter fun h => ! (h.slot == slot && h.mbx == c.f.mbx))
          ++ [{ slot := slot, mbx := c.f.mbx, nonce := n, t6 := c.d.clk.t6 }] },
        .done (n ++ nb 1 k.method ++ zeros 3 ++ nb 4 k.iter ++ fit 32 k.salt)))
  ∧ (∀ dt f s, cmdOpenSession.accepts f s.mode s.profile (s.elapse dt).dev = true →
      let d0 := (s.elapse dt).dev.served f
      let slot := byteAt f.payload 0
      let nh := slice f.payload 4 48
      let k := d0.cred slot
      (∀ h, d0.challenge slot f.mbx = some h → slice f.payload 52 48 = hostProof k.key h.nonce nh slot f.mbx →
        exec (.openSession dt f) s = .next ((s.elapse dt).onDev fun _ =>
          let r := (d0.useChallenge slot f.mbx).drawId
          let x : Session := { id := r.1, slot := slot, role := k.role, mbx := f.mbx, last6 := d0.clk.t6, factory := k.factory }
          let d := (r.2.onCred slot fun k => { k with fails := 0, k := 0 }).onSec fun y => { y with sessions := y.sessions ++ [x] }
          (d.audit .opened slot (some f.mbx) 0).respond f 0x1002 .success (nb 4 r.1 ++ nb 1 k.role ++ zeros 3 ++ devProof k.key h.nonce nh r.1)))
      ∧ (∀ h, d0.challenge slot f.mbx = some h → slice f.payload 52 48 ≠ hostProof k.key h.nonce nh slot f.mbx →
        exec (.openSession dt f) s = .next ((s.elapse dt).onDev fun _ =>
          ((d0.useChallenge slot f.mbx).failedOpen slot f.mbx).respond f 0x1002 .accessDenied []))
      ∧ (d0.challenge slot f.mbx = none →
        exec (.openSession dt f) s = .next ((s.elapse dt).onDev fun _ => (d0.failedOpen slot f.mbx).respond f 0x1002 .accessDenied [])))
  ∧ Serves .closeSession cmdCloseSession (fun c => (c.d.closeSessions fun x => x.id == c.f.sid && x.mbx == c.f.mbx, .done []))
  ∧ Serves .credentialSet cmdCredentialSet (fun c =>
      let salt := if c.u8 3 = 1 then Sys2Proof.Config.freeWord c.d.free else 0
      let d : Dev := if c.u8 3 = 1 then
          ({ c.d with free := c.d.free + 1 } : Dev).onSec fun x => { x with drbgReqs := x.drbgReqs + 1 }
        else c.d
      (((d.onCred (c.u8 0) fun _ => newCred c (wordBytes 32 salt)).audit .credential (c.u8 0) (some c.f.mbx) 0).closeSessions
        fun x => x.slot == c.u8 0, .done []))
  ∧ Serves .selfTestRun cmdSelfTestRun (fun c => ((c.d.selfTests c.m).2, .ended .success (nb 4 (c.d.selfTests c.m).1)))
  ∧ Serves .auditRead cmdAuditRead (fun c =>
      let out := (c.d.sec.audit.filter fun a => decide (a.seq ≥ c.u64 0)).take (c.u16 8)
      (c.d.onSec fun x => { x with tamper := false }, .done (nb 8 c.d.sec.auditOver ++ (out.map fun a => a.head ++ fit 48 a.mac).flatten)))
  ∧ (∀ dt f s, cmdZeroize.accepts f s.mode s.profile (s.elapse dt).dev = true →
      exec (.zeroize dt f) s = .next (((s.elapse dt).onDev fun d => (d.served f).respond f 0x1007 .success []).zeroize 1))
  ∧ (∀ dt f s, cmdDebugEnable.accepts f s.mode s.profile (s.elapse dt).dev = true →
      exec (.debugEnable dt f) s = .next ((((s.elapse dt).onDev fun d => (d.served f).respond f 0x1009 .success []).zeroize 3).onDev fun d =>
        (d.onSec fun x => { x with debug := true }).audit .debugEnable 0xFF none 0))

/-- The path records that travel across Iggevo links (R66, R247, Table WEIR-10): what each hop does with its cells, and the two expiries. -/
def Obligations.PathMessages : Prop :=
  (∀ l msg, Acts (.pathHold · l msg) (fun _ _ d => hears 0x08 l msg d) fun m p d =>
      let x := (d.brgTake l msg).1
      let r := x.data
      let k := byteAt r 17
      let e := recLink r k
      let q := leN r 14 2
      let d := ((d.brgTake l msg).2.freeCredit l x.cred).dropFar r
      let s := (byteAt r 18 % 4 + d.pathShift m p l) % 4
      let bound := recReach r k < d.nReach ∧ d.isLink e = true
        ∧ (if d.isIggevo e then (d.farReach e (recReach r k)).isSome = true else d.ownsPart (recReach r k) e = true)
      if ¬ bound ∨ (k < byteAt r 16 ∧ d.isIggevo e = false) ∨ d.pathRefusal (recReach r k) e q s ≠ 0 then d.pathReply l k 7 false r
      else
        let d := d.setFar r {
          link := l, egress := e, reach := recReach r k, q := q, phase := s, hop := k, hops := byteAt r 16, record := r, t6 := d.clk.t6 }
        if k < byteAt r 16 then d.pathOnward 0x08 k (put r 18 (nb 1 s)) else d.pathReply l k 0 false r)
  ∧ (∀ l msg, Acts (.pathActivate · l msg) (fun _ _ d => hears 0x09 l msg d) fun _ _ d =>
      let x := (d.brgTake l msg).1
      let r := x.data
      let k := byteAt r 17
      let e := leN r 20 5
      let d := (d.brgTake l msg).2.freeCredit l x.cred
      match d.farPath r with
      | some y =>
        let late := tGe d.now e
        let d := d.setFar r { y with epoch := some e, record := if late then put y.record 19 (nb 1 1) else y.record }
        if k < y.hops then d.pathOnward 0x09 k r else d.pathReply l k 0 late r
      | none => d.pathReply l k 7 false r)
  ∧ (∀ l msg, Acts (.pathFree · l msg)
        (fun _ _ d => hears 0x0A l msg d ∧ leN (d.brgTake l msg).1.data 4 4 = ((d.brgTake l msg).2.freeCredit l (d.brgTake l msg).1.cred).switchId)
        fun _ _ d =>
      let x := (d.brgTake l msg).1
      let d := (d.brgTake l msg).2.freeCredit l x.cred
      match d.weir.paths.get? (leN x.data 0 4) with
      | some y => if y.egress = l then d.pathLost l (leN x.data 0 4) y else d
      | none => d)
  ∧ (∀ l msg, Acts (.pathRsp · l msg)
        (fun _ _ d => hears 0x18 l msg d ∧ leN (d.brgTake l msg).1.data 4 4 = ((d.brgTake l msg).2.freeCredit l (d.brgTake l msg).1.cred).switchId)
        fun _ _ d =>
      let x := (d.brgTake l msg).1
      let d := (d.brgTake l msg).2.freeCredit l x.cred
      match d.weir.paths.get? (leN x.data 0 4) with
      | some y => if y.egress = l then d.pathAnswer (leN x.data 0 4) x.h.status x.data y else d
      | none => d)
  ∧ (∀ o h y, Acts (.pathHoldExpiry · o h)
      (fun _ _ d => d.brg.paths.get? (o, h) = some y ∧ y.active = false ∧ y.epoch = none ∧ 40 * ms6 ≤ d.since y.t6)
      fun _ _ d => { d with brg := { d.brg with paths := d.brg.paths.erase (o, h) } })
  ∧ (∀ h x, Acts (.pathReserveTimeout · h)
      (fun _ _ d => d.weir.paths.get? h = some x ∧ x.stage < 2 ∧ x.freeing = false ∧ 20 * ms6 ≤ d.since x.t6)
      fun _ _ d => d.pathFail h x .aborted [])

/-- The cell fabric (R98, R100, R103 to R125): transfers, arrivals with their checks, the Lock chambers, missing numbers, multicast answers,
the loss of a plane and the pattern epoch. -/
def Obligations.FabricEvents : Prop :=
  (∀ pl, Acts (.stageTransfer · pl 1) (fun _ _ d => d.planesUsed.contains pl = true) fun _ _ d =>
      let sv := ascending d.fab.inSvc
      let shift := d.clk.cyc + pl * (sv.length / 2)
      sv.foldl (fun d t =>
        let i := tileAt sv ((posOf sv t + shift) % sv.length)
        match d.pick1 pl t i with
        | some c => d.fly 1 pl t i c
        | none => d) d)
  ∧ (∀ pl, Acts (.stageTransfer · pl 2) (fun _ _ d => d.planesUsed.contains pl = true) fun _ p d =>
      let sv := ascending d.fab.inSvc
      let shift := d.clk.cyc + pl * (sv.length / 2)
      let d := sv.foldl (fun d t =>
        let o := tileAt sv ((posOf sv t + shift) % sv.length)
        match d.pick2 pl t o with
        | some c => d.fly 2 pl t o c
        | none => d) d
      sv.foldl (fun d t =>
        match d.fifo fun c => c.loc == .aside t && decide (c.dst ≥ 0x100) with
        | some c => d.atDest p t c
        | none => d) d)
  ∧ (∀ id c stage src tile plane, Acts (.cellArrival · id .failed)
      (fun _ _ d => d.fab.cells.find? (fun c => decide (c.id = id)) = some c ∧ c.loc = .flight stage src tile plane ∧ c.elig ≤ d.clk.cyc)
      fun _ _ d => d.xferFailed stage src tile plane c)
  ∧ (∀ id c stage src tile plane, Acts (.cellArrival · id .malformed)
      (fun _ _ d => d.fab.cells.find? (fun c => decide (c.id = id)) = some c ∧ c.loc = .flight stage src tile plane ∧ c.elig ≤ d.clk.cyc)
      fun _ _ d => ((d.count 0x050 tile 0x3F tile).sendFault 2 tile 1 1 c.reach 0).loseCell c)
  ∧ (∀ id c stage src tile plane, Acts (.cellArrival · id .ok)
      (fun _ _ d => d.fab.cells.find? (fun c => decide (c.id = id)) = some c ∧ c.loc = .flight stage src tile plane ∧ c.elig ≤ d.clk.cyc)
      fun _ p d =>
        let d := d.onCell id fun x => { x with resent := false }
        if stage = 1 ∧ c.dst < 0x100 then d.atInter tile { c with resent := false }
        else d.atDest p (if stage = 1 then tile else src) { c with resent := false })
  ∧ (∀ id c stage src tile plane, Acts (.cellArrival · id .corrected)
      (fun _ _ d => d.fab.cells.find? (fun c => decide (c.id = id)) = some c ∧ c.loc = .flight stage src tile plane ∧ c.elig ≤ d.clk.cyc)
      fun _ p d =>
        let d := (d.sendFault 2 tile 3 0 c.reach 0).onCell id fun x => { x with resent := false }
        if stage = 1 ∧ c.dst < 0x100 then d.atInter tile { c with resent := false }
        else d.atDest p (if stage = 1 then tile else src) { c with resent := false })
  ∧ (∀ e, Acts (.lockChamberRelease · e) (fun _ _ _ => True) fun _ p d => (d.releaseOne p e).releaseOne p e)
  ∧ (∀ e, Acts (.lockAck · e) (fun _ _ d => (d.fab.relNext.any fun x =>
        decide (destOf x.1.dst = e) && decide (x.1.sp ≠ .pinned) && decide (d.fab.acked.getD x.1 0 < x.2)) = true) fun _ _ d =>
      let moved := d.fab.relNext.filter fun x =>
        decide (destOf x.1.dst = e) && decide (x.1.sp ≠ .pinned) && decide (d.fab.acked.getD x.1 0 < x.2)
      (d.onFab fun f => { f with acked := moved.foldl (fun t x => t.set x.1 x.2) f.acked }).nocSend (if e < 64 then e else e + 14) 1)
  ∧ (∀ src e sp seq c, Acts (.seqMissing · src e sp seq)
      (fun _ _ d =>
        let k : SpaceKey := { src, dst := e, sp := sp, par := ! d.fab.parity }
        let n := d.relNext k
        sp ≠ .pinned ∧ n % 65536 = seq ∧ d.fab.holds.contains (k, n) = false ∧ d.gated k = false
        ∧ (d.fab.cells.any fun c => c.loc == .lock && decide (c.space = k) && decide (d.cycles6 (d.clk.cyc - c.elig) ≥ 2 * us6)) = true
        ∧ d.fab.cells.find? (fun c => c.numbered && decide (c.kind ≠ 0xB) && decide (c.space = k) && decide (c.seq = n)) = some c)
      fun _ p d => d.missing p c true)
  ∧ (∀ i t, Acts (.mcastAggregate · i)
      (fun _ _ d => d.weir.trk.get? i = some t ∧ t.group.isSome = true ∧ t.left = [] ∧ t.done = false ∧ t.init ≠ .mpc)
      fun _ _ d => (d.onTrk i fun t => { t with done := true, performed := true, rspOut := true }).genRsp t.src i t 0 [] false false)
  ∧ (∀ i t r, Acts (.mcastAggregate · i)
      (fun _ _ d => d.weir.trk.get? i = some t ∧ t.group.isSome = true ∧ t.left = [] ∧ t.done = false ∧ t.init = .mpc
        ∧ (d.dropTrk i).fab.repl.get? t.grp = some r)
      fun _ _ d =>
        let d := (d.dropTrk i).onFab fun f => { f with repl := f.repl.set t.grp { r with parts := r.parts - 1, lost := r.lost ++ t.lost } }
        if r.parts ≤ 1 then d.finRepl t.grp false else d)
  ∧ (∀ pl bist, Acts (.planeLost · pl bist)
      (fun _ _ d => pl < 2 ∧ d.fab.planes.getD pl false = true
        ∧ (bist = true ∨ 16 ≤ ((d.fab.fails.getD pl []).filter fun t => decide (d.since t < ms6)).length))
      fun _ _ d => d.planeOut pl (some (if bist then 0 else ((d.fab.fails.getD pl []).filter fun t => decide (d.since t < ms6)).length)))
  ∧ (∀ r, Acts .patternEpoch
      (fun _ _ d => d.fab.repat = some r ∧ d.fab.closing = [] ∧ d.fab.cells.any (d.owed r) = false) fun _ _ d => d.patternEpoch r)
  ∧ (∀ r, Acts .patternChangeTimeout (fun _ _ d => d.fab.repat = some r ∧ 100 * us6 ≤ d.since r.t6) fun _ p d =>
      let due := d.fab.cells.filter fun c => d.owed r c || (d.fab.closing.contains c.space && c.numbered && decide (c.kind ≠ 0xB)
        && decide (c.seq ≥ d.relNext c.space))
      (due.foldl (fun d c =>
        if ! d.fab.cells.any (fun x => decide (x.id = c.id)) then d
        else if c.kind = 0xC ∨ c.kind = 0xB then d.removeCell c
        else d.missing p c false) d).onFab fun f => { f with closing := [] })

/-- Queues, held cells and the Basin stacks (R119, R129, R135, R137, R141 to R148, R184 to R189, R529): slots, accesses, AtomicOps, scrubbing and losses;
the Basin memory as each row leaves it. -/
def Obligations.BasinEvents : Prop :=
  Acts .queueStateBroadcast (fun _ _ _ => True) (fun _ _ d =>
      let d := d.onFab fun f => { f with bcast := d.bas.qst }
      d.fab.cells.foldl (fun d c => d.divertWaiting c) d)
  ∧ (∀ l q c, Acts (.basinReturn · l q) (fun _ p d => d.firstHeld l q = some c ∧ d.takesBack p l q = true) fun _ p d =>
      ((d.moveCell c.id (.inter (tileAt d.fab.inSvc (d.clk.cyc % max 1 d.fab.inSvc.length)))).onCell c.id fun x => { x with bsn := true }).settle p l q)
  ∧ (∀ id c st, Acts (.basinCellLost · id)
      (fun _ _ d => d.fab.cells.find? (fun c => decide (c.id = id)) = some c ∧ c.loc = .basin st) fun _ p d => d.heldLost p c st)
  ∧ (∀ k, Acts (.basinSlot · k) (fun _ _ d => k < 2 ∧ d.bas.stack.getD k .lost = .inService) fun _ _ d =>
      let slot := d.bas.frame.getD k 0
      let own := slotOwner (! d.bas.stack.contains .lost) slot
      let got := if d.hasWork k own then own else (rotate 4 (d.clk.cyc % 4) (d.hasWork k)).getD own
      { d with bas := { d.bas with frame := d.bas.frame.set k ((slot + 1) % 16), grant := d.bas.grant.set k got } })
  ∧ (∀ port id x, Acts (.basinMemoryAccess · port id)
      (fun _ _ d => d.portMsg port id = some x ∧ d.bas.stack.getD port .lost = .lost)
      fun _ _ d => (d.sendFault 1 (x.link % 256 / 4) 2 1 x.reach x.addr).portDone x port (x.trk.getD 65536) 1 [] false)
  ∧ (∀ dt s port id x, (s.elapse dt).dev.portMsg port id = some x → (s.elapse dt).dev.bas.stack.getD port .lost ≠ .lost → x.acc = .read →
      x.resv = false →
      exec (.basinMemoryAccess dt port id) s = .next ((s.elapse dt).onDev fun d =>
        d.portDone x port (x.trk.getD 65536) 0 (s.mem.read x.off x.len) (s.mem.poisoned x.off x.len)))
  ∧ (∀ dt s port id x, (s.elapse dt).dev.portMsg port id = some x → (s.elapse dt).dev.bas.stack.getD port .lost ≠ .lost → x.acc = .read →
      x.resv = true →
      exec (.basinMemoryAccess dt port id) s = .next ((s.elapse dt).onDev fun d =>
        (d.monSet x.init x.reach (0x100 + port) x.off).portDone x port (x.trk.getD 65536) 0 (s.mem.read x.off x.len) (s.mem.poisoned x.off x.len)))
  ∧ (∀ dt s port id x, (s.elapse dt).dev.portMsg port id = some x → (s.elapse dt).dev.bas.stack.getD port .lost ≠ .lost → x.acc = .write →
      x.resv = false →
      exec (.basinMemoryAccess dt port id) s = .next (
        let r := (s.elapse dt).dev.applyWrite s.mem x.init port x.off x.len x.writeCells x.poison
        { s.elapse dt with dev := r.1.portDone x port (x.trk.getD 65536) 0 [] false, mem := r.2 }))
  ∧ (∀ dt s port id x, (s.elapse dt).dev.portMsg port id = some x → (s.elapse dt).dev.bas.stack.getD port .lost ≠ .lost → x.acc = .write →
      x.resv = true →
      exec (.basinMemoryAccess dt port id) s = .next (
        let c := (s.elapse dt).dev.monStore x.init x.reach (0x100 + port) x.off
        let r := if c.1 then c.2.applyWrite s.mem x.init port x.off x.len x.writeCells x.poison else (c.2, s.mem)
        { s.elapse dt with dev := r.1.portDone x port (x.trk.getD 65536) 0 [] false, mem := r.2 }))
  ∧ (∀ dt s port id x aop n v, (s.elapse dt).dev.portMsg port id = some x → (s.elapse dt).dev.bas.stack.getD port .lost ≠ .lost →
      x.acc = .atomic aop n → (n = 4 ∨ n = 8 ∨ (n = 16 ∧ aop = 2)) → aopResult aop n (s.mem.read x.off n) x.data = some v →
      exec (.basinAtomicop dt port id) s = .next (
        let r := (s.elapse dt).dev.applyWrite s.mem x.init port x.off n (cellsAt x.off v) (s.mem.poisoned x.off n)
        { s.elapse dt with
          dev := r.1.portDone x port (x.trk.getD 65536) 0 (s.mem.read x.off n) (s.mem.poisoned x.off n), mem := r.2 }))
  ∧ (∀ dt s port id x aop n, (s.elapse dt).dev.portMsg port id = some x → (s.elapse dt).dev.bas.stack.getD port .lost ≠ .lost →
      x.acc = .atomic aop n → ¬ (n = 4 ∨ n = 8 ∨ (n = 16 ∧ aop = 2)) →
      exec (.basinAtomicop dt port id) s = .next ((s.elapse dt).onDev fun d => d.portDone x port (x.trk.getD 65536) 1 [] false))
  ∧ (∀ k line, Acts (.dredgerScrub · k line .clean)
      (fun _ _ d => k < 2 ∧ line < stackLines ∧ d.bas.stack.getD k .lost = .inService) fun _ _ d => d.scrubbed k line)
  ∧ (∀ k line n, Acts (.dredgerScrub · k line (.corrected n))
      (fun _ _ d => k < 2 ∧ line < stackLines ∧ d.bas.stack.getD k .lost = .inService)
      fun _ _ d => ((d.count 0x123 64 0x3F k).sendFault 3 k 1 0 0x3F (line * 64)).scrubbed k line)
  ∧ (∀ dt s k line c off, k < 2 → line < stackLines → (s.elapse dt).dev.bas.stack.getD k .lost = .inService →
      (((s.elapse dt).dev.lineError k).scrubbed k line).stackOffset k (line * 64) = some off →
      exec (.dredgerScrub dt k line (.uncorrectable c)) s = .next (
        let d := ((s.elapse dt).dev.lineError k).scrubbed k line
        { s.elapse dt with
          dev := d.sendFault 3 k 2 1 ((d.gibOwner false 0 (off / gib)).getD 0x3F) off
          mem := { s.mem with poison := if s.mem.poison.contains off then s.mem.poison else s.mem.poison ++ [off] } }))
  ∧ (∀ k cause, Acts (.stackLost · k cause)
      (fun _ _ d => k < 2 ∧ d.bas.stack.getD k .lost ≠ .lost ∧ 1 ≤ cause ∧ cause ≤ 3
        ∧ (cause = 2 → 16 ≤ ((d.bas.errs.getD k []).filter fun t => decide (d.since t < s6)).length))
      fun _ p d => d.stackOut p k (some cause))
  ∧ (∀ dt s g, (s.elapse dt).dev.bas.clearing.contains g = true →
      exec (.basinGibCleared dt g) s = .next (
        let d := (s.elapse dt).dev
        { s.elapse dt with
          dev := { d with bas := { d.bas with clearing := d.bas.clearing.filter fun x => decide (x ≠ g) } }, mem := s.mem.clear (g * gib) gib }))

/-- Egress and admission (R36, R48, R57 to R69, R86, R138, R153, R162, R206, R208): arrivals, evaluation, the scheduler's choice, departure,
refills, stalls, demotion, parking, and the answers of rule bank lookups. -/
def Obligations.AdmissionEvents : Prop :=
  (∀ a, Acts (.ingressArrival · a) (fun _ _ _ => True) fun _ p d => d.arrive p a)
  ∧ (∀ t x, Acts (.weirEvaluate · t) (fun m _ d => d.weirPick m t = some x) fun m p d => d.evaluate m p x)
  ∧ (∀ src x, Acts (.selfGeneratedAdmission · src)
      (fun m _ d => d.weir.q.find? (fun x => decide (x.link = src) && x.queued && ! d.barred m x) = some x) fun m p d => d.evaluate m p x)
  ∧ (∀ t r i bx by_ k l q, Acts (.artLookupAnswer · t r i bx by_ k l q)
      (fun _ _ d => let b := if t < 32 then 0 else 2
        d.art.up.getD b true = true ∧ d.art.up.getD (b + 1) true = true ∧ bx.ecc = 1 ∧ by_.ecc = 0)
      fun _ _ d => d.sendFault 1 (if t < 32 then 0 else 2) 0x10 0 r (i % 65536))
  ∧ (∀ t r i bx by_ z l q, Acts (.artLookupAnswer · t r i bx by_ (some z) l q)
      (fun _ _ d => let b := if t < 32 then 0 else 2
        d.art.up.getD b true = true ∧ d.art.up.getD (b + 1) true = true ∧ bx.ecc = 0 ∧ by_.ecc = 0 ∧ bx.entry ≠ by_.entry ∧ z.entry = bx.entry)
      fun _ _ d => d.artBankOut ((if t < 32 then 0 else 2) + 1))
  ∧ (∀ l x t0, Acts (.expeditedDemoted · l)
      (fun m p d => d.head m l 1 = some x ∧ x.firstT = some t0 ∧ 2048 * 6 ≤ d.since t0 ∧ x.rsp = none ∧ x.acc ≠ .none ∧ x.demoted = false
        ∧ (1 ≤ x.colour ∨ ((d.judgeMsg p x).targets.any fun t => d.timeDegraded t.e) = true))
      fun _ _ d => (d.onWeir fun w => { w with q := w.q.map fun y => if y.id = x.id then { x with demoted := true } else y }).count
        0x108 (l / 4) x.reach x.reach)
  ∧ Acts .pressureRecompute (fun _ _ _ => True) (fun _ p d => d.samplePressure p)
  ∧ (∀ t, Acts (.tilePark · t)
      (fun m p d => capped m p = true ∧ t < 64 ∧ d.tileBound t = false ∧ d.tileWork t = false ∧ ms6 ≤ d.since (d.weir.lastAdm.getD t 0))
      fun _ _ d => d.fence t 1)
  ∧ (∀ t, Acts (.tileUnpark · t) (fun _ _ _ => t < 64) fun _ _ d => d.powerOn t)
  ∧ (∀ l, Acts (.transmitUnit · l) (fun _ _ d => d.curRate l ≠ 0 ∧ d.egr.stall.contains l = false ∧ d.isIggevo l = false)
      fun _ p d => d.transmit p l)
  ∧ (∀ l f rest, Acts (.transmitUnit · l)
      (fun _ _ d => d.curRate l ≠ 0 ∧ d.egr.stall.contains l = false ∧ d.isIggevo l = true ∧ (d.igg l).resend = f :: rest)
      fun _ _ d => d.onIg l fun g => { g.sendHeld f with resend := rest })
  ∧ (∀ l, Acts (.transmitUnit · l)
      (fun _ _ d => d.curRate l ≠ 0 ∧ d.egr.stall.contains l = false ∧ d.isIggevo l = true ∧ (d.igg l).resend = [] ∧ (d.igg l).full = true)
      fun _ _ d => d.onIg l Ig.sendAny)
  ∧ (∀ l id x i, Acts (.egressDeparture · l id)
      (fun _ _ d => d.weir.fly.get? id = some x ∧ d.cellsOf id ≠ [] ∧ ((d.cellsOf id).all fun c => decide (c.dst = l) && c.loc == .sent) = true
        ∧ x.trk = some i)
      fun _ _ d => (((d.checkDeadline l x).dropCells id).onEgr fun e => { e with
        begun := e.begun.erase id, overMsg := e.overMsg.filter (fun y => decide (y ≠ id))
        cutMsgs := e.cutMsgs.filter (fun y => decide (y ≠ id)) }).requestOut l x i)
  ∧ (∀ l id x i, Acts (.egressDeparture · l id)
      (fun _ _ d => d.weir.fly.get? id = some x ∧ d.cellsOf id ≠ [] ∧ ((d.cellsOf id).all fun c => decide (c.dst = l) && c.loc == .sent) = true
        ∧ x.trk = none ∧ x.rsp = some i)
      fun _ _ d => (((d.checkDeadline l x).dropCells id).onEgr fun e => { e with
        begun := e.begun.erase id, overMsg := e.overMsg.filter (fun y => decide (y ≠ id))
        cutMsgs := e.cutMsgs.filter (fun y => decide (y ≠ id)) }).responseOut x i)
  ∧ (∀ l, Acts (.shaperRefill · l) (fun _ _ d => d.isLink l = true) fun _ _ d => [3, 4, 5, 6, 7, 8].foldl (fun d t => d.refill l t) d)
  ∧ (∀ l, Acts (.egressStall · l) (fun _ _ d => d.curRate l ≠ 0 ∧ d.egr.stall.contains l = false) fun _ p d =>
      [3, 4, 5, 6].foldl (fun d q => d.settle p l q) ((d.onEgr fun e => { e with stall := e.stall ++ [l] }).count 0x107 (l / 4) 0x3F l))

/-- Ordering and the internal network (R181 to R183, R190, R192, R328 to R331): Fabric Flushes, monitors, status pages, lost packets and the
Sluice. -/
def Obligations.OrderAndNocEvents : Prop :=
  (∀ l y, Acts (.fabricFlushRead · l)
      (fun m _ d => d.isCxl l = true ∧ (d.port l).up = true
        ∧ (d.ingress { id := 0, link := l, kind := 7, cls := 3, reach := (d.owner l 0xFF).getD 0, init := .link l, acc := .flush
                       tIn := d.now, tP := d.now }).head m l 3 = some y ∧ y.id ≠ d.weir.nextMsg)
      fun _ _ d => d.ingress { id := 0, link := l, kind := 7, cls := 3, reach := (d.owner l 0xFF).getD 0, init := .link l, acc := .flush
                               tIn := d.now, tP := d.now })
  ∧ (∀ l y, Acts (.fabricFlushRead · l)
      (fun m _ d => d.isCxl l = true ∧ (d.port l).up = true
        ∧ (d.ingress { id := 0, link := l, kind := 7, cls := 3, reach := (d.owner l 0xFF).getD 0, init := .link l, acc := .flush
                       tIn := d.now, tP := d.now }).head m l 3 = some y ∧ y.id = d.weir.nextMsg
        ∧ (d.ingress { id := 0, link := l, kind := 7, cls := 3, reach := (d.owner l 0xFF).getD 0, init := .link l, acc := .flush
                       tIn := d.now, tP := d.now }).behind y = false)
      fun m p d => (d.ingress { id := 0, link := l, kind := 7, cls := 3, reach := (d.owner l 0xFF).getD 0, init := .link l, acc := .flush
                                tIn := d.now, tP := d.now }).evaluate m p y)
  ∧ (∀ id f, Acts (.flushComplete · id)
      (fun _ _ d => d.ord.flush.find? (fun f => decide (f.id = id)) = some f ∧ d.flushReady f = true) fun _ _ d => d.endFlush f)
  ∧ (∀ id, Acts (.flushTimeout · id) (fun _ _ _ => True) fun _ _ d => d.flushLate id false)
  ∧ Acts .monitorAgeExpiry (fun _ _ _ => True) (fun _ _ d => d.loseMons (fun m => decide (d.since m.t6 ≥ 600000)) 3)
  ∧ (∀ l w x a, Acts (.statusPageRead · l w)
      (fun m p d => d.head m l 3 = some x ∧ (d.judgeMsg p x).page = true ∧ d.aliasAt x.reach x.addr = some (w, a, true)
        ∧ d.orderHeld p x (d.judgeMsg p x) 3 = false)
      fun _ _ d =>
        let rec_ := (d.ord.srec.getD x.init {}).bytes
        let d := (d.dequeue x).onSrec x.init fun r => { r with outcome := 0, cause := 0 }
        d.genRsp x.link 65536 (d.asTrk x 3) 0 ((List.range x.len).map fun k => rec_.getD ((x.addr + k) % 64) 0) false false)
  ∧ (∀ net dom b, Acts (.nocPacketLost · net dom b) (fun _ _ _ => True) fun _ _ d =>
      let d := if b then d.onFlt fun f => { f with transit := f.transit.drop 1 } else d
      ((d.count 0x124 64 0x3F net).countDev 0x205 net).sendFault 9 dom 1 1 0x3F net)
  ∧ (∀ k cause, Acts (.sluiceFenceRequest · k cause) (fun _ _ _ => True) fun _ _ d => d.fence k cause)
  ∧ (∀ k t cause, Acts (.sluiceDrainDone · k) (fun _ _ d => d.noc.dom.get? k = some (.fencing t cause)) fun _ _ d => d.switchOff k cause)
  ∧ (∀ k t cause, Acts (.sluiceForced · k) (fun _ _ d => d.noc.dom.get? k = some (.fencing t cause) ∧ 100 * us6 ≤ d.since t) fun _ _ d =>
      let n := (Sys2Proof.Config.freeWord d.free).toNat % 2 ^ 16
      ((({ d with free := d.free + 1 } : Dev).countDev 0x206 k).sendFault 9 k 2 1 0x3F n).switchOff k 3)
  ∧ (∀ k, Acts (.domainPowerOn · k) (fun _ _ _ => True) fun _ _ d => d.powerOn k)

/-- Iggevo links (R197 to R208, R210, R214, R217 to R220, R222 to R225): flits, acknowledgement, retraining, the exchange of link records, time
flits and the choice of the upstream. The order of classes in headers is the model's choice (assumption 141). -/
def Obligations.IggevoEvents : Prop :=
  (∀ l fl, Acts (.flitReceived · l fl)
      (fun _ _ d => d.isIggevo l = true ∧ ((d.igg l).st = .active ∨ (d.igg l).st = .exchange) ∧ fl.errs.any (fun n => decide (n > 5)) = true)
      fun _ p d => (d.stuffErrors l fl).discardFlit p l true)
  ∧ (∀ l fl, Acts (.flitReceived · l fl)
      (fun _ _ d => d.isIggevo l = true ∧ ((d.igg l).st = .active ∨ (d.igg l).st = .exchange) ∧ fl.errs.any (fun n => decide (n > 5)) = false
        ∧ fl.errs.sum = 0 ∧ crc64 (flitBody fl) ≠ fl.crc)
      fun _ p d => (d.stuffErrors l fl).discardFlit p l true)
  ∧ (∀ l fl tr msgs, Acts (.flitReceived · l fl)
      (fun _ _ d =>
        let h := fl.hdr.toNat
        let g := d.igg l
        d.isIggevo l = true ∧ g.st = .active ∧ g.pCd = 1 ∧ fl.errs.any (fun n => decide (n > 5)) = false ∧ fl.errs.sum = 0
        ∧ crc64 (flitBody fl) = fl.crc ∧ bits h 127 124 ≠ 1 ∧ ((List.range 8).map (flitDesc h)).any (fun x => decide (x / 32 ≠ 7)) = true
        ∧ bits h 123 112 = g.e
        ∧ takeSlots g.tracks (((List.range 8).map (flitDesc h)).zip ((List.range 8).map fun k => fit 64 (fl.slots.getD k []))) = some (tr, msgs)
        ∧ badHeader false h = false)
      fun _ p d0 =>
        let d := d0.stuffErrors l fl
        ((d.onIg l fun g => { g with bad8 := 0 }).onIg l fun g =>
        { g.accept d.clk.t6 with tracks := tr, rx := g.rx ++ msgs.map fun m => (m.1, m.2, d.now) }).liveFields p l fl.hdr.toNat)
  ∧ (∀ l t, Acts (.ackTimer · l) (fun _ _ d => (d.igg l).ackT = some t ∧ 1200 ≤ d.since t) fun _ _ d =>
      d.onIg l fun g => { g with ack := (g.e + 4095) % 4096, since := 0, ackT := none })
  ∧ (∀ l t, Acts (.replayRequestTimeout · l) (fun _ _ d => (d.igg l).outst = some t ∧ 2 * us6 ≤ d.since t) fun _ _ d =>
      d.onIg l fun g => { g with outst := none })
  ∧ (∀ l cause, Acts (.retrain · l cause) (fun _ _ d => d.isIggevo l = true ∧ cause ∈ [1, 2, 3, 0x10, 0x11])
      fun _ p d => d.igRetrain p l cause)
  ∧ (∀ l, Acts (.linkDown · l .replayLimit) (fun _ _ d => d.isIggevo l = true ∧ (d.igg l).st = .active) fun _ p d => d.igDown p l)
  ∧ (∀ l, Acts (.linkDown · l .retrainTimeout)
      (fun _ _ d => d.isIggevo l = true ∧ (d.igg l).resume = true ∧ (d.igg l).st ≠ .active ∧ 10 * ms6 ≤ d.since (d.igg l).t6)
      fun _ p d => d.igDown p l)
  ∧ (∀ l r n, Acts (.linkRecordReceived · l r n) (fun _ _ d => d.isIggevo l = true ∧ (d.igg l).st = .exchange ∧ recordBad r = true)
      fun _ _ d => d.count 0x116 (l / 4) 0x3F l)
  ∧ (∀ l r n, Acts (.linkRecordReceived · l r n)
      (fun _ _ d => d.isIggevo l = true ∧ (d.igg l).st = .exchange ∧ recordBad r = false ∧ byteAt r 0 = 1 ∧ leN r 4 4 ≠ d.switchId
        ∧ recordCredit r = true ∧ (d.igg l).resume = true ∧ (byteAt r 1).testBit 3 = false)
      fun _ p d => d.igDown p l)
  ∧ (∀ l r n, Leaves (.linkRecordReceived · l r n)
      (fun _ _ d => d.isIggevo l = true ∧ (d.igg l).st = .exchange ∧ recordBad r = false ∧ byteAt r 0 = 1 ∧ leN r 4 4 ≠ d.switchId
        ∧ recordCredit r = true ∧ (d.igg l).resume = false)
      fun _ d' => (d'.igg l).pId = leN r 4 4 ∧ (d'.igg l).pRec = some r)
  ∧ (∀ l, Leaves (.exchangeComplete · l)
      (fun _ _ d => d.isIggevo l = true ∧ (d.igg l).st = .exchange ∧ (d.igg l).exCd ≠ 0 ∧ (d.igg l).resume = false) fun _ _ => True)
  ∧ (∀ l, Acts (.exchangeFailed · l)
      (fun _ _ d => d.isIggevo l = true ∧ (d.igg l).st = .exchange ∧ 100 * us6 ≤ d.since (d.igg l).stageT) fun _ _ d => d.exFail l)
  ∧ (∀ l, Acts (.timeFlitSend · l)
      (fun _ _ d => d.isIggevo l = true ∧ (d.igg l).st = .active ∧ (d.igg l).cd = none ∧ (d.igg l).tfSent ≠ some (d.now / 8192))
      fun _ _ d => d.onIg l fun g => { g.emit (1, 0) g.lastSeq [(0xA3, d.linkRecord l d.now16)] with
        tfSent := some (d.now / 8192), lastTx := some d.now16 })
  ∧ (∀ l r n, Acts (.timeFlitReceived · l r n)
      (fun _ _ d => d.isIggevo l = true ∧ (d.igg l).st = .active ∧ (d.igg l).pCd = 1 ∧ recordBad r = false ∧ recordTimes r n = none)
      fun _ _ d => (d.onIg l fun g => { g with tfT := d.clk.t6 }).degrade l fun g => g.noteRecord r n)
  ∧ (∀ l r n delay theta, Acts (.timeFlitReceived · l r n)
      (fun _ _ d => d.isIggevo l = true ∧ (d.igg l).st = .active ∧ (d.igg l).pCd = 1 ∧ recordBad r = false
        ∧ recordTimes r n = some (delay, theta))
      fun _ _ d =>
        let d := (d.onIg l fun g => { g with tfT := d.clk.t6 }).degrade l fun g =>
          let bad := if theta.natAbs > 96 then g.tdBad + 1 else 0
          let good := if theta.natAbs ≤ 64 then g.tdGood + 1 else 0
          let g := { g.noteRecord r n with
            thetas := (g.thetas ++ [theta]).drop (g.thetas.length + 1 - 8), tdBad := bad, tdGood := good }
          { g with tdOwn := if bad ≥ 4 then true else if good ≥ 8 then false else g.tdOwn
                   conflict := g.conflict && decide (good < 8) }
        if d.tim.up = some l then d.onClk fun c => { c with slew := -(meanTheta48 (d.igg l).thetas), slewT := 0 } else d)
  ∧ (∀ l, Acts (.timeFlitMissing · l) (fun _ _ d => d.isIggevo l = true ∧ (d.igg l).st = .active ∧ 196608 ≤ d.since (d.igg l).tfT)
      fun _ _ d => d.degrade l fun g => { g with tdOwn := true })
  ∧ (∀ x, Acts .upstreamSelect
      (fun m _ d => m.tenant = false ∧ bestTime d.timeOffers = some x ∧ betterTime x (d.switchId, 0, 0) = true) fun _ _ d => d.follow x)
  ∧ (∀ x, Acts .upstreamSelect
      (fun m _ d => m.tenant = false ∧ bestTime d.timeOffers = some x ∧ betterTime x (d.switchId, 0, 0) = false)
      fun _ _ d => d.onTim fun t => { t with root := d.switchId, hops := 0, up := none, hold := false })

/-- Bridge messages and limits (R184, R226 to R248, R291): requests, answers, UNLOCK, FLUSH and SNOOP, malformed messages, and the timeouts
of entries, locks and flushes. -/
def Obligations.BridgeEvents : Prop :=
  (∀ l msg, Acts (.rd · l msg) (fun _ _ d => hears 0x01 l msg d) fun _ p d => (d.brgTake l msg).2.brgRequest p l (d.brgTake l msg).1)
  ∧ (∀ l msg, Acts (.wr · l msg) (fun _ _ d => hears 0x02 l msg d) fun _ p d => (d.brgTake l msg).2.brgRequest p l (d.brgTake l msg).1)
  ∧ (∀ l msg, Acts (.lockRd · l msg) (fun _ _ d => hears 0x04 l msg d)
      fun _ p d => (d.brgTake l msg).2.brgRequest p l (d.brgTake l msg).1)
  ∧ (∀ l msg op n, Acts (.atomic · l msg)
      (fun _ _ d => hears 0x03 l msg d ∧ (d.brgTake l msg).1.h.acc = .atomic op n ∧ (d.brgTake l msg).1.h.addr % n = 0)
      fun _ p d => (d.brgTake l msg).2.brgRequest p l (d.brgTake l msg).1)
  ∧ (∀ l msg op n, Acts (.atomic · l msg)
      (fun _ _ d => hears 0x03 l msg d ∧ (d.brgTake l msg).1.h.acc = .atomic op n ∧ (d.brgTake l msg).1.h.addr % n ≠ 0)
      fun _ _ d => (d.brgTake l msg).2.endRequest ((d.brgTake l msg).1.msg l (d.brgTake l msg).2.now) 3 2)
  ∧ (∀ l msg, Acts (.unlock · l msg)
      (fun _ _ d => hears 0x05 l msg d ∧ ((d.brgTake l msg).2.freeCredit l (d.brgTake l msg).1.cred).brg.far.get? (d.brgTake l msg).1.h.reach = none)
      fun _ _ d =>
        ((d.brgTake l msg).2.freeCredit l (d.brgTake l msg).1.cred).brgSend l ({ (d.brgTake l msg).1.h with op := 0x14 } : BHead).bytes)
  ∧ (∀ l msg k, Acts (.unlock · l msg)
      (fun _ _ d =>
        let x := (d.brgTake l msg).1
        let e := (d.brgTake l msg).2.freeCredit l x.cred
        hears 0x05 l msg d ∧ e.brg.far.get? x.h.reach = some k ∧ k.owner = (x.msg l e.now).init
        ∧ (e.onBrg fun b => { b with far := b.far.erase x.h.reach }).isIggevo k.dst = false)
      fun _ _ d =>
        let x := (d.brgTake l msg).1
        (((d.brgTake l msg).2.freeCredit l x.cred).onBrg fun b => { b with far := b.far.erase x.h.reach }).brgSend l
          ({ x.h with op := 0x14 } : BHead).bytes)
  ∧ (∀ l msg, Acts (.flush · l msg) (fun _ _ d => hears 0x06 l msg d) fun m p d =>
      let x := (d.brgTake l msg).1
      let e := (d.brgTake l msg).2
      let d := e.enqueue { x.msg l e.now with refusals := e.flushHop l x.h.origId }
      match d.head m l 3 with
      | some z => if z.id = e.weir.nextMsg ∧ ! d.behind z then d.evaluate m p z else d
      | none => d)
  ∧ (∀ l msg, Acts (.snoop · l msg) (fun _ _ d => hears 0x07 l msg d) fun _ _ d =>
      let x := (d.brgTake l msg).1
      let e := (d.brgTake l msg).2
      let m := x.msg l e.now
      match e.biRoute l m.reach with
      | some to_ => (e.rxBytes l 64).enqueue { m with dst := some to_ }
      | none => (e.sendFault 8 l 1 1 m.reach m.addr).endRequest m 2 1)
  ∧ (∀ l msg, Acts (.rdData · l msg) (fun _ _ d => hears 0x10 l msg d) fun _ _ d => (d.brgTake l msg).2.brgAnswerTo l (d.brgTake l msg).1 0)
  ∧ (∀ l msg, Acts (.wrCmp · l msg) (fun _ _ d => hears 0x11 l msg d) fun _ _ d => (d.brgTake l msg).2.brgAnswerTo l (d.brgTake l msg).1 0)
  ∧ (∀ l msg, Acts (.atomicData · l msg) (fun _ _ d => hears 0x12 l msg d)
      fun _ _ d => (d.brgTake l msg).2.brgAnswerTo l (d.brgTake l msg).1 0)
  ∧ (∀ l msg, Acts (.lockData · l msg) (fun _ _ d => hears 0x13 l msg d) fun _ _ d => (d.brgTake l msg).2.brgAnswerTo l (d.brgTake l msg).1 0)
  ∧ (∀ l msg, Acts (.unlockCmp · l msg) (fun _ _ d => hears 0x14 l msg d)
      fun _ _ d => (d.brgTake l msg).2.brgAnswerTo l (d.brgTake l msg).1 0)
  ∧ (∀ l msg, Acts (.flushDone · l msg) (fun _ _ d => hears 0x15 l msg d)
      fun _ _ d => (d.brgTake l msg).2.brgAnswerTo l (d.brgTake l msg).1 0)
  ∧ (∀ l msg, Acts (.snoopRsp · l msg) (fun _ _ d => hears 0x16 l msg d) fun _ _ d =>
      let e := (d.brgTake l msg).2
      ({ e with free := e.free + 1 } : Dev).brgAnswerTo l (d.brgTake l msg).1 ((Sys2Proof.Config.freeWord e.free).toNat % 3))
  ∧ (∀ l msg, Acts (.err · l msg) (fun _ _ d => hears 0x17 l msg d) fun _ _ d => (d.brgTake l msg).2.brgAnswerTo l (d.brgTake l msg).1 0)
  ∧ (∀ l msg, Acts (.rd · l msg) (fun _ _ d => d.isIggevo l = true ∧ msg ≠ [] ∧ brgMalformed msg = true) fun _ _ d =>
      ((d.brgTake l msg).2.brgDiscard l true).freeCredit l (d.brgTake l msg).1.cred)
  ∧ (∀ i t, Acts (.bridgeTimeout · i)
      (fun _ _ d => d.weir.trk.get? i = some t ∧ d.isIggevo t.dst = true ∧ t.group = none ∧ t.done = false ∧ t.orphan = none
        ∧ t.limit ≤ d.since t.t6)
      fun _ _ d =>
        let d := d.count 0x0B1 (t.dst / 4) t.reach t.dst
        (((d.farFault t.dst 0x17 t).onTrk i fun t => { t with orphan := some d.clk.t6 }).answered t.dst i 4 [] false).finishRelease t.reach)
  ∧ (∀ i t t0, Acts (.discardExpired · i)
      (fun _ _ d => d.weir.trk.get? i = some t ∧ t.orphan = some t0 ∧ d.isIggevo t.dst = true ∧ d.discardTime t.dst ≤ d.since t0)
      fun _ _ d => (d.dropTrk i).count 0x11A (t.dst / 4) 0x3F t.dst)
  ∧ (∀ r k, Acts (.lockHoldLimit · r) (fun _ _ d => d.brg.near.get? r = some k ∧ k.st = .held ∧ 16 * us6 ≤ d.since k.t6)
      fun _ _ d => d.forceLock r 3 none)
  ∧ (∀ r k, Acts (.farLockLimit · r) (fun _ _ d => d.brg.far.get? r = some k ∧ 32 * us6 ≤ d.since k.t6) fun _ _ d => d.dropFarLock r)
  ∧ (∀ id, Acts (.farFlushTimeout · id) (fun _ _ _ => True) fun _ _ d => d.flushLate id true)

/-- Lanes and the training of links (R214, R216, R256, R260 to R273): changes of lane masks, DETECT, PATTERN and LOCK, markers, losses,
substitution, L0p, adaptation, recalibration, eyes and margins. -/
def Obligations.LaneEvents : Prop :=
  (∀ l m, Acts (.laneChangeAct · l true)
      (fun _ _ d => d.isIggevo l = true ∧ (d.igg l).st = .active ∧ (d.igg l).cd = some (m, 0) ∧ (d.igg l).mirror = none) fun _ _ d =>
      let d := ((d.onIg l fun g => { g with cd := none }).onIg l fun g => { g with txMask := m }).widthChanged l (d.igg l).txMask m true
      let g := d.igg l
      (if g.cd.isNone && g.req.isNone then (d.finLong? g.widthLong .success []).onIg l fun g => { g with widthLong := none } else d).actPending l)
  ∧ (∀ l m, Acts (.laneChangeAct · l false)
      (fun _ _ d => d.isIggevo l = true ∧ (d.igg l).st = .active ∧ (d.igg l).cdRx = some (m, 1) ∧ (d.igg l).subT = none) fun _ _ d =>
      let d := ((d.onIg l fun g => { g with cdRx := none, req := if g.req = some m then none else g.req }).onIg l fun g =>
        { g with rxMask := m }).widthChanged l (d.igg l).rxMask m false
      let g := d.igg l
      (if g.cd.isNone && g.req.isNone then (d.finLong? g.widthLong .success []).onIg l fun g => { g with widthLong := none } else d).actPending l)
  ∧ (∀ l los, Acts (.detectComplete · l los true) (fun _ _ d => d.isIggevo l = true ∧ (d.igg l).st = .detect) fun _ _ d =>
      d.onIg l fun g => { g with st := .pattern, stageT := d.clk.t6, clkOn9 := los })
  ∧ (∀ l, Acts (.detectTimeout · l) (fun _ _ d => d.isIggevo l = true ∧ (d.igg l).st = .detect ∧ ms6 ≤ d.since (d.igg l).stageT)
      fun _ _ d => d.onIg l fun g => { g with stageT := d.clk.t6 })
  ∧ (∀ l pass inv, Acts (.patternComplete · l pass inv) (fun _ _ d => d.isIggevo l = true ∧ (d.igg l).st = .pattern ∧ pass.toNat ≠ 0)
      fun _ _ d =>
        let on9 := (d.igg l).clkOn9
        let d := (List.range 8).foldl (fun d n => d.onLane (l / 4) n fun x => { x with
          inv := inv.toNat.testBit n, lol := false, st := if pass.toNat.testBit n then 0 else 4 }) d
        d.onIg l fun g => { g with
          st := .lock, stageT := d.clk.t6, clkOn9 := on9, pOn9 := false, pass := pass.toNat, trained := pass.toNat
          rxMask := widestMask pass.toNat, am9 := 0, judged := on9, lane9 := false, sub := 0xF, subTx := 0xF, lockCnt := []
          locked := false, pLocked := none, pTwice := false, subT := none, subReady := false, mirror := none, pend := [], subbed := none
          subbedTx := none, lastAm := none })
  ∧ (∀ l pass inv, Acts (.patternComplete · l pass inv) (fun _ _ d => d.isIggevo l = true ∧ (d.igg l).st = .pattern ∧ pass.toNat = 0)
      fun _ _ d => d.igStart l)
  ∧ (∀ l n am, Acts (.amReceived · l n am)
      (fun _ _ d => d.isIggevo l = true ∧ n < 10 ∧ n ≠ 8 ∧ (d.igg l).st = .lock ∧ markValid am = true)
      fun _ _ d => d.onIg l fun g => g.lockMark n am)
  ∧ (∀ l am, Acts (.amReceived · l 9 am) (fun _ _ d => d.isIggevo l = true ∧ (d.igg l).st = .active ∧ markValid am = true)
      fun _ _ d => d.onIg l fun g => g.subMark am)
  ∧ (∀ l n am, Acts (.amReceived · l n am)
      (fun _ _ d => d.isIggevo l = true ∧ n < 10 ∧ n ≠ 8 ∧ ((d.igg l).st = .lock ∨ (d.igg l).st = .active) ∧ markValid am = false)
      fun _ _ d => (d.count 0x11F (l / 4) 0x3F n).onIg l fun g => { g with
        lockCnt := if n = 9 then g.lockCnt.erase 9 else g.lockCnt.erase n, am9 := if n = 9 then 0 else g.am9 })
  ∧ (∀ l a, Acts (.lockComplete · l)
      (fun _ _ d => d.isIggevo l = true ∧ (d.igg l).st = .lock ∧ (d.igg l).locked = true ∧ (d.igg l).pLocked = some a ∧ (d.igg l).pTwice = true
        ∧ maskOk a.rxMask = true ∧ d.switchId ≠ 0)
      fun _ _ d =>
        let g := d.igg l
        let d := d.onIg l fun g => { (if g.resume then g else g.fresh) with
          st := .exchange, stageT := d.clk.t6, txMask := a.rxMask, exMask := a.rxMask, subTx := a.sub, pOn9 := a.flags.testBit 1
          subbed := if g.sub < 8 then some g.sub else none, subbedTx := if a.sub < 8 then some a.sub else none
          seen := false, pSeen := false, exCd := 0, pCd := 0, pRec := none, lastAm := none }
        let d := if g.sub < 8 then d.spareInUse (l / 4) 1 g.sub else if g.clkOn9 then d.spareInUse (l / 4) 1 8 else d
        if a.sub < 8 then d.spareInUse (l / 4) 0 a.sub else if a.flags.testBit 1 then d.spareInUse (l / 4) 0 8 else d)
  ∧ (∀ t n, Acts (.lossOfSignal · t n false) (fun _ _ d => t < 64 ∧ n < 10 ∧ (d.lane t n).los = true)
      fun _ _ d => d.onLane t n fun x => { x with los := false })
  ∧ (∀ t n, Acts (.lossOfSignal · t n true) (fun _ _ d => t < 64 ∧ n < 10 ∧ (d.lane t n).los = false) fun _ p d =>
      let d := (d.onLane t n fun x => { x with los := true, losT := d.clk.t6 }).count 0x11C t 0x3F n
      if d.tileCode t = 3 ∧ (d.igg (4 * t)).st = .active ∧ ((maskLanes (d.igg (4 * t)).rxMask).all fun n => (d.lane t n).los) then
        d.igRetrain p (4 * t) 0x10
      else d)
  ∧ (∀ l, Acts (.towpathLockLost · l) (fun _ _ d => d.isIggevo l = true ∧ (d.igg l).st = .active)
      fun _ p d => (d.count 0x11D (l / 4) 0x3F 8).igRetrain p l 0x10)
  ∧ (∀ t n row, Acts (.laneFailing · t n row) (fun _ _ _ => True) fun _ p d => d.laneFail p t n row)
  ∧ (∀ l, Acts (.subReady · l) (fun _ _ d => (d.igg l).st = .active ∧ (d.igg l).subT.isSome = true)
      fun _ _ d => d.onIg l fun g => { g with subReady := true })
  ∧ (∀ l t, Acts (.substitutionTimeout · l) (fun _ _ d => (d.igg l).subT = some t ∧ (d.igg l).subReady = false ∧ ms6 ≤ d.since t) fun _ _ d =>
      (((d.finLong? (d.igg l).subLong .aborted []).onIg l fun g => { g with sub := 0xF, subT := none, subLong := none }).askNarrow l
        (d.igg l).sub).actPending l)
  ∧ (∀ l w, Acts (.l0pRequest · l w) (fun _ _ d => d.l0pOk l = true ∧ w ∈ [1, 2, 4, 8] ∧ w ≤ (d.port l).full) fun _ _ d => d.cxlWidth l w)
  ∧ (∀ l, Acts (.l0pNarrow · l)
      (fun _ p d => p = .powerCapped ∧ d.l0pOk l = true ∧ 2 ≤ (d.port l).width
        ∧ d.resvSum l ≤ 4 * (5 * (rateBytes (cxlRate (d.port l).rate ((d.port l).width / 2) (d.port l).flit256) 8 / 64) / 8))
      fun _ _ d => d.cxlWidth l ((d.port l).width / 2))
  ∧ (∀ l, Acts (.l0pWiden · l) (fun _ _ d => d.l0pOk l = true ∧ (d.port l).width < (d.port l).full)
      fun _ _ d => d.cxlWidth l (2 * (d.port l).width))
  ∧ (∀ t n signs, Acts (.adaptationStep · t n signs) (fun _ _ d => d.laneLive t n = true) fun _ _ d => d.onLane t n fun x => { x with
      ctle := (clampInt 0 36 (x.ctle + clampInt (-1) 1 (signs.getD 0 0))).toNat
      dfe := (List.range (d.taps t)).map fun k => clampInt (-128) 127 (x.dfe.getD k 0 + clampInt (-1) 1 (signs.getD (k + 1) 0)) })
  ∧ (∀ t n, Acts (.offsetRecalStep · t n)
      (fun _ _ d => d.laneLive t n = true ∧ d.auxHeld t n = false ∧ (d.lane t n).calStep + 1 < Sys2Proof.Config.slicers.toNat)
      fun _ _ d => d.onLane t n fun x => { x with calStep := (d.lane t n).calStep + 1 })
  ∧ (∀ t n, Acts (.offsetRecalStep · t n)
      (fun _ _ d => d.laneLive t n = true ∧ d.auxHeld t n = false ∧ Sys2Proof.Config.slicers.toNat ≤ (d.lane t n).calStep + 1)
      fun _ _ d => (d.onLane t n fun x => { x with calStep := 0, cal := (x.cal + 1) % 2 ^ 32 }).taskPass 2)
  ∧ (∀ t n h w, Acts (.eyeMonitorMeasure · t n h w)
      (fun _ _ d => d.laneLive t n = true ∧ d.auxHeld t n = false ∧ ¬ h < byteAt (d.laneCfg false t n) 10) fun _ p d =>
        let d := (d.onLane t n fun x => { x with eyeH := h, eyeW := w, lowEye := 0 }).taskPass 3
        if (d.lane t n).lowEye ≥ 2 then d.laneFail p t n 4 else d)
  ∧ (∀ l n timing up steps, Acts (.laneMarginRequest · l n timing up steps)
      (fun _ _ d => d.isCxl l = true ∧ (d.port l).up = true ∧ 3 ≤ (d.port l).rate ∧ (d.port l).rate ≤ 6
        ∧ d.laneLive (l / 4) ((d.laneRange l).1 + n) = true ∧ d.auxHeld (l / 4) ((d.laneRange l).1 + n) = false
        ∧ steps ≤ (if timing then 32 else 64))
      fun _ _ d => d.onPhy fun x => { x with
        margin := x.margin.set (l / 4, (d.laneRange l).1 + n) (steps + 128 * b2n up + 256 * b2n timing) })
  ∧ (∀ t n cs a b c k, Acts (.eyeScanDone · t n cs) (fun _ _ d => (d.phy.scan.getD (t, n) {}).run = some (a, b, c, k)) fun _ _ d =>
      (d.onPhy fun y => { y with scan := y.scan.set (t, n) {
        run := none, res := some (a, b, (List.range (a * b)).map fun i => cs.getD i 0) } }).finLong k .success [])
  ∧ (∀ t n, Acts (.laneLockLost · t n)
      (fun _ _ d => t < 64 ∧ n < 10 ∧ d.laneLive t n = true ∧ (d.count 0x11D t 0x3F n).tileCode t = 3)
      fun _ p d => ((d.count 0x11D t 0x3F n).onLane t n fun x => { x with lol := true }).laneFail p t n 2)
  ∧ (∀ l, Acts (.lane9JudgementTimeout · l)
      (fun _ _ d => d.isIggevo l = true ∧ (d.igg l).st = .lock ∧ (d.igg l).judged = false ∧ 100 * us6 ≤ d.since (d.igg l).stageT)
      fun _ _ d => d.onIg l fun g => (g.judge9 false).setLocked)

/-- CXL links and IDE (R37, R254, R279 to R286, R301, R302, R316): bring-up and Recovery, configuration requests, the establishment and the
refresh of IDE, and E2 of a Reach reset. -/
def Obligations.PortEvents : Prop :=
  (∀ l tr, Acts (.cxlLinkTrained · l tr)
      (fun m _ d => d.isCxl l = true ∧ m.trains = true ∧ d.pinsOut = false ∧ d.domOff (l / 4) = false ∧ tr.rate ≤ d.maxRate l
        ∧ tr.width ∈ [1, 2, 4, 8] ∧ tr.width ≤ (d.laneRange l).2 ∧ (tr.rate ≤ 4 ∨ tr.flit256 = true)
        ∧ (d.port l).up = true ∧ (d.port l).ltssm = ltRecovery)
      fun _ p d => (((d.cxlWidth l tr.width).onPort l fun q => { q with ltssm := ltL0, full := tr.width, rate := tr.rate }).spareEnds
        (l / 4)).unstall p l)
  ∧ (∀ l tr, Acts (.cxlLinkTrained · l tr)
      (fun m _ d => d.isCxl l = true ∧ m.trains = true ∧ d.pinsOut = false ∧ d.domOff (l / 4) = false ∧ tr.rate ≤ d.maxRate l
        ∧ tr.width ∈ [1, 2, 4, 8] ∧ tr.width ≤ (d.laneRange l).2 ∧ (tr.rate ≤ 4 ∨ tr.flit256 = true)
        ∧ (d.port l).up = false ∧ d.cfgRole l ≠ 0 ∧ (d.cfgRole l = 1 → tr.lds ≤ 1))
      fun m p d =>
        let role := d.cfgRole l
        let d := (List.range (d.laneRange l).2).foldl (fun d' k => d'.onLane (l / 4) ((d.laneRange l).1 + k) fun x => { x with
          st := if k < tr.width then 0 else x.st, lol := false, rev := tr.reversed, rate := tr.rate }) d
        let d := d.onPort l fun q => { q with
          up := true, role := role, mgr := role == 1 && (byteAt (d.portCfg l) 3).testBit 0, ltssm := ltL0, rate := tr.rate
          width := tr.width, full := tr.width, flit256 := tr.flit256, devType := tr.devType, lds := tr.lds, hdmdb := tr.hdmdb
          cacheDev := tr.cacheDev, partnerIde := tr.ide }
        let d := d.onWeir fun w => { w with calU := w.calU.erase l }
        let d := ((d.spareEnds (l / 4)).ideStart p l).unstall p l
        (if role = 2 ∧ d.tileIn (l / 4) then (d.linkVppbs l).foldl (fun d x => d.report 4 x) d else d).hotNext m)
  ∧ (∀ l off wr, Acts (.configRequest · l .upstream off wr) (fun _ _ d => d.vcsUp l = true ∧ (d.port l).up = true)
      fun m _ d => d.cfgServe m l 0 (off % 4096 / 4 * 4) wr)
  ∧ (∀ l k off wr, Acts (.configRequest · l (.vppb k) off wr) (fun _ _ d => d.vcsUp l = true ∧ (d.port l).up = true ∧ k < 32)
      fun m _ d => d.cfgServe m l (16 + k) (off % 4096 / 4 * 4) wr)
  ∧ (∀ l off w b, Acts (.configRequest · l (.below 0) off (some w))
      (fun _ _ d => d.vcsUp l = true ∧ (d.port l).up = true ∧ d.binding l 0 = some b ∧ d.reachable b.link = true ∧ b.shared = false)
      fun _ _ d => (d.onCxl fun c => { c with
        fwd := some (b.link, if b.ld = 0xFF then 0 else b.ld, nb 1 1 ++ nb 2 (off % 4096 / 4 * 4) ++ nb 4 w) }).cfgDone l 0 0)
  ∧ (∀ l k off wr, Acts (.configRequest · l (.below k) off wr)
      (fun _ _ d => d.vcsUp l = true ∧ (d.port l).up = true ∧ k ≠ 31 ∧ d.binding l k = none) fun _ _ d => d.cfgDone l 1 (2 ^ 32 - 1))
  ∧ (∀ l, Acts (.ideEstablished · l)
      (fun _ p d => d.isCxl l = true ∧ (d.port l).up = true ∧ (d.port l).partnerIde = true ∧ d.sec.seeded = true ∧ d.sec.errState = false
        ∧ (d.ide l).cxl ≠ 2 ∧ d.idePolicy p l ≠ 0)
      fun _ _ d => (d.onIde l fun i => { i with cxl := 2, io := 2, set := 0, t6 := d.clk.t6, busy := none, retry := none }).onPort l fun q =>
        { q with fenced := false })
  ∧ (∀ l, Acts (.ideEstablished · l)
      (fun _ _ d => d.isCxl l = true ∧ (d.port l).up = true ∧ (d.port l).partnerIde = true ∧ d.sec.seeded = true ∧ d.sec.errState = false
        ∧ (d.ide l).cxl = 2 ∧ (d.ide l).busy.isSome = true)
      fun _ _ d =>
        let d := (d.ide l).longs.foldl (fun d k => d.finLong k .success []) d
        (d.onIde l fun i => { i with
          set := 1 - i.set, time := d.now, t6 := d.clk.t6, busy := none, retry := none, longs := [] }).count 0x121 (l / 4) 0x3F l)
  ∧ (∀ l t, Acts (.ideRefreshDue · l)
      (fun _ _ d => d.isCxl l = true ∧ (d.port l).role = 2 ∧ (d.ide l).cxl = 2 ∧ (d.ide l).busy = none ∧ d.sec.seeded = true
        ∧ (d.ide l).retry = some t ∧ 60 * s6 ≤ d.since t)
      fun _ _ d => d.onIde l fun i => { i with busy := some d.clk.t6, retry := none })
  ∧ (∀ l, Acts (.ideRefreshDue · l)
      (fun _ _ d => d.isCxl l = true ∧ (d.port l).role = 2 ∧ (d.ide l).cxl = 2 ∧ (d.ide l).busy = none ∧ d.sec.seeded = true
        ∧ (d.ide l).retry = none ∧ leN (d.portCfg l) 4 2 * 60 * s6 ≤ d.since (d.ide l).t6)
      fun _ _ d => d.onIde l fun i => { i with busy := some d.clk.t6, retry := none })
  ∧ (∀ l t, Acts (.ideRefreshFailed · l) (fun _ _ d => d.isCxl l = true ∧ (d.ide l).busy = some t ∧ s6 ≤ d.since t) fun _ _ d =>
      let d := (d.ide l).longs.foldl (fun d k => d.finLong k .aborted []) d
      (d.onIde l fun i => { i with busy := none, retry := some d.clk.t6, longs := [] }).count 0x0E1 (l / 4) ((d.owner l 0xFF).getD 0x3F) l)
  ∧ (∀ r x, Acts (.reachResetE2 · r) (fun _ _ d => d.reset.get? r = some x ∧ x.e1 = true ∧ d.reachIdle r = true) fun _ _ d =>
      let e := if x.unbind then ((d.clearReach r).vcssOf r).foldl Dev.unbindAll (d.clearReach r) else d.clearReach r
      let e := e.vppb31 d.basinLd
      (({ e with reset := e.reset.erase r } : Dev).countDev 0x204 r r).finLong? x.long .success [])

/-- Mailboxes (R341, R345 to R349, R351, R366): doorbells, claims, rejected opcodes, frames that arrive by other paths, and completions. -/
def Obligations.MailboxEvents : Prop :=
  (∀ op f, Acts (.undefinedOpcode · op f)
      (fun m p d => Ctx.servable { m := m, p := p, d := d, f := f } op = true
        ∧ headerCheck 0 { m := m, p := p, d := d.served f, f := f } = none)
      fun _ _ d => (d.served f).respond f op .unsupported [])
  ∧ (∀ op f st b, Acts (.undefinedOpcode · op f)
      (fun m p d => Ctx.servable { m := m, p := p, d := d, f := f } op = true
        ∧ headerCheck 0 { m := m, p := p, d := d.served f, f := f } = some (st, b))
      fun _ _ d => (d.served f).respond f op st b)
  ∧ (∀ src op f, Acts (.fmApiTunnelFrame · src op f)
      (fun m _ d => m.allServed = true ∧ d.fmSource src = true ∧ (d.mbx .tunnel).busy = false)
      fun _ _ d => d.onMbx .tunnel fun x => { x with rung := some (op, { f with mbx := .tunnel }), resp := none })
  ∧ (∀ v b, Acts (.ring · v)
      (fun m _ d => m ≠ .shelf ∧ d.viewMbx v = some b ∧ servedIn m d b = true ∧ (d.mbx b).holds v = true ∧ (d.mbx b).busy = false)
      fun _ _ d => d.onMbx b fun x => { x with rung := some ((d.mbx b).frame b), resp := none, claimT := d.clk.t6 })
  ∧ (∀ v b, Acts (.ring · v)
      (fun m _ d => m ≠ .shelf ∧ d.viewMbx v = some b ∧ servedIn m d b = true ∧ ((d.mbx b).holds v = false ∨ (d.mbx b).busy = true))
      fun _ _ d => d.onMbx b (Mailbox.perrSet v))
  ∧ (∀ v b, Acts (.ring · v) (fun m _ d => m ≠ .shelf ∧ d.viewMbx v = some b ∧ servedIn m d b = false) fun _ _ d => d)
  ∧ (∀ v b r, Acts (.next · v)
      (fun m _ d => m ≠ .shelf ∧ d.viewMbx v = some b ∧ (d.mbx b).resp = some r ∧ (d.mbx b).holds v = true ∧ (d.mbx b).busy = false
        ∧ r.more = true)
      fun _ _ d => d.onMbx b fun x => { x with
        resp := some { r with seg := r.seg + 1 }, area := put x.area 0 ({ r with seg := r.seg + 1 } : Resp).frame, claimT := d.clk.t6 })
  ∧ (∀ v b r, Acts (.drop · v)
      (fun m _ d => m ≠ .shelf ∧ d.viewMbx v = some b ∧ (d.mbx b).resp = some r ∧ (d.mbx b).holds v = true ∧ (d.mbx b).busy = false
        ∧ r.more = true)
      fun _ _ d => d.onMbx b fun x => { x with resp := some { r with dropped := true }, claimT := d.clk.t6 })
  ∧ (∀ n b, Acts (.claim · (.vcs n)) (fun m _ d => m ≠ .shelf ∧ d.viewMbx (.vcs n) = some b ∧ (d.mbx b).claim = none)
      fun _ _ d => d.onMbx b fun x => { x with claim := some n, claimT := d.clk.t6 })
  ∧ (∀ n b k, Acts (.claim · (.vcs n)) (fun m _ d => m ≠ .shelf ∧ d.viewMbx (.vcs n) = some b ∧ (d.mbx b).claim = some k)
      fun _ _ d => d.onMbx b id)
  ∧ (∀ n b, Acts (.release · (.vcs n)) (fun m _ d => m ≠ .shelf ∧ d.viewMbx (.vcs n) = some b ∧ (d.mbx b).claim = some n)
      fun _ _ d => d.onMbx b fun x => { x with claim := none, resp := x.resp.map fun r => { r with dropped := true } })
  ∧ (Acts (.claim · .admin) (fun _ _ _ => True) fun _ _ d => d)
  ∧ (Acts (.release · .admin) (fun _ _ _ => True) fun _ _ d => d)
  ∧ (∀ v off w x, Acts (.registerWrite · v off w x) (fun _ _ _ => True) fun m _ d => d.pageWrite m v off w (nb w x))
  ∧ (∀ r, Acts (.claimTimeout · r)
      (fun _ _ d => (d.mbx (.reach r)).claim.isSome = true ∧ (d.mbx (.reach r)).busy = false ∧ 10 * ms6 ≤ d.since (d.mbx (.reach r)).claimT)
      fun _ _ d => d.onMbx (.reach r) fun x => { x with claim := none, resp := x.resp.map fun r => { r with dropped := true } })
  ∧ (∀ mb tag l st b, Acts (.commandDone · mb tag)
      (fun _ _ d => (d.mbx mb).longs.find? (fun l => decide (l.tag = tag) && l.fin.isSome) = some l ∧ l.fin = some (st, b))
      fun _ _ d =>
        let d' := d.onMbx mb fun x => { x with
          longs := x.longs.filter fun y => decide (y ≠ l), results := (x.results ++ [(tag, b)]).drop (x.results.length + 1 - 16) }
        d'.postTo mb {
          code := 0x500, opcode := l.opcode, tag := l.tag, status := st.code, time := d.now, detail := fit 16 b
          reach := match mb with
            | .reach r => r
            | _ => 0x3F })
  ∧ (∀ op f, Acts (.mctpBilodRequest · op f true) (fun m _ d => m.adminServed = true ∧ (d.mbx .oob).busy = false)
      fun _ _ d => d.onMbx .oob fun x => { x with rung := some (op, { f with mbx := .oob }), resp := none })
  ∧ (∀ op f w, Acts (.mctpBilodRequest · op f w) (fun m _ d => m ≠ .shelf ∧ (w = false ∨ (d.mbx .oob).busy = true))
      fun _ _ d => d.onMgmt fun g => { g with oobDrop := g.oobDrop + 1 })

/-- The two management processors (R339, R340, R362 to R365, R375): heartbeats, takeover, restarts, service frames, shedding, live activation and
switchover; and the resynchronisation of R85. -/
def Obligations.ProcessorEvents : Prop :=
  (Acts .heartbeat (fun m _ _ => m.adminServed = true) fun _ _ d => d.onMgmt fun g => { g with heartbeat := d.clk.t6 })
  ∧ (∀ b, Acts (.mpcTakeover · b)
      (fun m _ d => m.adminServed = true ∧ d.mgmt.standby = .ready ∧ (b = true ∨ 4 * ms6 ≤ d.since d.mgmt.heartbeat))
      fun _ _ d => d.takeover (if b then 2 else 1))
  ∧ (Leaves .mpcRestart (fun m _ d => m.adminServed = true ∧ d.standbyCan = false) fun _ d =>
      d.sec.sessions = [] ∧ d.img.cmd = none ∧ d.mgmt.paused = true ∧ d.mgmt.switching = none)
  ∧ (Acts .mpcRestartComplete (fun _ _ d => d.mgmt.paused = true ∧ d.activating = false ∧ d.mgmt.switching = none)
      fun _ _ d => d.onMgmt fun g => { g with paused := false, heartbeat := d.clk.t6 })
  ∧ (Acts .standbyReady (fun _ _ d => d.activating = false ∧ d.mgmt.switching = none ∧ d.mgmt.standby ≠ .ready)
      fun _ _ d => d.onMgmt fun g => { g with standby := .ready })
  ∧ (Acts .standbyReady (fun _ _ d => d.mgmt.switching.isSome = true) fun _ _ d => d.pause)
  ∧ (Acts .standbyReady (fun _ _ d => d.activating = true ∧ d.mgmt.verified = false ∧ d.mgmt.switching = none ∧ d.mgmt.standby ≠ .ready
      ∧ d.ctl.svc.bind (·.endAt) = none) fun _ _ d => (d.onMgmt fun g => { g with standby := .ready }).serviceEnds true)
  ∧ (Acts .standbyFailed (fun m _ d => m.adminServed = true ∧ d.mgmt.standby = .ready) fun _ _ d => d.standbyFails)
  ∧ (Acts .serviceFrame (fun _ _ d => 100 * us6 ≤ d.since d.mgmt.frameT) fun _ _ d => d.onMgmt fun g => { g with
      slots := [], frameT := d.clk.t6 })
  ∧ (∀ b, Acts (.shedLevel · b) (fun m _ d => m.adminServed = true ∧ 10 * ms6 ≤ d.since d.mgmt.shedT ∧ 60 ≤ b ∧ b < 85)
      fun _ _ d => d.onMgmt fun g => { g with busyPct := b, shedT := d.clk.t6 })
  ∧ (∀ b, Acts (.shedLevel · b) (fun m _ d => m.adminServed = true ∧ 10 * ms6 ≤ d.since d.mgmt.shedT ∧ 85 ≤ b ∧ d.mgmt.shed < 3)
      fun _ _ d => (d.onMgmt fun g => { g with shed := d.mgmt.shed + 1, busyPct := b, shedT := d.clk.t6 }).post {
        code := 0x503, time := d.now, detail := nb 1 (d.mgmt.shed + 1) })
  ∧ (Acts (.standbyImageVerified · true)
      (fun _ _ d => d.activating = true ∧ d.mgmt.verified = false ∧ (d.img.copy.getD (1 - d.img.fwUse.getD 1) {}).valid = true
        ∧ (d.img.copy.getD (1 - d.img.fwUse.getD 1) {}).major = d.img.major)
      fun _ _ d => (d.onMgmt fun g => { g with verified := true, standby := .loading }).audit .imageLoad 0xFF none 0)
  ∧ (Acts (.standbyImageVerified · false) (fun _ _ d => d.activating = true ∧ d.mgmt.verified = false)
      fun _ _ d => (d.audit .imageRejected 0xFF none Status.integrityFailure.code).serviceEnds false)
  ∧ (∀ k, Acts .firmwareHandover (fun _ _ d => d.activating = false ∧ d.mgmt.switching = some k) fun _ _ d =>
      ((d.onMgmt fun g => { g with
        active := 1 - g.active, standby := .ready, handovers := (g.handovers + 1) % 2 ^ 32, heartbeat := d.clk.t6
        paused := false, verified := false, standbyReady := false, switching := none }).finLong k .success []).handoverRec 4)
  ∧ (Acts .firmwareHandover (fun _ _ d => d.activating = true ∧ d.mgmt.verified = true ∧ d.mgmt.standbyReady = true) fun _ _ d =>
      let k := 1 - d.img.fwUse.getD 1
      let c := d.img.copy.getD k {}
      (((d.onMgmt fun g => { g with
        active := 1 - g.active, standby := .loading, handovers := (g.handovers + 1) % 2 ^ 32, heartbeat := d.clk.t6
        paused := false, verified := false, standbyReady := false, switching := none }).onImg fun i => { i with
          fwUse := some k, major := c.major, minor := c.minor }).audit .imageActivated 0xFF none 0).handoverRec 3)
  ∧ (∀ i, Acts (.resyncStart · i) (fun _ _ _ => True) fun _ _ d => d)
  ∧ (∀ i, Acts (.resyncDone · i) (fun _ _ d => (d.set i).resync = true)
      fun _ _ d => d.onConf fun c => { c with staged := c.staged.upd i {} fun x => { x with resync := false } })

/-- Fabric-manager requests (R293, R342, R366): each is served where the tunnel is served, and over Bilod wherever firmware runs. -/
def Obligations.FmApiEvents : Prop :=
  (∀ src v k l n, Acts (.fmApiBindVppb · src v k l n) (fun m _ _ => fmHeard src m) fun _ _ d => d.fmCommand src fun d => d.fmBind v k l n)
  ∧ (∀ src v k u, Acts (.fmApiUnbindVppb · src v k u) (fun m _ _ => fmHeard src m) fun m _ d => d.fmCommand src fun d => d.fmUnbind m v k u)
  ∧ (∀ src l a, Acts (.fmApiPhysicalPortControl · src l a) (fun m _ _ => fmHeard src m) fun _ p d => d.fmCommand src fun d => d.fmPort p l a)
  ∧ (∀ src l n b, Acts (.fmApiMldPortRequest · src l n b) (fun m _ _ => fmHeard src m) fun _ _ d => d.fmCommand src fun d => d.fmForward l n b)
  ∧ (∀ src l b, Acts (.fmApiTunnelledComponent · src l b) (fun m _ _ => fmHeard src m)
      fun _ _ d => d.fmCommand src fun d => d.fmForward l 0xFFFF b)
  ∧ (∀ src op, Acts (.fmApiUnsupportedSet · src op) (fun m _ _ => fmHeard src m)
      fun _ _ d => d.fmCommand src fun d => d.fmAnswer fmUnsupported [])

/-- Security events (R372, R373, R379 to R385, R451): SPDM, tamper on and off the core rails, the loss of VSTBY, entropy, and what expires. -/
def Obligations.SecurityEvents : Prop :=
  (∀ port req, Acts (.spdmRequest · port req) (fun m _ d => d.spdmServed m port = true ∧ spdmRule req = none)
      fun _ _ d => d.spdmAnswer port 0x7F (nb 1 0x07))
  ∧ (∀ port req r, Acts (.spdmRequest · port req) (fun m _ d => d.spdmServed m port = true ∧ spdmRule req = some r ∧ d.sec.errState = true)
      fun _ _ d => d.spdmAnswer port 0x7F (nb 1 0x05))
  ∧ (∀ port req code need next, Acts (.spdmRequest · port req)
      (fun m _ d => d.spdmServed m port = true ∧ spdmRule req = some (code, need, some next, false) ∧ d.sec.errState = false
        ∧ need ≤ d.spdmState port ∧ need ≠ 4 ∧ (∀ i, req ≠ .getMeasurements i))
      fun _ _ d => (d.spdmSet port next).spdmAnswer port code [])
  ∧ (∀ dt s cause, s.mode ≠ .shelf → exec (.tamperEvent dt cause) s = .next (((s.elapse dt).zeroize 2).onDev fun d =>
      d.audit .tamper 0xFF none (match cause with
        | .pin => 1 | .vcore => 2 | .vstby => 3 | .refclk => 4 | .temperature => 5)))
  ∧ (Acts (.shelfTamperSample · true) (fun m _ _ => m = .shelf) fun _ _ d => { d with sec := { d.sec with
      slots := [], sessions := [], challs := [], seeded := false, tamper := true, tamperLog := d.sec.tamperLog ++ [1] } })
  ∧ (Acts .vstbyLoss (fun _ _ _ => True) fun _ _ d => { d with sec := { d.sec with
      slots := [], sessions := [], challs := [], seeded := false, storeLost := true, tamper := true, tamperLog := d.sec.tamperLog ++ [6] } })
  ∧ (Acts (.entropyStartupDone · true) (fun m _ d => m ≠ .shelf ∧ d.sec.seeded = false) fun _ _ d => { d with sec := { d.sec with
      seeded := true, restarts := 0, drbgReqs := 0, reseedT := d.clk.t6 } })
  ∧ (Acts (.entropyStartupDone · false) (fun m _ d => m ≠ .shelf ∧ d.sec.seeded = false ∧ d.sec.restarts < 2)
      fun _ _ d => { d with sec := { d.sec with restarts := d.sec.restarts + 1 } })
  ∧ (Acts (.entropyStartupDone · false) (fun m _ d => m ≠ .shelf ∧ d.sec.seeded = false ∧ 2 ≤ d.sec.restarts ∧ d.sec.errState = false)
      fun _ _ d => (d.onSec fun x => { x with restarts := x.restarts + 1 }).securityError 3)
  ∧ (Acts .entropyTestFail (fun m _ _ => m ≠ .shelf) fun _ _ d => { d with sec := { d.sec with seeded := false, restarts := 0 } })
  ∧ (∀ ok, Acts (.drbgReseed · ok)
      (fun m _ d => m ≠ .shelf ∧ d.sec.seeded = true ∧ (2 ^ 20 ≤ d.sec.drbgReqs ∨ 60 * s6 ≤ d.since d.sec.reseedT))
      fun _ _ d => if ok then { d with sec := { d.sec with drbgReqs := 0, reseedT := d.clk.t6 } } else d.securityError 5)
  ∧ (∀ i, Acts (.sessionTimeout · i) (fun _ _ _ => True)
      fun _ _ d => d.closeSessions fun x => x.id == i && decide (d.since x.last6 ≥ 900 * s6))
  ∧ (∀ i mb, Acts (.challengeExpiry · i mb) (fun _ _ _ => True) fun _ _ d => { d with sec := { d.sec with
      challs := d.sec.challs.filter fun h => ! (h.slot == i && h.mbx == mb && decide (d.since h.t6 ≥ 10 * s6)) } })
  ∧ (∀ i, Acts (.lockoutEnd · i) (fun _ _ d => (d.cred i).until6.isSome = true ∧ d.locked i = false)
      fun _ _ d => { d with sec := { d.sec with slots := d.sec.slots.set i { d.cred i with until6 := none } } })

/-- Faults, counters and telemetry (R394, R395, R414, R422 to R428): the collector, captures, holdoff, bandwidth windows, pushes and floors. -/
def Obligations.FaultAndTelemetryEvents : Prop :=
  (∀ x, Acts (.faultMessageTaken · x) (fun m _ _ => collectorOn m = true)
      fun m _ d => (d.onFlt fun f => { f with transit := f.transit.erase x }).takeFault m x false)
  ∧ (Acts .fatalLine (fun m _ _ => collectorOn m = true) fun _ _ d => { d with
      flt := { d.flt with line := some (d.flt.line.getD d.clk.t6) }, weir := { d.weir with stopped := true } })
  ∧ (∀ t, Acts .fatalUnidentified (fun m _ d => collectorOn m = true ∧ d.flt.line = some t ∧ d.flt.fatal = false ∧ us6 ≤ d.since t) fun m _ d =>
      (d.onFlt fun f => { f with seqTx := f.seqTx.upd (14, 0) 0 (fun v => (v + 1) % 64) }).takeFault m
        { block := 14, inst := 0, kind := 3, cls := 2, reach := 0x3F, detail := 0, time := d.now, seq := d.flt.seqRx.getD (14, 0) 0 } false)
  ∧ (∀ t id a, Acts (.sampleCapture · t id) (fun _ _ d => d.weir.recent.get? t = some a ∧ a.id ≠ id) fun _ _ d => d)
  ∧ (∀ t id a e, Acts (.sampleCapture · t id)
      (fun _ _ d => d.weir.recent.get? t = some a ∧ a.id = id
        ∧ d.tele.capture.find? (fun e => e.1.1 == t && decide (1 ≤ e.2.2) && decide (e.2.2 ≤ 8) && decide (d.since e.2.1 < 10 * us6)
            && (d.tele.ctr.getD e.1 {}).samples a) = some e
        ∧ 16 ≤ (d.tele.samp.getD t {}).recs.length)
      fun _ _ d => d.onTele fun y => { y with
        capture := y.capture.erase e.1
        samp := y.samp.set t { d.tele.samp.getD t {} with dropped := (d.tele.samp.getD t {}).dropped + 1, lostBefore := true } })
  ∧ (∀ t id a e, Acts (.sampleCapture · t id)
      (fun _ _ d => d.weir.recent.get? t = some a ∧ a.id = id
        ∧ d.tele.capture.find? (fun e => e.1.1 == t && decide (1 ≤ e.2.2) && decide (e.2.2 ≤ 8) && decide (d.since e.2.1 < 10 * us6)
            && (d.tele.ctr.getD e.1 {}).samples a) = some e
        ∧ 1 ≤ (d.tele.samp.getD t {}).recs.length ∧ (d.tele.samp.getD t {}).recs.length < 16)
      fun _ _ d =>
        let x := d.tele.samp.getD t {}
        (d.onTele fun y => { y with
          capture := y.capture.erase e.1
          samp := y.samp.set t { x with
            recs := x.recs ++ [nb 1 e.1.2 ++ nb 1 (b2n x.lostBefore + 2 * byteAt a.body 0) ++ a.body.drop 1], lostBefore := false } }).traceRec
          0x04 t e.1.2 (slice a.body 9 2))
  ∧ (∀ t c t6 n, Acts (.sampleCaptureTimeout · t c) (fun _ _ d => d.tele.capture.get? (t, c) = some (t6, n) ∧ 10 * us6 ≤ d.since t6)
      fun _ _ d => d.onTele fun y => { y with capture := y.capture.erase (t, c) })
  ∧ (∀ src x, Acts (.sourceRecordHoldoff · src)
      (fun _ _ d => d.tele.src.get? src = some x ∧ 100 * us6 ≤ d.since x.last6 ∧ x.pend ≠ []) fun _ _ d =>
        x.pend.foldl (fun d e => d.post {
          code := src, time := d.now, reach := e.2.2
          detail := nb 2 (if src < 0x400 then e.1 % 16 * 4096 + e.2.1 % 4096 else e.2.1)
            ++ nb 6 (d.tally (if src < 0x400 then src / 16 else 64) e.1) })
          (d.onTele fun t => { t with src := t.src.set src { last6 := d.clk.t6, pend := [] } }))
  ∧ (∀ l, Acts (.bwWindowBoundary · l)
      (fun _ _ d => (d.tele.bw.getD l {}).newK = none
        ∧ (d.tele.bw.getD l {}).start < d.now / (2 ^ (d.tele.bw.getD l {}).k * 1000) * (2 ^ (d.tele.bw.getD l {}).k * 1000))
      fun _ _ d => d.onTele fun t => { t with
        bw := t.bw.set l ((d.tele.bw.getD l {}).close (d.now / (2 ^ (d.tele.bw.getD l {}).k * 1000) * (2 ^ (d.tele.bw.getD l {}).k * 1000))) })
  ∧ (Leaves .telemetryPush
      (fun _ _ d => d.tele.telMask ≠ 0 ∧ d.taskPeriod 5 * ms6 ≤ d.since d.tele.telT) fun _ _ => True)
  ∧ (∀ k, Acts (.floorMissed · k) (fun _ _ d => k < 6 ∧ taskFloor k * ms6 ≤ d.since (d.task k).t6) fun _ _ d =>
      (d.onTele fun t => { t with tasks := t.tasks.set k { d.task k with missed := true } }).countDev 0x20E k)


/-- Slots (R433 to R442, Table SLOT-2, Table SLOT-3): the feeds and their warnings, changeover, the ramp with its two slots per group, the
trips and their retry, and the 10 µs sample. -/
def Obligations.SlotEvents : Prop :=
  (∀ g fd mv, Acts (.feedValid · g fd mv)
      (fun m _ d => m ≠ .shelf ∧ g < 8 ∧ fd < 2 ∧ 9000 ≤ mv ∧ mv ≤ 14000 ∧ (d.feed g fd).valid = false)
      fun _ _ d => (groupChans g).foldl (fun d t =>
          if (d.chan t).st = .feedLost then d.onChan t fun c => { c with st := .waiting, t6 := d.clk.t6 } else d)
        (d.onFeed g fd fun x => { x with mv := mv, valid := true, good6 := d.clk.t6 }))
  ∧ (∀ g fd mv, Acts (.feedInvalid · g fd mv) (fun m _ _ => m ≠ .shelf ∧ g < 8 ∧ fd < 2 ∧ (mv < 8800 ∨ mv > 14200))
      fun _ _ d => (d.onFeed g fd fun x => { x with mv := mv, valid := false }).feedWarn g fd)
  ∧ (∀ g fd mv, Acts (.feedWarning · g fd mv) (fun m _ _ => m ≠ .shelf ∧ g < 8 ∧ fd < 2)
      fun _ _ d => (d.onFeed g fd fun x => { x with mv := mv }).feedWarn g fd)
  ∧ (∀ g fd mv, Acts (.feedWarningClear · g fd mv)
      (fun m _ d => m ≠ .shelf ∧ g < 8 ∧ fd < 2 ∧ (d.feed g fd).warn = true ∧ mv ≥ 9800)
      fun _ _ d => d.onFeed g fd fun x => { x with mv := mv, warn := false, good6 := d.clk.t6 })
  ∧ (∀ t, Acts (.changeoverMake · t) (fun m _ d => m ≠ .shelf ∧ (d.chan t).st = .changeover)
      fun _ _ d => d.onChan t fun c => { c with st := .on, feed := c.next, next := none })
  ∧ (∀ t, Acts (.feedRevert · t)
      (fun m _ d => m ≠ .shelf ∧ (d.chan t).st = .on ∧ (d.chan t).feed ≠ some (d.prefFeed t) ∧ (byteAt (d.slotCfg t) 1).testBit 1 = true
        ∧ d.feedGood (t / 8) (d.prefFeed t) = true ∧ d.since (d.feed (t / 8) (d.prefFeed t)).good6 ≥ s6)
      fun _ _ d => d.changeover t (d.prefFeed t))
  ∧ (∀ g i, Acts (.rampStart · g)
      (fun m _ d => m ≠ .shelf ∧ ((groupChans g).filter fun t => (d.chan t).st == .ramping).length < 2
        ∧ rotate 8 (d.clk.cyc % 8) (fun i => (d.chan (8 * g + i)).st == .waiting && (d.chan (8 * g + i)).abandoned.isNone
          && (d.pickFeed (8 * g + i)).isSome) = some i)
      fun _ _ d => d.onChan (8 * g + i) fun c => { c with
        st := .ramping, feed := d.pickFeed (8 * g + i), enh := false, t6 := d.clk.t6 })
  ∧ (∀ g, Acts (.rampStart · g)
      (fun m _ d => m ≠ .shelf ∧ 2 ≤ ((groupChans g).filter fun t => (d.chan t).st == .ramping).length) fun _ _ d => d)
  ∧ (∀ t mv, Acts (.enhancementStart · t mv) (fun m _ d => m ≠ .shelf ∧ (d.chan t).st = .ramping ∧ mv + 300 ≥ d.chanFeedMv t)
      fun _ _ d => d.onChan t fun c => { c with enh := true, vout := mv })
  ∧ (∀ t mv, Acts (.slotPowerGood · t mv)
      (fun m _ d => m ≠ .shelf ∧ (d.chan t).st = .ramping ∧ (d.chan t).enh = true ∧ 100 * mv ≥ 95 * d.chanFeedMv t
        ∧ d.since (d.chan t).t6 ≤ 4 * ms6)
      fun _ _ d => d.onChan t fun c => { c with st := .on, pg := true, pgT := d.clk.t6, vout := mv })
  ∧ (∀ t, Acts (.attemptTimeout · t) (fun m _ d => m ≠ .shelf ∧ (d.chan t).st = .ramping ∧ d.since (d.chan t).t6 ≥ 4 * ms6)
      fun _ _ d => d.failAttempt t 3)
  ∧ (∀ t ma, Acts (.fastTrip · t ma) (fun m _ d => m ≠ .shelf ∧ conducting (d.chan t) = true ∧ ma ≥ 2 * d.iLim t)
      fun _ _ d => d.failAttempt t 1)
  ∧ (∀ t ma lasted, Acts (.breakerTrip · t ma lasted)
      (fun m _ d => m ≠ .shelf ∧ conducting (d.chan t) = true ∧ 10 * ma ≥ 12 * d.iLim t ∧ lasted ≥ 1000000)
      fun _ _ d => d.failAttempt t 2)
  ∧ (∀ t, Acts (.retryStart · t) (fun m _ d => m ≠ .shelf ∧ (d.chan t).st = .retry ∧ d.since (d.chan t).t6 ≥ s6)
      fun _ _ d => d.onChan t fun c => { c with st := .waiting, t6 := d.clk.t6 })
  ∧ (∀ t, Acts (.attemptCountClear · t) (fun m _ d => m ≠ .shelf ∧ (d.chan t).pg = true ∧ d.since (d.chan t).pgT ≥ 10 * s6)
      fun _ _ d => d.onChan t fun c => { c with tries := 0 })
  ∧ (∀ t a, Acts (.rampRestart · t) (fun m _ d => m ≠ .shelf ∧ (d.chan t).abandoned = some a ∧ d.since a ≥ ms6)
      fun _ _ d => d.onChan t fun c => { c with abandoned := none })
  ∧ (∀ t mv lasted, Acts (.slotUndervoltage · t mv lasted)
      (fun m _ d => m ≠ .shelf ∧ ((d.chan t).st = .on ∨ (d.chan t).st = .changeover) ∧ mv < 9000 ∧ lasted ≥ 10000
        ∧ ∃ fd < 2, d.permits t fd = true ∧ (d.feed (t / 8) fd).valid = true)
      fun _ _ d => (d.onChan t fun c => { c with vout := mv }).failAttempt t 4)
  ∧ (∀ t mv lasted, Acts (.slotUndervoltage · t mv lasted)
      (fun m _ d => m ≠ .shelf ∧ ((d.chan t).st = .on ∨ (d.chan t).st = .changeover) ∧ mv < 9000 ∧ lasted ≥ 10000
        ∧ ∀ fd < 2, d.permits t fd = false ∨ (d.feed (t / 8) fd).valid = false)
      fun _ _ d => (((d.onChan t fun c => { c with vout := mv }).pgFall t).onChan t fun c => { c with
        st := .feedLost, feed := none, next := none, enh := false }).countN 0x1001 64 0x3F 7 t 1)
  ∧ (∀ t ma vout a b, Leaves (.adcSample · t ma vout a b) (fun m _ d => m ≠ .shelf ∧ t < 64 ∧ (d.chan t).moving = true)
      fun d0 e => e.chan t = { d0.chan t with moving := false, flagged := true, vout := vout } ∧ e.clk = d0.clk ∧ e.mgmt = d0.mgmt)
  ∧ (∀ t ma vout a b, Leaves (.adcSample · t ma vout a b)
      (fun m _ d => m ≠ .shelf ∧ t < 64 ∧ (d.chan t).moving = false ∧ byteAt (d.slotCfg t) 5 = 0 ∧ (d.chan t).range16 = false)
      fun d0 e => (e.chan t).ma = ma ∧ (e.chan t).vout = vout ∧ (e.chan t).flagged = false
        ∧ ((e.chan t).range16 = true ↔ 1900 ≤ ma) ∧ ((e.chan t).moving = true ↔ 1900 ≤ ma) ∧ e.clk = d0.clk ∧ e.mgmt = d0.mgmt)

/-- Power, clocks and temperature (R29, R446 to R458, R511 to R513): waking from Shelf, resets, the supplies, AVS, the power cap, the two
reference clocks and the thermal sensors. What R449, R450 and R453 leave to reading is the model's choice (assumption 140). -/
def Obligations.PowerEvents : Prop :=
  (∀ held, Acts (.stbyWake · held)
      (fun m _ d => d.pwr.coreEn = false ∧ held ≥ 1000000 ∧ (m = .shelf ∨ d.clk.t6 ≥ d.pwr.coreEnT + 10 * ms6))
      fun _ _ d => d.onPwr fun w => { w with coreEn := true })
  ∧ (Acts .vstbyPowerOn (fun m _ _ => m = .shelf) fun _ _ d => d.onPwr fun w => { w with coreEn := true })
  ∧ (∀ dt bad s, exec (.powerGood dt bad) s = .next ((s.elapse dt).coldReset bad))
  ∧ (∀ dt held s, s.mode ≠ .shelf → 1000 ≤ held →
      exec (.resetNAssert dt held) s = .next ((s.elapse dt).coldReset (s.elapse dt).dev.pwr.railsBad))
  ∧ (∀ dt held s, held < 1000 → exec (.resetNAssert dt held) s = .next (s.elapse dt))
  ∧ (∀ dt bad s t, exec (.powerGood dt bad) s = .next t →
      t.mode = .coldBoot ∧ t.profile = .none ∧ t.mem = {} ∧ t.pending = s.pending)
  ∧ (∀ r, Acts (.railRecovered · r) (fun _ _ _ => True) fun _ _ d => d.onPwr fun w => { w with
      railsBad := w.railsBad.filter fun x => decide (x ≠ r) })
  ∧ (∀ dt s, exec (.coreRailsOff dt) s = .next { s.elapse dt with
      mode := .shelf, profile := .none, mem := {}, dev := (s.elapse dt).dev.kept })
  ∧ (∀ r lasted, Acts (.supplyOutOfRange · r lasted) (fun m _ _ => m ≠ .shelf ∧ r < railCount ∧ lasted ≥ 10000)
      fun _ _ d => d.countDev 0x243 r)
  ∧ (∀ mv, Acts (.avsUpdate · mv true)
      (fun m _ d => m ≠ .shelf ∧ (∀ t, d.pwr.avsT = some t → d.since t ≥ ms6) ∧ max 680 d.avsFloor ≤ mv ∧ mv ≤ 780 ∧ mv % 5 = 0)
      fun _ _ d => d.onPwr fun w => { w with avsMv := mv, avsFails := 0, avsFault := false, avsT := some d.clk.t6 })
  ∧ (∀ mv, Acts (.avsUpdate · mv false)
      (fun m _ d => m ≠ .shelf ∧ (∀ t, d.pwr.avsT = some t → d.since t ≥ ms6) ∧ max 680 d.avsFloor ≤ mv ∧ mv ≤ 780 ∧ mv % 5 = 0
        ∧ d.pwr.avsFails = 2)
      fun _ _ d => (d.onPwr fun w => { w with
        avsFails := w.avsFails + 1, avsFault := w.avsFault || decide (w.avsFails + 1 ≥ 3), avsT := some d.clk.t6 }).countDev 0x241)
  ∧ (∀ rd, Leaves (.pmbusPoll · rd) (fun m _ _ => m ≠ .shelf) fun d0 e =>
      e.pwr.pmb = (List.range d0.regulators).map (fun i => ((rd.getD i none).getD (d0.pwr.pmb.getD i 0)))
      ∧ e.pwr.fab = d0.pwr.fab ∧ e.mgmt = d0.mgmt ∧ e.clk = d0.clk)
  ∧ (Acts .powerCapStep
      (fun m p d => capped m p = true ∧ d.pwr.fabNext = none ∧ (d.pwr.overMs > 10 ∨ d.pwr.pmbQuiet = true) ∧ d.pwr.fab < 2)
      fun _ _ d => ((d.armFab (d.pwr.fab + 1)).onPwr fun w => { w with overMs := 0 }).countDev 0x242 (d.pwr.fab + 1))
  ∧ (Acts .powerCapStep
      (fun m p d => capped m p = true ∧ d.pwr.fabNext = none ∧ d.pwr.overMs ≤ 10 ∧ d.pwr.underMs > 100 ∧ d.pwr.pmbQuiet = false ∧ d.pwr.fab > 0
        ∧ d.pwr.warn = false
        ∧ d.since d.pwr.clearT ≥ 100 * ms6 ∧ d.pwr.avsFault = false ∧ d.pwr.avsMv ≥ d.avsFor (d.pwr.fab - 1))
      fun _ _ d => (d.armFab (d.pwr.fab - 1)).onPwr fun w => { w with underMs := 0 })
  ∧ (∀ c off, Acts (.refclkValid · c off)
      (fun m _ d => m ≠ .shelf ∧ c < 2 ∧ off.natAbs ≤ 3000 ∧ s6 ≤ d.clk.t6 ∧ d.pwr.valid.getD c false = false)
      fun _ _ d => d.onPwr fun w => { w with
        valid := w.valid.set c true
        off := w.off.set c off
        clk := if c = d.setting 4 1 % 2 ∧ w.failovers = 0 then c else w.clk })
  ∧ (∀ c, Acts (.refclkLost · c) (fun m _ d => m ≠ .shelf ∧ c < 2 ∧ d.ctl.bothLost = false ∧ d.pwr.clk ≠ c)
      fun _ _ d => (d.onPwr fun w => { w with valid := w.valid.set c false }).sendFault 12 c 1 0 0x3F 0)
  ∧ (∀ c, Acts (.refclkLost · c)
      (fun m _ d => m ≠ .shelf ∧ c < 2 ∧ d.ctl.bothLost = false ∧ d.pwr.clk = c ∧ (d.pwr.valid.set c false).getD (1 - c) false = true)
      fun _ _ d => (((d.onPwr fun w => { w with valid := w.valid.set c false }).onPwr fun w => { w with
        clk := 1 - c, failovers := (w.failovers + 1) % 2 ^ 32, failT := some d.clk.t6 }).countDev 0x240 (1 - c)).sendFault 12 c 1 0 0x3F 0)
  ∧ (∀ c, Acts (.refclkLost · c)
      (fun m _ d => m ≠ .shelf ∧ c < 2 ∧ d.ctl.bothLost = false ∧ d.pwr.clk = c ∧ (d.pwr.valid.set c false).getD (1 - c) false = false)
      fun _ _ d => (d.onPwr fun w => { w with valid := w.valid.set c false }).bothLost)
  ∧ (Acts .refclkBothLost (fun m _ d => m ≠ .shelf ∧ d.ctl.bothLost = false) fun _ _ d => d.bothLost)
  ∧ (∀ temps, Leaves (.thermalSample · temps) (fun m _ _ => m ≠ .shelf) fun d0 e =>
      e.pwr.temps = temps.take 18 ∧ e.pwr.hot6.length = 18 ∧ e.pwr.warn = d0.pwr.warn ∧ e.mgmt = d0.mgmt ∧ e.clk = d0.clk)
  ∧ (∀ k t, Acts (.thermalWarning · k)
      (fun m p d => m ≠ .shelf ∧ d.pwr.warn = false ∧ d.pwr.hot6.getD k none = some t ∧ ms6 ≤ d.since t ∧ capped m p = false)
      fun _ _ d => (d.onPwr fun w => { w with warn := true }).countDev 0x250 (256 * k + (d.pwr.temps.getD k 0).toNat % 256))
  ∧ (∀ t, Acts .thermalWarningClear (fun _ _ d => d.pwr.cool6 = some t ∧ d.pwr.warn = true ∧ ms6 ≤ d.since t)
      fun _ _ d => d.onPwr fun w => { w with warn := false, clearT := d.clk.t6 })
  ∧ (∀ k t, Acts (.thermalShutdown · k) (fun m _ d => m ≠ .shelf ∧ d.pwr.hot110.getD k none = some t ∧ 100 * us6 ≤ d.since t)
      fun _ _ d => ({ d with ctl := { d.ctl with coolUntil := some d.clk.t6 } } : Dev).sendFault 12 0xFF 3 2 0x3F
        ((d.pwr.temps.getD k 0).toNat % 256))
  ∧ (∀ c, Acts (.refclkStartTestPass · c) (fun m _ d => m = .coldBoot ∧ (d.ctl.bothLost = true ∨ d.pwr.valid.any id = false) ∧ c < 2)
      fun _ _ d => { d with ctl := { d.ctl with bothLost := false }, pwr := { d.pwr with clk := c } })

/-- Boot, the configuration load, flash and the background tasks (R223, R328, R403, R427, R429, R457, R459, R461, R476, R493, R498, R501). -/
def Obligations.BootAndFlashEvents : Prop :=
  (∀ dt b s, s.mode = .coldBoot → (s.elapse dt).dev.pwr.railsBad = [] → (s.elapse dt).dev.ctl.bothLost = false →
      (s.elapse dt).dev.ctl.romBad = false → b.romOk = true → ∃ d, exec (.safeEntry dt b) s = .next { s.elapse dt with
        mode := .safe, profile := .none, dev := d })
  ∧ (∀ dt b s, s.mode = .coldBoot → (s.elapse dt).dev.pwr.railsBad = [] → (s.elapse dt).dev.ctl.bothLost = false →
      (s.elapse dt).dev.ctl.romBad = false → b.romOk = false →
      exec (.safeEntry dt b) s = .next ((s.elapse dt).onDev fun d => d.onCtl fun c => { c with romBad := true }))
  ∧ (∀ dt b s, s.mode = .coldBoot → (s.elapse dt).dev.pwr.railsBad ≠ [] → exec (.safeEntry dt b) s = .next (s.elapse dt))
  ∧ (∀ dt s q k, s.mode = .safe → (s.elapse dt).dev.heldInSafe = false → (s.elapse dt).dev.ctl.pend = some q → q.target = .load →
      (s.elapse dt).dev.best 2 (s.elapse dt).dev.cfgOk = some k → exec (.imageLoad dt) s = .next ((s.elapse dt).loadEnds (s.elapse dt).dev k))
  ∧ (∀ dt s q, s.mode = .safe → (s.elapse dt).dev.heldInSafe = false → (s.elapse dt).dev.ctl.pend = some q → q.target = .load →
      (s.elapse dt).dev.best 2 (s.elapse dt).dev.cfgOk = none →
      exec (.imageLoad dt) s = .next ((s.elapse dt).enterConfigure (s.elapse dt).dev.defaults))
  ∧ (∀ dt s, s.mode = .safe → (s.elapse dt).dev.heldInSafe = true → exec (.imageLoad dt) s = .next (s.elapse dt))
  ∧ (∀ l, Leaves .timebaseStep
      (fun m _ d => (m = .safe ∨ m = .configure) ∧ d.tim.up = some l ∧ d.tim.stepped = false ∧ (d.igg l).thetas ≠ []
        ∧ ∀ i ∈ devSet :: List.range 32, (d.set i).accepted = false)
      fun d0 e => e.tim.stepped = true ∧ e.clk.slew = 0 ∧ e.clk.tb48 < 2 ^ 40 * 48 ∧ e.clk.t6 = d0.clk.t6 ∧ e.conf = d0.conf ∧ e.mgmt = d0.mgmt)
  ∧ (Acts .startProfileCommit
      (fun m _ d => m = .configure ∧ d.ctl.startProf ≠ .none ∧ d.transition = false ∧ ∀ t < 64, d.tileCode t ≠ 3)
      fun _ _ d => d.onCtl fun c => { c with
        pend := some { target := .toRun c.startProf, epoch := epochAfter d.now, cap := c.startCap }, startProf := .none })
  ∧ (Acts .startProfileCommit (fun m _ d => m = .configure ∧ d.ctl.startProf ≠ .none ∧ d.transition = false ∧ d.tim.stepped = true)
      fun _ _ d => d.onCtl fun c => { c with
        pend := some { target := .toRun c.startProf, epoch := epochAfter d.now, cap := c.startCap }, startProf := .none })
  ∧ (Acts .configureJoinWindowEnd (fun m _ d => m.trains = true ∧ 2 * s6 ≤ d.since d.ctl.configureT)
      fun _ _ d => d.onCtl fun c => { c with settled := true })
  ∧ (∀ dt s, s.mode ≠ .shelf → (s.elapse dt).dev.flt.fatal = true → ∃ t, exec (.fatalFault dt) s = .next t ∧ t.mode = .coldBoot
      ∧ t.profile = .none ∧ t.dev.flt.retained = true ∧ t.dev.flt.status = (s.elapse dt).dev.flt.status)
  ∧ (∀ dt s, (s.elapse dt).dev.flt.fatal = false → exec (.fatalFault dt) s = .next (s.elapse dt))
  ∧ (Acts (.wearLevelling · none) (fun m _ _ => m.adminServed = true) fun _ _ d => d.taskPass 4)
  ∧ (∀ k, Acts (.wearLevelling · (some k)) (fun m _ d => m.adminServed = true ∧ k < 128 ∧ (d.taskPass 4).img.retired.contains k = false
        ∧ ((d.taskPass 4).img.fails.upd k 0 (· + 1)).getD k 0 < 2)
      fun _ _ d => (d.taskPass 4).onImg fun i => { i with fails := i.fails.upd k 0 (· + 1) })
  ∧ (∀ k, Acts (.wearLevelling · (some k)) (fun m _ d => m.adminServed = true ∧ k < 128 ∧ (d.taskPass 4).img.retired.contains k = false
        ∧ 2 ≤ ((d.taskPass 4).img.fails.upd k 0 (· + 1)).getD k 0)
      fun _ _ d => (((d.taskPass 4).onImg fun i => { i with fails := i.fails.upd k 0 (· + 1) }).onImg fun i => { i with
        retired := i.retired ++ [k] }).countDev 0x263 k)
  ∧ (Acts .logFlush (fun m _ _ => m.adminServed = true) fun _ _ d => d.flushNv)
  ∧ (∀ k j, Acts (.flashOpComplete · k .failed)
      (fun m _ d => m.adminServed = true ∧ k < 2 ∧ (d.countDev 0x262 k).img.cmd = some j ∧ j.copy % 2 = k)
      fun _ _ d => (d.countDev 0x262 k).img.cmd.elim d fun j =>
        ((d.countDev 0x262 k).onImg fun i => { i with cmd := none }).finLong (j.mbx, j.tag) .aborted [])
  ∧ (∀ k r j, Acts (.flashOpComplete · k r)
      (fun m _ d => m.adminServed = true ∧ k < 2 ∧ r ≠ .failed ∧ d.img.cmd = some j ∧ j.copy % 2 = k ∧ j.op ≠ 0xB001)
      fun _ _ d => ((d.onImg fun i => { i with cmd := none }).onImg fun i => { i with
        copy := i.copy.set j.copy j.after }).finLong (j.mbx, j.tag) .success j.reply)
  ∧ (∀ n l c x, Acts (.nocRequestTimeout · n (some (l, c))) (fun m _ d => d.head m l c = some x) fun _ _ d => d.wait x)
  ∧ (∀ n, Acts (.nocRequestTimeout · n none) (fun _ _ _ => True) fun _ _ d => d)
  ∧ (∀ x, Acts (.tableScrub · x) (fun m _ _ => m.adminServed = true) fun _ _ d => (d.taskPass 1).scrubFound x)

/-- The sideband pins (R468 to R485): I3C, the SPI monitoring port, the UART, the scan chain of the slots, and JTAG. -/
def Obligations.SidebandEvents : Prop :=
  (∀ t c eid, Acts (.mctpControlMessage · t c eid false) (fun m _ _ => m ≠ .shelf)
      fun _ _ d => d.onSide fun x => { x with pecFail := (x.pecFail + 1) % 2 ^ 16 })
  ∧ (∀ eid, Acts (.mctpControlMessage · 0 1 eid true) (fun m _ _ => m ≠ .shelf ∧ 8 ≤ eid ∧ eid < 0xFF)
      fun _ _ d => d.onSide fun x => { x with eid := eid })
  ∧ (∀ t c eid, Acts (.mctpControlMessage · t c eid true) (fun m _ _ => m ≠ .shelf ∧ t ∉ [0, 0x05, 0x06, 0x07, 0x7E])
      fun _ _ d => d.onSide fun x => { x with ctlOther := x.ctlOther + 1 })
  ∧ (∀ a st, Acts (.i3cAddressAssign · a false st) (fun m _ _ => m ≠ .shelf)
      fun _ _ d => d.onSide fun x => { x with i3cAddr := some a, partMsg := false })
  ∧ (∀ a st, Acts (.i3cAddressAssign · a true st) (fun m _ d => m ≠ .shelf ∧ st = d.i3cStatic)
      fun _ _ d => d.onSide fun x => { x with i3cAddr := some a, partMsg := false })
  ∧ (Acts .i3cBusReset (fun m _ _ => m ≠ .shelf) fun _ _ d => d.onSide fun x => { x with partMsg := false })
  ∧ (∀ off len ex, Acts (.spiReadPage · off len true ex) (fun m _ _ => m ≠ .shelf ∧ spiForm off len = true)
      fun m p d =>
        let data := ((pageAccesses (len / 4) off len).map fun a => d.pageRead m p .admin a.1 a.2).flatten
        d.onSide fun x => { x.spiCounts true ex with spiOut := spiResponse x.spiPrev true data })
  ∧ (∀ off len ex, Acts (.spiReadPage · off len true ex) (fun m _ _ => m ≠ .shelf ∧ spiForm off len = false) fun _ _ d => d.spiFormat)
  ∧ (∀ off len ex, Acts (.spiReadPage · off len false ex) (fun m _ _ => m ≠ .shelf)
      fun _ _ d => d.onSide fun x => { x.spiCounts false ex with spiOut := spiResponse x.spiPrev false (zeros len) })
  ∧ (∀ off data ex, Acts (.spiWritePage · off data true ex) (fun m _ _ => m ≠ .shelf ∧ spiForm off data.length = true)
      fun m _ d => (pageAccesses (data.length / 4) off data.length).foldl
        (fun d a => d.pageWrite m .admin a.1 a.2 (slice data (a.1 - off) a.2))
        (d.onSide fun x => { x.spiCounts true ex with spiOut := nb 1 x.spiPrev }))
  ∧ (∀ off data ex, Acts (.spiWritePage · off data false ex) (fun m _ _ => m ≠ .shelf ∧ spiForm off data.length = true)
      fun _ _ d => d.onSide fun x => { x.spiCounts false ex with spiOut := nb 1 x.spiPrev })
  ∧ (∀ ex, Acts (.spiReadSbStatus · true ex) (fun m _ _ => m ≠ .shelf)
      fun _ _ d => d.onSide fun x => { x.spiCounts true ex with spiOut := spiResponse x.spiPrev true (nb 16 x.status).reverse })
  ∧ (Acts .spiFormatError (fun m _ _ => m ≠ .shelf) fun _ _ d => d.spiFormat)
  ∧ (Acts .spiPartialFrame (fun m _ _ => m ≠ .shelf) fun _ _ d => d.onSide fun x => { x with
      spiPart := (x.spiPart + 1) % 2 ^ 16, spiPrev := 4, spiOut := nb 1 x.spiPrev })
  ∧ (∀ ch, Acts (.uartCharacter · ch true)
      (fun m p d => m ≠ .shelf ∧ p.isSecure = false ∧ d.sec.debug = true ∧ d.side.uFifo.length < 64)
      fun _ _ d => d.onSide fun x =>
        if x.uFifo.length < 64 then { x with uFifo := x.uFifo ++ [ch] } else { x with uOver := (x.uOver + 1) % 2 ^ 16 })
  ∧ (∀ ch b, Acts (.uartCharacter · ch b) (fun m p _ => m ≠ .shelf ∧ p.isSecure = true) fun _ _ d => d)
  ∧ (∀ ch, Acts (.uartCharacter · ch false) (fun m p _ => m ≠ .shelf ∧ p.isSecure = false)
      fun _ _ d => d.onSide fun x => { x with uFrame := (x.uFrame + 1) % 2 ^ 16 })
  ∧ (Acts .uartBreak (fun m p _ => m ≠ .shelf ∧ p.isSecure = false) fun _ _ d => d.onSide fun x => { x with
      uBreak := (x.uBreak + 1) % 2 ^ 16 })
  ∧ (∀ v sg, Leaves (.sidebandScan · v sg) (fun m _ _ => m.adminServed = true) fun d0 e =>
      e.side.scanned = true ∧ e.side.last = v.toNat ∧ e.side.badSig = (if sg = 0xA5 then 0 else d0.side.badSig + 1)
      ∧ e.side.goodSig = (if sg = 0xA5 then d0.side.goodSig + 1 else 0) ∧ e.side.chFaults = d0.side.chFaults ∧ e.mgmt = d0.mgmt)
  ∧ (Acts .chainFault (fun m _ d => m.adminServed = true ∧ d.side.chOk = true ∧ 3 ≤ d.side.badSig)
      fun _ _ d => d.onSide fun x => { x with chOk := false, chFaults := (x.chFaults + 1) % 2 ^ 8, run := [] })
  ∧ (Acts .chainFaultEnd (fun m _ d => m.adminServed = true ∧ d.side.scanned = true ∧ d.side.chOk = false ∧ 16 ≤ d.side.goodSig)
      fun _ _ d => d.onSide fun x => { x with chOk := true })
  ∧ (Acts .indicatorBlink (fun m _ d => m.adminServed = true ∧ d.now % 333000000 = 0)
      fun _ _ d => d.onSide fun x => { x with blinkOn := ! x.blinkOn })
  ∧ (Acts .bypass (fun m _ _ => m ≠ .shelf) fun _ _ d => d.jtagBypass)
  ∧ (Acts .idcode (fun m _ _ => m ≠ .shelf) fun _ _ d => d.jtagSet .idcode jtagId)
  ∧ (Acts .samplePreload (fun m _ _ => m ≠ .shelf) fun _ _ d => d.draw.2.jtagSet .samplePreload d.draw.1.toNat)
  ∧ (Acts .extest (fun m p _ => m ≠ .shelf ∧ p.isSecure = false)
      fun _ p d => (d.jtagSet .extest 0).links.foldl (fun d l => d.anyDown p l) (d.jtagSet .extest 0))
  ∧ (Acts .extestPulse (fun m p _ => m ≠ .shelf ∧ p.isSecure = false)
      fun _ p d => (d.jtagSet .extestPulse 0).links.foldl (fun d l => d.anyDown p l) (d.jtagSet .extestPulse 0))
  ∧ (Acts .extestTrain (fun m p _ => m ≠ .shelf ∧ p.isSecure = false)
      fun _ p d => (d.jtagSet .extestTrain 0).links.foldl (fun d l => d.anyDown p l) (d.jtagSet .extestTrain 0))
  ∧ (Acts .clamp (fun m p _ => m ≠ .shelf ∧ p.isSecure = false)
      fun _ p d => (d.jtagSet .clamp 0).links.foldl (fun d l => d.anyDown p l) (d.jtagSet .clamp 0))
  ∧ (Acts .highz (fun m p _ => m ≠ .shelf ∧ p.isSecure = false)
      fun _ p d => (d.jtagSet .highz 0).links.foldl (fun d l => d.anyDown p l) (d.jtagSet .highz 0))
  ∧ (Acts .extest (fun m p _ => m ≠ .shelf ∧ p.isSecure = true) fun _ _ d => d.jtagBypass)
  ∧ (∀ c, Acts (.privateDebugInstruction · c) (fun m p d => m ≠ .shelf ∧ (d.sec.debug = false ∨ p.isSecure = true))
      fun _ _ d => d.jtagBypass)
  ∧ (Acts .tapReset (fun m _ _ => m ≠ .shelf) fun _ _ d => d.jtagSet .idcode 0)

/-- Hot-plug (R284, R295 to R299, R460, R484): presence, the attention button, host power control, the limits, and the end of a removal. -/
def Obligations.HotplugEvents : Prop :=
  (∀ t, Acts (.presenceInserted · t) (fun m _ d => m.adminServed = true ∧ t < 64 ∧ d.newInput (2 * t) 16 = some false)
      fun _ _ d => (d.slotVppbs t).foldl (fun d x => d.report 2 x) (d.acceptInput (2 * t)))
  ∧ (∀ t, Acts (.presenceLost · t) (fun m _ d => m = .safe ∧ t < 64 ∧ d.newInput (2 * t) 4 = some true)
      fun _ _ d => ((d.acceptInput (2 * t)).chanOff t).perstLow t)
  ∧ (∀ t, Acts (.presenceLost · t)
      (fun m _ d => m.adminServed = true ∧ m ≠ .safe ∧ t < 64 ∧ d.newInput (2 * t) 4 = some true ∧ (d.acceptInput (2 * t)).tileIn t = true)
      fun m p d => (d.acceptInput (2 * t)).surprise m p t)
  ∧ (∀ t, Acts (.presenceLost · t)
      (fun m _ d => m.adminServed = true ∧ m ≠ .safe ∧ t < 64 ∧ d.newInput (2 * t) 4 = some true ∧ (d.acceptInput (2 * t)).tileIn t = false
        ∧ (d.acceptInput (2 * t)).cxl.hot = [] ∧ ((d.acceptInput (2 * t)).chan t).st = .off)
      fun _ _ d => (d.slotVppbs t).foldl (fun d x => d.report 2 x) (d.acceptInput (2 * t)))
  ∧ (∀ t, Acts (.attentionButtonPressed · t)
      (fun m _ d => m.adminServed = true ∧ m ≠ .safe ∧ t < 64 ∧ d.newInput (2 * t + 1) 16 = some false
        ∧ (d.acceptInput (2 * t + 1)).newInput (2 * t) 4 ≠ some true
        ∧ ((d.acceptInput (2 * t + 1)).inserted t = true ∨ (d.acceptInput (2 * t + 1)).side.run.getD (2 * t) 0 ≠ 4)
        ∧ (d.acceptInput (2 * t + 1)).hotHas t false = false)
      fun m _ d => (d.acceptInput (2 * t + 1)).hotQueue m { tile := t, add := false })
  ∧ (∀ t, Acts (.attentionButtonPressed · t)
      (fun m _ d => m.adminServed = true ∧ t < 64 ∧ d.newInput (2 * t + 1) 16 = some false
        ∧ (m = .safe ∨ (d.acceptInput (2 * t + 1)).hotHas t false = true))
      fun _ _ d => d.acceptInput (2 * t + 1))
  ∧ (∀ t, Acts (.attentionButtonReleased · t) (fun m _ d => m.adminServed = true ∧ t < 64 ∧ d.newInput (2 * t + 1) 16 = some true)
      fun _ _ d => d.acceptInput (2 * t + 1))
  ∧ (∀ t, Acts (.perstRelease · t)
      (fun _ _ d => (d.chan t).pg = true ∧ 100 * ms6 ≤ d.since (d.chan t).pgT ∧ d.pwr.perst.contains t = false
        ∧ ∀ h ∈ d.cxl.hot, h.tile ≠ t ∨ h.add = true ∨ h.step ≠ 3)
      fun m _ d => (d.onPwr fun w => { w with perst := w.perst ++ [t] }).hotNext m)
  ∧ (∀ v k on, Acts (.hostPowerControlWrite · v k on) (fun _ _ d => d.vcsUp v = true ∧ k ≤ 30) fun m _ d => d.powerControl m (v, k) on)
  ∧ (∀ t h hs, Acts (.hotplugAddFailed · t)
      (fun m _ d => d.cxl.hot = h :: hs ∧ h.tile = t ∧ h.add = true ∧ d.tileIn t = false
        ∧ ((d.chan t).st = .latched ∨ (h.step = 1 ∧ (d.chan t).pg = false ∧ 8 * s6 ≤ d.since h.t6)
          ∨ (h.step = 2 ∧ m ≠ .diagnostic ∧ s6 ≤ d.since h.t6)))
      fun m _ d => (d.addFails m h).hotNext m)
  ∧ (∀ l, Acts (.cxlLinkDown · l)
      (fun _ p d => d.isCxl l = true ∧ (d.port l).up = true ∧ (d.cxlDown p l).inserted (l / 4) = true)
      fun _ p d => d.cxlDown p l)
  ∧ (∀ t h hs, Acts (.slotPowerOff · t)
      (fun _ _ d => d.cxl.hot = h :: hs ∧ h.tile = t ∧ h.add = false ∧ h.step = 3 ∧ h.surprise = false ∧ 100 * us6 ≤ d.since h.t6)
      fun m _ d =>
        let d := (d.slotVppbs t).foldl (fun d x => (d.report 8 x).onVppb x fun v => { v with pind := 3 }) (d.chanOff t)
        (((d.indicate t 0 3).count 0x0C0 t).hotEnd h .success).hotNext m)
  ∧ (∀ t, Acts (.removeTimeout · t) (fun _ _ d => d.cxl.hot = [] ∧ d.slotVppbs t = []) fun _ _ d => d)
  ∧ (∀ dt ok s v, (s.elapse dt).dev.ctl.svc = some v → v.begun = true → v.endAt = none → v.op = 2 ∨ v.op = 4 → v.step = 1 →
      exec (.serviceOpComplete dt ok) s = .next ((s.elapse dt).onDev fun d =>
        ((d.onCtl fun c => { c with svc := some { v with step := if ok then 3 else v.step } }).svcFinish s.mode ok).hotNext s.mode))
  ∧ (∀ dt s v, (s.elapse dt).dev.ctl.svc = some v → v.begun = true → v.endAt = none → v.op = 3 → v.step = 1 → v.inst = 0 →
      ∃ t, exec (.serviceOpComplete dt true) s = .next t ∧ t.mem = s.mem.clear 0 ((s.elapse dt).dev.basinK.1 * gib)
        ∧ t.mode = s.mode ∧ t.profile = s.profile)
  ∧ (∀ dt ok s, (s.elapse dt).dev.ctl.svc = none → exec (.serviceOpComplete dt ok) s = .next (s.elapse dt))

/-- Commit epochs and the ends of mode changes (R26, R28, R31, R33, Table MODE-3, Table MODE-6, Table MODE-8): what mode and profile follow
from a pending change, and the reports of Configure and Diagnostic. -/
def Obligations.ModeEvents : Prop :=
  (∀ dt s, s.mode.adminServed = true → (s.elapse dt).dev.safeDue = true → exec (.commitEpoch dt) s = .next ((s.elapse dt).toCoreReset true))
  ∧ (∀ dt s, s.mode.adminServed = true → (s.elapse dt).dev.safeDue = false →
      exec (.commitEpoch dt) s = .next { s.elapse dt with
        mode := (epochActs s.mode s.profile (s.elapse dt).dev).m
        profile := (epochActs s.mode s.profile (s.elapse dt).dev).p
        dev := (epochActs s.mode s.profile (s.elapse dt).dev).d })
  ∧ (∀ dt s, s.mode = .shelf ∨ s.mode = .coldBoot → exec (.commitEpoch dt) s = .next (s.elapse dt))
  ∧ (∀ p d q t, d.ctl.pend = some q → q.begun = false → tGe d.now q.epoch = true → q.target = .toRun t → t ≠ .none →
      d.redundancyLost = false →
      (pendActs { m := .configure, p := p, d := d }).m = t.mode ∧ (pendActs { m := .configure, p := p, d := d }).p = t)
  ∧ (∀ p d q t, d.ctl.pend = some q → q.begun = false → tGe d.now q.epoch = true → q.target = .toRun t → t ≠ .none →
      d.redundancyLost = true →
      (pendActs { m := .configure, p := p, d := d }).m = .degraded ∧ (pendActs { m := .configure, p := p, d := d }).p = t)
  ∧ (∀ m p d q, d.ctl.pend = some q → q.begun = false → tGe d.now q.epoch = true → q.target = .service → m.tenant = true →
      (pendActs { m := m, p := p, d := d }).m = .service ∧ (pendActs { m := m, p := p, d := d }).p = p)
  ∧ (∀ m p d q, d.ctl.pend = some q → tGe d.now q.epoch = false → pendActs { m := m, p := p, d := d } = { m := m, p := p, d := d })
  ∧ (∀ m p d e, d.ctl.pend = none → d.ctl.auto = some (true, e) → tGe d.now e = true → m.isRun = true →
      (autoActs { m := m, p := p, d := d }).m = .degraded ∧ (autoActs { m := m, p := p, d := d }).p = p)
  ∧ (∀ p d e, d.ctl.pend = none → d.ctl.auto = some (false, e) → tGe d.now e = true →
      (autoActs { m := .degraded, p := p, d := d }).m = p.mode ∧ (autoActs { m := .degraded, p := p, d := d }).p = p)
  ∧ (∀ dt s, s.mode.tenant = true → (s.elapse dt).dev.draining = true → (s.elapse dt).dev.drained = true →
      ∃ d, exec (.configureDrainComplete dt) s = .next { s.elapse dt with mode := .configure, profile := .none, dev := d })
  ∧ (∀ dt s, (s.elapse dt).dev.drained = false → exec (.configureDrainComplete dt) s = .next (s.elapse dt))
  ∧ (∀ dt b s q, s.mode = .configure → (s.elapse dt).dev.ctl.pend = some q → q.target = .diagnostic true →
      ∃ d, exec (.diagnosticTransitionDone dt b) s = .next { s.elapse dt with mode := .diagnostic, profile := .none, dev := d }
        ∧ d.sec.approved = false)
  ∧ (∀ dt s q, s.mode = .diagnostic → (s.elapse dt).dev.ctl.pend = some q → q.target = .diagnostic false →
      (s.elapse dt).dev.sec.errState = false →
      ∃ d, exec (.diagnosticTransitionDone dt true) s = .next { s.elapse dt with mode := .configure, profile := .none, dev := d }
        ∧ d.sec.approved = true)

/-- The queue: a step takes the command at the front and runs it with the queue's rest. On an empty queue the block idles (the model's
choice, assumption 2). -/
def Obligations.StepRunsFront : Prop :=
  (∀ c rest s, s.pending = c :: rest → step s = exec c (s.withPending rest))
  ∧ (∀ c s, step (s.withPending (c :: s.pending)) = exec c s)
  ∧ (∀ s, s.pending = [] → step s = .next s)

/-- The state after a cold reset (R23, R306, R308, R456, Table PWR-4, R459): Cold Boot, profile 0x0, timebase 0, one Reach that owns every
link, no firmware running. What the Basin memory lists is the model's choice (assumption 4). -/
def Obligations.ResetState : Prop :=
  State.reset.mode = .coldBoot ∧ State.reset.profile = .none ∧ State.reset.pending = [] ∧ State.reset.dev.now = 0
  ∧ devMode State.reset.mode State.reset.profile State.reset.dev = 1 ∧ State.reset.dev.ident = 0x4F586410B0000000
  ∧ State.reset.dev.nReach = 1 ∧ (∀ l ld, State.reset.dev.owner l ld = some 0)
  ∧ profileFits State.reset.mode State.reset.profile = true ∧ State.reset.mem.wf
  ∧ (∀ a, State.reset.mem.byte a = 0) ∧ (∀ a, State.reset.mem.poisoned a 1 = false)

/-- A core reset into Safe (Table PWR-4, R399, R403, R411, R456): DEV_MODE reads as in Cold Boot; the timebase, slot power, the supplies,
the sideband, the tallies and the lost and per-family fault counts are kept; sessions and challenges end. A zeroization also empties the
key store (R384). -/
def Obligations.CoreReset : Prop :=
  (∀ (s : State) b, let t := s.toCoreReset b
    t.mode = .coldBoot ∧ t.profile = .none ∧ t.pending = s.pending ∧ devMode t.mode t.profile t.dev % 512 = 1
    ∧ t.dev.clk.tb48 = s.dev.clk.tb48 ∧ t.dev.slots = s.dev.slots ∧ t.dev.side = s.dev.side ∧ t.dev.tele.tally = s.dev.tele.tally
    ∧ t.dev.tele.rtally = s.dev.tele.rtally ∧ t.dev.flt.lost = s.dev.flt.lost ∧ t.dev.flt.fam = s.dev.flt.fam
    ∧ t.dev.sec.sessions = [] ∧ t.dev.sec.challs = [] ∧ t.dev.sec.slots = s.dev.sec.slots ∧ t.dev.flt.status = 0)
  ∧ (∀ (s : State) k, let t := s.zeroize k
    t.mode = .coldBoot ∧ t.profile = .none ∧ t.dev.sec.slots = [] ∧ t.dev.sec.sessions = [] ∧ t.dev.sec.challs = []
    ∧ t.dev.sec.seeded = false ∧ t.dev.sec.keyGen = s.dev.sec.keyGen + 1)

/-- Every command goes on: no row faults, and only a private debug instruction is refused, after DEBUG_ENABLE outside Run-Secure, where the
manual does not say what one does (Table SIDE-7, R481). -/
def Obligations.CommandsGoOn : Prop :=
  (∀ i s, (∀ dt c, i ≠ .privateDebugInstruction dt c) → ∃ t, exec i s = .next t)
  ∧ (∀ dt c s, s.mode ≠ .shelf → (s.elapse dt).dev.sec.debug = true → s.profile.isSecure = false →
      exec (.privateDebugInstruction dt c) s = .refused (.privateDebugUndefined c))
  ∧ (∀ dt c s, s.mode = .shelf ∨ (s.elapse dt).dev.sec.debug = false ∨ s.profile.isSecure = true →
      ∃ t, exec (.privateDebugInstruction dt c) s = .next t)

/-- Frames of the whole machine: no row changes the waiting commands; only the rows of Table MODE-6 change the mode or the profile; only the
Basin rows, the return of a stack and the resets change the Basin memory. -/
def Obligations.MachineFrames : Prop :=
  (∀ i s t, exec i s = .next t → t.pending = s.pending)
  ∧ (∀ i s t, movesMode i = false → exec i s = .next t → t.mode = s.mode ∧ t.profile = s.profile)
  ∧ (∀ i s t, touchesMemory i = false → exec i s = .next t → t.mem = s.mem)

/-- R26: the device changes mode only along the paths of Table MODE-6. -/
def Obligations.ModePaths : Prop := ∀ i s t, exec i s = .next t → modePath s.mode t.mode = true

/-- R24 as an invariant of every step: the profile agrees with the mode as Table MODE-3 lays down. -/
def Obligations.ProfileFits : Prop :=
  ∀ s t, profileFits s.mode s.profile = true → step s = .next t → profileFits t.mode t.profile = true

/-- The Basin memory keeps its canonical form over every step. -/
def Obligations.BasinCanonical : Prop := ∀ s t, s.mem.wf → step s = .next t → t.mem.wf

/-- Basin memory reads back what was written, every other byte stays, a cleared range reads 0, and memories that read alike are equal. -/
def Obligations.MemoryReadsBack : Prop :=
  (∀ (m : Mem) off (b : Bytes), m.wf → (m.putAll (cellsAt off b)).wf ∧ (m.putAll (cellsAt off b)).read off b.length = b)
  ∧ (∀ (m : Mem) off (b : Bytes) a, m.wf →
      (m.putAll (cellsAt off b)).byte a = if off ≤ a ∧ a < off + b.length then b.getD (a - off) 0 else m.byte a)
  ∧ (∀ (m : Mem) off n a, m.wf → (m.clear off n).wf ∧ (m.clear off n).byte a = if off ≤ a ∧ a < off + n then 0 else m.byte a)
  ∧ (∀ m n : Mem, m.wf → n.wf → (∀ a, m.byte a = n.byte a) → m.cells = n.cells)

/-- What the Basin rows store (R141 to R145, R184): every byte outside the bytes that the write, the AtomicOp, the fill or the clearing
covers reads as before, and a read or a scrub stores nothing. -/
def Obligations.BasinStores : Prop :=
  (∀ dt port id s t x, (s.elapse dt).dev.portMsg port id = some x → x.acc = .write → exec (.basinMemoryAccess dt port id) s = .next t →
      ∀ a, (∀ c ∈ x.writeCells, c.1 ≠ a) → t.mem.byte a = s.mem.byte a)
  ∧ (∀ dt port id s t x, (s.elapse dt).dev.portMsg port id = some x → x.acc ≠ .write → exec (.basinMemoryAccess dt port id) s = .next t →
      t.mem = s.mem)
  ∧ (∀ dt port id s t x op n, (s.elapse dt).dev.portMsg port id = some x → x.acc = .atomic op n →
      exec (.basinAtomicop dt port id) s = .next t → ∀ a, ¬ (x.off ≤ a ∧ a < x.off + n) → t.mem.byte a = s.mem.byte a)
  ∧ (∀ dt g s t, exec (.basinGibCleared dt g) s = .next t → ∀ a, ¬ (g * gib ≤ a ∧ a < g * gib + gib) → t.mem.byte a = s.mem.byte a)
  ∧ (∀ dt f s t, exec (.basinFill dt f) s = .next t →
      ∀ a, (∀ x ∈ ((s.elapse dt).ctx f).fillParts, x.fault = 0 → ¬ (x.off ≤ a ∧ a < x.off + x.len)) → t.mem.byte a = s.mem.byte a)
  ∧ (∀ dt k l r s t, exec (.dredgerScrub dt k l r) s = .next t → t.mem.cells = s.mem.cells)

/-- The opcode, the fixed payload, whether the command is long, and who may send it (hosts, the tunnel, the lowest role, callers without a
session), as the command tables and R72, R352, R376 give them. -/
def Obligations.CommandTable : Prop :=
  (commandTable.map fun k => (k.op, k.len, k.long, k.src.hosts, k.src.tunnel, k.src.role.getD 0, k.src.open_)) =
    [(0x0000, 0, false, true, true, 1, true), (0x0001, 4, false, true, true, 1, true), (0x0002, 2, false, true, true, 1, true),
     (0x0003, 8, true, false, true, 2, false), (0x0003, 8, false, false, true, 2, false), (0x0004, 16, true, false, true, 2,
     false), (0x0005, 4, false, false, true, 2, false), (0x0006, 2, false, true, true, 1, false), (0x0007, 0, false, true, true,
     1, false), (0x0008, 0, true, false, false, 3, false), (0x0F00, 4, true, true, true, 2, false), (0x0F01, 16, false, false,
     true, 2, false), (0x0F02, 3, false, true, true, 1, false), (0x0F03, 4, false, false, true, 2, false), (0x0F04, 2, false,
     true, true, 1, false), (0x0F05, 1, false, true, true, 1, false), (0x1000, 0, false, true, true, 1, true), (0x1001, 4, false,
     false, false, 1, true), (0x1002, 100, false, false, false, 1, true), (0x1003, 0, false, false, false, 1, false), (0x1004, 12,
     false, false, false, 4, false), (0x1005, 1, false, false, false, 4, false), (0x1006, 0, true, false, false, 4, false),
     (0x1007, 4, false, false, false, 4, false)] ++
    [(0x1008, 10, false, false, false, 4, false), (0x1009, 4, false, false, false, 4, false), (0x2000, 0, false, true, true, 1,
     false), (0x2001, 8, true, false, false, 3, false), (0x2001, 8, false, false, false, 3, false), (0x2002, 4, false, false,
     false, 3, false), (0x2003, 0, false, false, false, 3, false), (0x2010, 0, false, false, true, 1, false), (0x2011, 0, false,
     false, true, 1, false), (0x2012, 4, false, false, false, 3, false), (0x2013, 0, false, false, false, 3, false), (0x3000, 4,
     false, true, true, 1, false), (0x3001, 12, false, false, true, 2, false), (0x3002, 4, true, false, true, 2, false), (0x3003,
     8, true, false, true, 2, false), (0x3004, 2, false, true, true, 1, false), (0x3005, 16, false, false, false, 3, false),
     (0x3006, 1, false, false, false, 3, false), (0x3007, 3, false, false, true, 1, false), (0x3020, 4, false, false, false, 3,
     false), (0x3021, 8, false, false, false, 3, false), (0x3022, 4, false, true, true, 1, false), (0x3023, 4, true, false, true,
     2, false), (0x3024, 4, true, false, true, 2, false)] ++
    [(0x3025, 2, false, true, true, 1, false), (0x4000, 10, false, false, true, 2, false), (0x4001, 4, true, false, true, 2,
     false), (0x4001, 4, false, false, true, 2, false), (0x4002, 3, false, true, true, 1, false), (0x4003, 6, false, false, true,
     2, false), (0x4004, 6, false, false, true, 2, false), (0x4040, 4, false, false, false, 3, false), (0x4041, 4, false, true,
     true, 1, false), (0x4042, 4, false, false, true, 2, false), (0x4043, 2, false, true, true, 1, false), (0x4044, 4, true,
     false, true, 2, false), (0x4045, 1, false, true, true, 1, false), (0x4080, 4, false, false, false, 3, false), (0x4081, 1,
     false, true, true, 1, false), (0x4082, 4, false, false, true, 2, false), (0x4083, 1, false, true, true, 1, false), (0x4084,
     28, true, false, true, 2, false), (0x4085, 12, false, false, true, 2, false), (0x4086, 3, false, true, true, 1, false),
     (0x4087, 1, false, true, true, 1, false), (0x5000, 52, false, false, true, 2, false), (0x5001, 5, false, true, true, 1,
     false), (0x5002, 8, false, false, true, 2, false)] ++
    [(0x5003, 1, false, true, true, 1, false), (0x5004, 12, false, true, true, 1, false), (0x5005, 52, false, false, true, 2,
     false), (0x5006, 2, false, true, true, 1, false), (0x5007, 16, false, false, true, 2, false), (0x5008, 4, false, false, true,
     2, false), (0x5009, 4, false, true, true, 1, false), (0x6000, 28, false, false, true, 2, false), (0x6001, 5, false, true,
     true, 1, false), (0x6002, 4, false, false, true, 2, false), (0x6003, 12, false, false, true, 2, false), (0x6004, 8, false,
     false, true, 2, false), (0x6005, 2, false, true, true, 1, false), (0x6006, 28, true, false, true, 2, false), (0x6007, 4,
     true, false, true, 2, false), (0x6008, 4, false, true, true, 1, false), (0x6009, 2, false, true, true, 1, false), (0x6010,
     12, false, false, true, 2, false), (0x6011, 12, false, false, true, 2, false), (0x6012, 4, false, true, true, 1, false),
     (0x6013, 4, false, true, true, 1, false), (0x7000, 0, false, true, true, 1, false), (0x7001, 44, false, false, true, 2,
     false), (0x7002, 4, false, true, true, 1, false)] ++
    [(0x7003, 16, true, false, true, 2, false), (0x7010, 8, false, false, false, 3, false), (0x7011, 8, false, false, true, 2,
     false), (0x7012, 4, false, true, true, 1, false), (0x7013, 4, true, false, true, 2, false), (0x7014, 4, true, false, true, 2,
     false), (0x7015, 0, false, true, true, 1, false), (0x7020, 44, false, false, true, 2, false), (0x7021, 4, false, false, true,
     1, false), (0x7022, 4, false, true, true, 1, false), (0x7023, 4, true, false, true, 2, false), (0x7024, 4, false, true, true,
     1, false), (0x8000, 20, false, true, true, 2, false), (0x8001, 4, false, true, true, 1, false), (0x8002, 4, false, true,
     true, 1, false), (0x8003, 12, false, true, true, 2, false), (0x8004, 8, false, true, true, 1, false), (0x8005, 4, false,
     false, true, 2, false), (0x8006, 4, false, true, true, 1, false), (0x8007, 4, false, false, true, 1, false), (0x8008, 4,
     false, false, true, 2, false), (0x8009, 8, false, false, true, 1, false), (0x800A, 16, false, false, true, 2, false),
     (0x800B, 12, false, false, true, 2, false)] ++
    [(0x800C, 0, false, false, true, 1, false), (0x8F00, 4, false, false, false, 1, false), (0x8F01, 4, false, false, false, 2,
     false), (0x8F02, 0, false, false, false, 1, false), (0x9000, 4, false, true, true, 1, false), (0x9001, 16, false, true, true,
     2, false), (0x9002, 4, false, true, true, 1, false), (0x9003, 8, false, false, true, 1, false), (0x9004, 0, false, false,
     true, 1, false), (0x9005, 8, false, false, true, 1, false), (0x9006, 0, false, false, true, 1, false), (0x9007, 16, false,
     false, false, 3, false), (0xA000, 1, false, true, true, 1, false), (0xA001, 8, false, false, true, 2, false), (0xA002, 2,
     false, false, true, 1, false), (0xA003, 1, false, false, true, 2, false), (0xA004, 2, false, false, true, 2, false), (0xA005,
     1, false, false, true, 1, false), (0xB000, 0, false, false, true, 1, false), (0xB001, 0, true, false, false, 3, false),
     (0xB002, 8, true, false, false, 3, false), (0xB003, 8, true, false, false, 3, false), (0xB004, 4, false, false, false, 3,
     false), (0xB005, 0, false, false, false, 4, false)] ++
    [(0xC000, 8, false, false, true, 2, false), (0xD000, 12, false, false, false, 2, false)]

/-- R351, R30, R349 and R523: the order of the checks, whatever the command, and the checks of MODE_SET. -/
def Obligations.BilodOrder : Prop :=
  (∀ (k : Cmd) (c : Ctx), c.f.flags ≠ 0 → k.verdict c = some (invalidHeader 2))
  ∧ (∀ (k : Cmd) (c : Ctx), c.f.flags = 0 → c.f.status ≠ 0 → k.verdict c = some (invalidHeader 6))
  ∧ (∀ (k : Cmd) (c : Ctx), c.f.flags = 0 → c.f.status = 0 → c.f.payload.length > 4080 ∨ c.f.payload.length < k.len →
      k.verdict c = some (invalidHeader 8))
  ∧ (∀ (k : Cmd) (c : Ctx), c.f.flags = 0 → c.f.status = 0 → c.f.payload.length ≤ 4080 → k.len ≤ c.f.payload.length →
      c.f.mbx = .tunnel ∨ (∃ r, c.f.mbx = .reach r) → c.f.sid ≠ 0 → k.verdict c = some (invalidHeader 12))
  ∧ (∀ (k : Cmd) (c : Ctx), headerCheck k.len c = none → k.src.ok k.op c = false → k.verdict c = some (plain .accessDenied))
  ∧ (∀ (k : Cmd) (c : Ctx), headerCheck k.len c = none → k.src.ok k.op c = true → k.mode c.m = false →
      k.verdict c = some (plain .wrongMode))
  ∧ (∀ (k : Cmd) (c : Ctx) x, headerCheck k.len c = none → k.src.ok k.op c = true → k.mode c.m = true →
      (k.long = true → tagFree c = none) → firstFail k.fields c = some x → k.verdict c = some x)
  ∧ (∀ (k : Cmd) (c : Ctx) x, headerCheck k.len c = none → k.src.ok k.op c = true → k.mode c.m = true →
      (k.long = true → tagFree c = none) → firstFail k.fields c = none → trailing (k.len + k.ext c) c = some x → k.verdict c = some x)
  ∧ (∀ (k : Cmd) (c : Ctx), headerCheck k.len c = none → k.src.ok k.op c = true → k.mode c.m = true →
      (k.long = true → tagFree c = none) → firstFail k.fields c = none → trailing (k.len + k.ext c) c = none →
      (k.long = true → (c.d.mbx c.f.mbx).longs.length < 16) → k.verdict c = firstFail k.state c)
  ∧ (∀ (k : Cmd) (c : Ctx), headerCheck k.len c = none → k.src.ok k.op c = true → k.mode c.m = true → k.long = true →
      (∃ l ∈ (c.d.mbx c.f.mbx).longs, l.tag = c.f.tag) → k.verdict c = some (invalidHeader 4))
  ∧ (∀ (k : Cmd) (c : Ctx), headerCheck k.len c = none → k.src.ok k.op c = true → k.mode c.m = true → k.long = true → tagFree c = none →
      firstFail k.fields c = none → trailing (k.len + k.ext c) c = none → 16 ≤ (c.d.mbx c.f.mbx).longs.length →
      k.verdict c = some (plain .busy))
  ∧ (∀ b (c : Ctx), c.u8 0 ∈ [0, 1, 9, 10] → firstFail (cmdModeSet b).fields c = some (plain .wrongMode))
  ∧ (∀ b (c : Ctx), 12 ≤ c.u8 0 → firstFail (cmdModeSet b).fields c = some (invalid 0))
  ∧ (∀ b (c : Ctx), c.d.transition = true → firstFail (cmdModeSet b).state c = some (plain .busy))
  ∧ (∀ b (c : Ctx), c.d.transition = false → c.d.serviceBars = false → pathOk c.m (c.u8 0) = false →
      firstFail (cmdModeSet b).state c = some (plain .wrongMode))

/-- R351, last part: a command that a check refuses answers that status and changes nothing but what serving counts: its mailbox, the
served count and its session's time. A frame that cannot be served yet changes nothing. -/
def Obligations.RefusedCommands : Prop :=
  (∀ (k : Cmd) f m p d st b, Ctx.servable { m := m, p := p, d := d, f := f } k.op = true →
      k.verdict { m := m, p := p, d := d.served f, f := f } = some (st, b) →
      let e := k.serve f m p d
      e = { d with mgmt := e.mgmt, sec := { d.sec with sessions := e.sec.sessions } }
      ∧ (e.mbx f.mbx).resp = some { opcode := k.op, tag := f.tag, status := st, sid := f.sid, payload := b }
      ∧ (∀ n, n ≠ f.mbx → e.mbx n = d.mbx n)
      ∧ e.sec.sessions.map (fun x => (x.id, x.slot, x.role, x.mbx)) = d.sec.sessions.map (fun x => (x.id, x.slot, x.role, x.mbx)))
  ∧ (∀ (k : Cmd) f m p d, Ctx.servable { m := m, p := p, d := d, f := f } k.op = false → k.serve f m p d = d)

/-- R352: without a session the admin and out-of-band mailboxes accept IDENTIFY, EVENT_READ, RESULT_GET and the three group 0x1 commands open
to unauthenticated callers; every other command answers ACCESS_DENIED. -/
def Obligations.AnonymousCallers : Prop :=
  (∀ k ∈ commandTable, k.src.open_ = true ↔ k.op ∈ [0x0000, 0x0001, 0x0002, 0x1000, 0x1001, 0x1002])
  ∧ (∀ k ∈ commandTable, ∀ c : Ctx, c.f.mbx = .admin ∨ c.f.mbx = .oob → c.f.sid = 0 → headerCheck k.len c = none →
      k.op ∉ [0x0000, 0x0001, 0x0002, 0x1000, 0x1001, 0x1002] → k.verdict c = some (plain .accessDenied))
  ∧ (∀ k ∈ commandTable, ∀ c : Ctx, c.f.mbx = .admin ∨ c.f.mbx = .oob → c.f.sid = 0 →
      k.op ∈ [0x0000, 0x0001, 0x0002, 0x1000, 0x1001, 0x1002] → k.src.ok k.op c = true)

/-- R376, R380: a role holds every right of the roles below it in number, and a session that is closed, another mailbox's or 15 minutes
without a command answers ACCESS_DENIED to every command. -/
def Obligations.SessionsAndRoles : Prop :=
  (∀ (x : Src) op (c e : Ctx) n k, c.f.mbx = e.f.mbx → c.who = .role n false → e.who = .role k false → n ≤ k → x.ok op c = true →
      x.ok op e = true)
  ∧ (∀ (k : Cmd) (c : Ctx), c.f.mbx = .admin ∨ c.f.mbx = .oob → c.f.sid ≠ 0 → headerCheck k.len c = none →
      (∀ x, c.d.session c.f.sid = some x → x.mbx ≠ c.f.mbx ∨ 900 * s6 ≤ c.d.since x.last6) → k.verdict c = some (plain .accessDenied))
  ∧ (∀ (k : Cmd) (c : Ctx) x, c.f.mbx = .admin ∨ c.f.mbx = .oob → c.f.sid ≠ 0 → c.d.session c.f.sid = some x → x.factory = true →
      k.op ∉ [0x1000, 0x1003, 0x1004] → headerCheck k.len c = none → k.verdict c = some (plain .accessDenied))

/-- R348, R350, Table MBX-8: the header of a response segment, field by field, and its payload; the segments of a response hold its payload
in order. -/
def Obligations.ResponseSegments : Prop :=
  (∀ r : Resp, r.opcode < 2 ^ 16 → r.tag < 2 ^ 16 → r.sid < 2 ^ 32 → r.seg < 256 → r.payload.length < 2 ^ 32 →
    leN r.frame 0 2 = r.opcode ∧ byteAt r.frame 2 = 1 + 2 * b2n r.more ∧ byteAt r.frame 3 = r.seg ∧ leN r.frame 4 2 = r.tag
    ∧ leN r.frame 6 2 = r.status.code ∧ leN r.frame 8 4 = r.payload.length ∧ leN r.frame 12 4 = r.sid
    ∧ r.frame.drop 16 = (r.payload.drop (4080 * r.seg)).take 4080)
  ∧ (∀ r : Resp, r.dropped = false → (r.more = true ↔ 4080 * (r.seg + 1) < r.payload.length))
  ∧ (∀ (r : Resp) n, r.payload.length ≤ 4080 * n →
      ((List.range n).flatMap fun k => ({ r with seg := k } : Resp).frame.drop 16) = r.payload)

/-- R355: whatever records are posted to a queue, at most 240 of its records are of another code than COMMAND_DONE, and every COMMAND_DONE
is kept in its order; a record that finds the 240 places full is not queued and sets lost. -/
def Obligations.EventQueue : Prop :=
  (∀ (l : List EvRec) (b : Mailbox), (b.evq.filter fun x => decide (x.code ≠ 0x500)).length ≤ 240 →
    let e := l.foldl (fun b r => b.enqueue r) b
    (e.evq.filter fun x => decide (x.code ≠ 0x500)).length ≤ 240
    ∧ (e.evq.filter fun x => decide (x.code = 0x500)) = (b.evq.filter fun x => decide (x.code = 0x500)) ++ l.filter (fun x => decide (x.code = 0x500)))
  ∧ (∀ (r : EvRec) (b : Mailbox), r.code ≠ 0x500 → (b.evq.filter fun x => decide (x.code ≠ 0x500)).length = 240 →
      b.enqueue r = { b with lost := true })
  ∧ (∀ (r : EvRec) (b : Mailbox), (b.evq.filter fun x => decide (x.code ≠ 0x500)).length < 240 →
      b.enqueue r = { b with evq := b.evq ++ [r] })

/-- R456, R359, R223, R98: time adds up however it is divided; the timebase slews by at most 1 ns per µs; comparison modulo 2^40; the first
commit epoch at least 2,000 ns away is a multiple of 1,024 ns and less than 3,024 ns away. -/
def Obligations.Timebase : Prop :=
  (∀ (c : Clk) a b, c.slewT < 125 → let x := (c.elapse a).elapse b
    let y := c.elapse (a + b)
    x.t6 = y.t6 ∧ x.tb48 = y.tb48 ∧ x.cyc = y.cyc ∧ x.rem6 = y.rem6 ∧ x.slew = y.slew)
  ∧ (∀ (c : Clk) a, c.slewT < 125 → ∃ k : Int, (c.elapse a).slew = c.slew - k ∧ k.natAbs ≤ c.slew.natAbs
      ∧ k.natAbs ≤ (c.slewT + a) / 125 ∧ ((c.elapse a).tb48 : Int) = ((c.tb48 : Int) + 8 * (a : Int) + k) % (2 ^ 40 * 48) ∧ (c.elapse a).slewT < 125)
  ∧ (∀ a b, a < 2 ^ 40 → b < 2 ^ 39 → 0 < b → tGe ((a + b) % 2 ^ 40) a = true ∧ tGe a ((a + b) % 2 ^ 40) = false)
  ∧ (∀ t, t < 2 ^ 40 → epochAfter t % 1024 = 0 ∧ epochAfter t < 2 ^ 40
      ∧ 2000 ≤ (epochAfter t + 2 ^ 40 - t) % 2 ^ 40 ∧ (epochAfter t + 2 ^ 40 - t) % 2 ^ 40 < 3024)

/-- R389: the fields of a fault message are the bits that Table FAULT-1 gives, the word holds all of them and nothing else, and in a payload
it is 16 bytes, lowest first. -/
def Obligations.FaultWord : Prop :=
  (∀ m : FaultMsg, m.seq < 64 → m.time < 2 ^ 40 → m.detail < 2 ^ 52 → m.reach < 64 → m.cls < 4 → m.kind < 1024 → m.inst < 256 →
    m.block < 16 →
    faultOfWord (faultWord m) = m ∧ faultWord m < 2 ^ 128
    ∧ bits (faultWord m) 127 124 = m.block ∧ bits (faultWord m) 123 116 = m.inst ∧ bits (faultWord m) 115 106 = m.kind
    ∧ bits (faultWord m) 105 104 = m.cls ∧ bits (faultWord m) 103 98 = m.reach ∧ bits (faultWord m) 97 46 = m.detail
    ∧ bits (faultWord m) 45 6 = m.time ∧ bits (faultWord m) 5 0 = m.seq)
  ∧ (∀ w, w < 2 ^ 128 → faultWord (faultOfWord w) = w)
  ∧ (∀ h : Hist, leN h.bytes 0 16 = faultWord h.msg ∧ h.bytes.length = 32)

/-- R389, R393: a source numbers its messages modulo 64, holds at most four unsent, and loses a fifth while its number advances; no other
source changes. -/
def Obligations.FaultSources : Prop :=
  ∀ (d : Dev) block inst kind cls reach detail, let e := d.sendFault block inst kind cls reach detail
    e.flt.seqTx.getD (block, inst) 0 = (d.flt.seqTx.getD (block, inst) 0 + 1) % 64
    ∧ (∀ k, k ≠ (block, inst) → e.flt.seqTx.getD k 0 = d.flt.seqTx.getD k 0)
    ∧ ((∀ b i, unsent d b i ≤ 4) → ∀ b i, unsent e b i ≤ 4)
    ∧ (4 ≤ unsent d block inst → e.flt.transit = d.flt.transit)
    ∧ (unsent d block inst < 4 → e.flt.transit = d.flt.transit ++ [{
        block := block, inst := inst, kind := kind, cls := cls, reach := reach, detail := detail % 2 ^ 52, time := d.now
        seq := d.flt.seqTx.getD (block, inst) 0 }])
    ∧ (e.flt.line = if cls = 2 ∧ d.flt.line = none then some d.clk.t6 else d.flt.line)

/-- R391, R395, R399, R403: what taking a message leaves: the ring of the last 64 with the message last, its class bits, the sequence that
the next message of its source must have, no redundancy bit of a malformed message, and the stop of admission by a fatal one. -/
def Obligations.FaultTaken : Prop :=
  ∀ mode (m : FaultMsg) inj (d : Dev), let e := d.takeFault mode m inj
    e.flt.next = (d.flt.next + 1) % 2 ^ 32
    ∧ (d.flt.hist.length ≤ 64 → e.flt.hist.length ≤ 64 ∧ ∃ h, e.flt.hist.getLast? = some h ∧ h.msg = m ∧ h.index = d.flt.next)
    ∧ (d.flt.hist.length = 64 → e.flt.status.testBit 5 = true)
    ∧ e.flt.status.testBit (recordedClass m) = true
    ∧ (m.reach < d.nReach → (e.flt.rstat.getD m.reach 0).testBit (recordedClass m) = true)
    ∧ (inj = false → e.flt.seqRx.getD (m.block, m.inst) 0 = (m.seq + 1) % 64)
    ∧ (malformed d.nReach m = true → ∀ k, 32 ≤ k → e.flt.status.testBit k = d.flt.status.testBit k)
    ∧ (∀ b, malformed d.nReach m = false → inj = false → redundancyBit m = some b → e.flt.status.testBit b = true)
    ∧ (2 ≤ m.cls → e.flt.fatal = true ∧ e.weir.stopped = true)

/-- R397: a 1 in the mask clears a message bit always and a redundancy bit only when its cause is gone; a cleared class releases its
snapshot; the response shows what stands. -/
def Obligations.FaultClear : Prop :=
  (∀ mode mask (d : Dev) k, k < 44 → (d.clearFault mode 32 mask).flt.status.testBit k =
    (d.flt.status.testBit k && ! (mask.testBit k && ! (decide (32 ≤ k) && d.causes.testBit k))))
  ∧ (∀ mode mask (d : Dev) r k, r < 32 → k < 3 →
      ((d.clearFault mode r mask).faultStatus r).testBit k = ((d.faultStatus r).testBit k && ! mask.testBit k))
  ∧ (∀ mode mask (d : Dev) sc cls, sc ≤ 32 → mask.testBit cls = true → (d.clearFault mode sc mask).flt.snaps.get? (sc, cls) = none)
  ∧ (∀ mode mask (d : Dev) sc cls x, sc ≤ 32 → x ≠ sc ∨ mask.testBit cls = false →
      (d.clearFault mode sc mask).flt.snaps.get? (x, cls) = d.flt.snaps.get? (x, cls))
  ∧ (∀ c : Ctx, let e := c.d.clearFault c.m c.faultScope (c.u64 8)
      cmdFaultStatusClear.body c = (e, .done (nb 8 (e.faultStatus c.faultScope))))

/-- R419: a counter wraps past 2^48 − 1, sets its overflow bit and holds the excess plus, with sample_arm, the reload value; its
configuration stays. -/
def Obligations.CounterWrap : Prop :=
  (∀ (c : Counter) n, c.value + n < 2 ^ 48 → c.add n = { c with value := c.value + n })
  ∧ (∀ (c : Counter) n, c.value < 2 ^ 48 → n ≤ 2 ^ 48 → 2 ^ 48 ≤ c.value + n → c.cfg.testBit 49 = false →
      c.add n = { c with value := c.value + n - 2 ^ 48, ovf := true })
  ∧ (∀ (c : Counter) n, c.value < 2 ^ 48 → n ≤ 2 ^ 48 → 2 ^ 48 ≤ c.value + n → c.cfg.testBit 49 = true →
      c.value + n - 2 ^ 48 + c.reload < 2 ^ 48 → c.add n = { c with value := c.value + n - 2 ^ 48 + c.reload, ovf := true })

/-- R76: an address with one of its bits [63:52] set matches no rule and no gate window, and is handled as matching no rule. -/
def Obligations.HighAddresses : Prop :=
  ∀ (d : Dev) stg secure r acc priv addr, 2 ^ 52 ≤ addr →
    d.ruleAt stg r addr = none ∧ (∀ l len, d.gateGrants stg l acc addr len = false)
    ∧ (d.lookup stg secure r acc priv addr).rule = 0xFFFF
    ∧ ((d.nReach > 8 ∨ secure = true ∨ priv = false ∨ eValid (d.defaultMap stg r) = false) →
        (d.lookup stg secure r acc priv addr).outcome = 3)

/-- R78, R81: where the valid rules of a set do not overlap, the rule that covers an address is the one it matches, whatever its index; an
interleaved rule takes the descriptor that address bits [8 + gran + ways − 1 : 8 + gran] number. -/
def Obligations.RuleMatch : Prop :=
  (∀ (d : Dev) stg r addr i e, (∀ x ∈ d.rules stg r, ∀ y ∈ d.rules stg r, eCovers x.2 addr = true → eCovers y.2 addr = true → x = y) →
    (i, e) ∈ d.rules stg r → eCovers e addr = true → d.ruleAt stg r addr = some (i, e))
  ∧ (∀ (d : Dev) stg r addr x, d.ruleAt stg r addr = some x → x ∈ d.rules stg r ∧ eValid x.2 = true ∧ eCovers x.2 addr = true)
  ∧ (∀ e addr, 0 < eWays e → eTarget e addr = eDesc e (bits addr (8 + eGran e + eWays e - 1) (8 + eGran e)))
  ∧ (∀ e addr, eWays e = 0 → eTarget e addr = eDesc e 0)

/-- R49, R51, R526: a message takes exactly its cells, each from a taker of its order, a slot of its horizon and what is free there; the
cells of a reservation all find a phase, and the phases stay level within one cell. -/
def Obligations.CalendarCells : Prop :=
  (∀ (d : Dev) e s0 n takers plan, d.calPick e s0 n takers = some plan →
    (plan.map fun x => x.2.2).sum = n
    ∧ ∀ x ∈ plan, x.2.1 ∈ takers ∧ s0 ≤ x.1 ∧ x.1 < s0 + 4 ∧ 0 < x.2.2 ∧ x.2.2 ≤ d.calFree (d.pattern e) e x.1 x.2.1)
  ∧ (∀ n a b c e, let r := (placeCells n [a, b, c, e] [0, 0, 0, 0])
      r.1.sum = a + b + c + e + n ∧ r.2.sum = n ∧ r.1.length = 4 ∧ r.2.length = 4)
  ∧ (∀ n, ∀ x ∈ (placeCells n [0, 0, 0, 0] [0, 0, 0, 0]).1, n / 4 ≤ x ∧ x ≤ (n + 3) / 4)

/-- R436, R438: no row starts a third ramp of a feed group; a failed attempt turns the channel off and counts, the seventh in a row latches
it. -/
def Obligations.SlotLimits : Prop :=
  (∀ dt g s t, ((groupChans g).filter fun k => ((s.elapse dt).dev.chan k).st == .ramping).length ≤ 2 → exec (.rampStart dt g) s = .next t →
    ((groupChans g).filter fun k => (t.dev.chan k).st == .ramping).length ≤ 2)
  ∧ (∀ (d : Dev) t cause, let e := d.failAttempt t cause
      (e.chan t).tries = (d.chan t).tries + 1 ∧ (e.chan t).pg = false ∧ (e.chan t).feed = none
      ∧ ((e.chan t).st = .latched ↔ 7 ≤ (d.chan t).tries + 1) ∧ ((e.chan t).st = .retry ↔ (d.chan t).tries + 1 < 7)
      ∧ ∀ k, k ≠ t → e.chan k = d.chan k)

/-- R188, R189, R190: a write ends every reservation whose granule it touches and no other; a conditional store succeeds exactly while its
initiator holds a reservation younger than 100,000 ns on the granule, and releases it; one that follows a reserved load at once succeeds. -/
def Obligations.Monitors : Prop :=
  (∀ (d : Dev) i dst off len m, m ∈ (d.monWrite i dst off len).ord.mons ↔ m ∈ d.ord.mons ∧ m.touches dst off len = false)
  ∧ (∀ (d : Dev) i r dst off, (d.monStore i r dst off).1 = true ↔
      ∃ m ∈ d.ord.mons, m.init = i ∧ m.dst = dst ∧ m.gran = off / d.granule r * d.granule r ∧ d.since m.t6 < 600000)
  ∧ (∀ (d : Dev) i r dst off m, m ∈ (d.monStore i r dst off).2.ord.mons ↔
      m ∈ d.ord.mons ∧ ¬ (m.init = i ∧ m.dst = dst ∧ m.gran = off / d.granule r * d.granule r))
  ∧ (∀ (d : Dev) i r dst off, ((d.monSet i r dst off).monStore i r dst off).1 = true)

/-- R357, R358: staging changes only its staged set, increases its generation by 1, and shows the items in the staged view of that set
alone; a discard leaves the active configuration as it is. -/
def Obligations.StagedSets : Prop :=
  (∀ (d : Dev) i items, let e := d.stage i items
    (∀ k, e.cfg k = d.cfg k) ∧ (∀ j, j ≠ i → e.set j = d.set j) ∧ (e.set i).gen = ((d.set i).gen + 1) % 2 ^ 32
    ∧ (∀ k, (∀ x ∈ items, x.1 ≠ k) → e.staged i k = d.staged i k)
    ∧ (∀ k v, items.getLast? = some (k, v) → e.staged i k = v))
  ∧ (∀ (d : Dev) i, let e := d.discard i
      (∀ k, e.cfg k = d.cfg k ∧ e.staged i k = d.cfg k) ∧ (∀ j, j ≠ i → e.set j = d.set j)
      ∧ (e.set i).gen = ((d.set i).gen + 1) % 2 ^ 32)

/-- R4, R23, Table MODE-1 to Table MODE-3: DEV_IDENT and DEV_MODE as every view that exists reads them, field by field. -/
def Obligations.PageRegisters : Prop :=
  (∀ (d : Dev) m p v b, m ≠ .shelf → d.viewMbx v = some b → d.pageRead m p v 0x0000 8 = nb 8 d.ident ∧ d.pageRead m p v 0x0010 4 = nb 4 (devMode m p d))
  ∧ (∀ d : Dev, d.img.major < 256 → d.img.minor < 256 → bits d.ident 63 48 = 0x4F58 ∧ bits d.ident 47 32 = 0x6410 ∧ bits d.ident 31 24 = 0xB0
      ∧ bits d.ident 23 16 = 0 ∧ bits d.ident 15 8 = d.img.major ∧ bits d.ident 7 0 = d.img.minor)
  ∧ (∀ m p (d : Dev), bits (devMode m p d) 3 0 = m.code ∧ bits (devMode m p d) 7 4 = p.code ∧ (devMode m p d).testBit 8 = d.sec.approved
      ∧ (devMode m p d).testBit 9 = d.transition ∧ devMode m p d < 2 ^ 10)
  ∧ ([Mode.shelf, .coldBoot, .safe, .configure, .runDeterministic, .runBalanced, .runThroughput, .runSecure, .runPowerCapped, .degraded,
      .service, .diagnostic].map Mode.code = List.range 12)
  ∧ (∀ p : Profile, p ≠ .none → p.mode.code = p.code)

/-- R21, R28: outside the Run modes, Degraded and Service the Weir takes up no tenant request: in Configure only Control and responses of
admitted work, elsewhere nothing; a drain lets no new tenant request pass. -/
def Obligations.TenantAdmission : Prop :=
  (∀ (d : Dev) m t x, m.tenant = false → d.weirPick m t = some x → m = .configure ∧ (x.cls = 0 ∨ x.rsp.isSome = true))
  ∧ (∀ (d : Dev) m t x, d.draining = true → d.weirPick m t = some x → x.cls = 0 ∨ x.rsp.isSome = true ∨ x.acc = .none ∨ x.queued = true)
  ∧ (∀ dt t s, s.mode.tenant = false → s.mode ≠ .configure → exec (.weirEvaluate dt t) s = .next (s.elapse dt))
  ∧ (∀ dt t s, (s.elapse dt).dev.weir.stopped = true → exec (.weirEvaluate dt t) s = .next (s.elapse dt))
end

