-- ==== Sys2Proof/Laws/Bilod.lean ====
section
/-! SUPPORT. What serving a Bilod frame does, said once: an accepted frame has its command's effect and reply, a refused one only its
failing response, and a frame that cannot be served none. -/

namespace Sys2Proof.Machine

/-- An accepted frame is servable and no check of its command fails. -/
theorem Cmd.accepts_iff (k : Cmd) (f : Frame) (m : Mode) (p : Profile) (d : Dev) :
    k.accepts f m p d = true ↔
      Ctx.servable { m, p, d, f } k.op = true ∧ k.verdict { m, p, d := d.served f, f } = none := by
  simp [Cmd.accepts, Option.isNone_iff_eq_none]

/-- Serving an accepted frame: the command's body acts and its reply is written. -/
theorem Cmd.serve_of_accepts {k : Cmd} {f : Frame} {m : Mode} {p : Profile} {d : Dev} (h : k.accepts f m p d = true) :
    k.serve f m p d =
      (k.body { m, p, d := d.served f, f }).1.reply f k.op (k.body { m, p, d := d.served f, f }).2 := by
  obtain ⟨hs, hv⟩ := (k.accepts_iff f m p d).mp h
  simp [Cmd.serve, hs, hv]

/-- Serving a frame whose command has a failing check: only the failing response is written. -/
theorem Cmd.serve_of_fail {k : Cmd} {f : Frame} {m : Mode} {p : Profile} {d : Dev} {st : Status} {b : Bytes}
    (hs : Ctx.servable { m, p, d, f } k.op = true) (hv : k.verdict { m, p, d := d.served f, f } = some (st, b)) :
    k.serve f m p d = (d.served f).respond f k.op st b := by
  simp [Cmd.serve, hs, hv]

/-- A frame that cannot be served has no effect. -/
theorem Cmd.serve_of_not_servable {k : Cmd} {f : Frame} {m : Mode} {p : Profile} {d : Dev}
    (hs : Ctx.servable { m, p, d, f } k.op = false) : k.serve f m p d = d := by
  simp [Cmd.serve, hs]

/-- A row that is its command's `bilod` serves as its body does. -/
theorem Serves.of_body {row : Nat → Frame → Instr} {k : Cmd} {b : Ctx → Dev × Reply}
    (hr : ∀ dt f s, exec (row dt f) s = bilod k dt f s) (hb : ∀ c, k.body c = b c) : Serves row k b := by
  intro dt f s h
  rw [hr, bilod, State.onDev, Cmd.serve_of_accepts h, hb]; rfl

/-- A row whose command only reads. -/
theorem Reads.of_body {row : Nat → Frame → Instr} {k : Cmd} {g : Ctx → Bytes}
    (hr : ∀ dt f s, exec (row dt f) s = bilod k dt f s) (hb : ∀ c, k.body c = (c.d, .done (g c))) : Reads row k g := by
  intro dt f s h
  rw [hr, bilod, State.onDev, Cmd.serve_of_accepts h, hb]; rfl

/-- A row whose command stages. -/
theorem Stages.of_body {row : Nat → Frame → Instr} {k : Cmd} {set : Ctx → Nat} {items : Ctx → List (CfgKey × Option Bytes)}
    (hr : ∀ dt f s, exec (row dt f) s = bilod k dt f s) (hb : ∀ c, k.body c = (c.d.stage (set c) (items c), .done [])) :
    Stages row k set items := by
  intro dt f s h
  rw [hr, bilod, State.onDev, Cmd.serve_of_accepts h, hb]; rfl

end Sys2Proof.Machine
end

