-- ==== Sys2Proof/Machine/LineCode.lean ====
section
/-! DEFINITION. The line code of an Iggevo direction (R196, R201, R203, R257, R259, R260, R265): the 576 bytes of a flit with their parity,
the lanes that carry them, the scrambler, the levels, the stuffed symbols and the symbols of an alignment marker. They say what stands on
the lanes for a flit or marker; the flits that fill the time between commands are left out (assumption 136). -/

namespace Sys2Proof.Machine

/-! ### Forward error correction (R201) -/

/-- A symbol of GF(2^8) times α = 0x02, modulo x^8 + x^4 + x^3 + x^2 + 1. -/
def gfX (a : Byte) : Byte := if a.msb then (a <<< 1) ^^^ 0x1D else a <<< 1

/-- The product of two symbols. -/
def gfMul (a b : Byte) : Byte :=
  ((List.range 8).foldl (fun (s : Byte × Byte) k => (if b.getLsbD k then s.1 ^^^ s.2 else s.1, gfX s.2)) (0, a)).1

/-- α^n. -/
def gfPow (n : Nat) : Byte := (List.range n).foldl (fun a _ => gfX a) 1

/-- The generator polynomial, lowest coefficient first: the product of x − α^i for i = 0 to 9. -/
def rsGen : Bytes :=
  (List.range 10).foldl (fun (g : Bytes) i => List.zipWith (· ^^^ ·) ((0 : Byte) :: g) (g.map (gfMul (gfPow i)) ++ [0])) [1]

/-- The 10 parity symbols of the data of a codeword, the coefficient of x^9 first: the remainder of the data times x^10. -/
def rsParity (data : Bytes) : Bytes :=
  let g := (rsGen.take 10).reverse
  data.foldl (fun r b => let f := r.headD 0 ^^^ b; List.zipWith (· ^^^ ·) (r.drop 1 ++ [0]) (g.map (gfMul f))) (zeros 10)

/-- A word of the code: it is 0 at every root of the generator. -/
def rsClean (w : Bytes) : Bool := (List.range 10).all fun i => w.foldl (fun s b => gfMul s (gfPow i) ^^^ b) 0 == 0

/-- Codeword `k` of a flit: bytes k + 4j. -/
def codeword (b : Bytes) (k : Nat) : Bytes := (List.range (b.length / 4)).map fun j => b.getD (k + 4 * j) 0

/-- The 576 bytes of a flit (Table LINK-2): header and slots, the CRC with its most significant byte first, and the parity. -/
def flitBytes (f : Flit) : Bytes :=
  let b := flitBody f ++ (nb 8 f.crc.toNat).reverse
  let par := (List.range 4).map fun k => rsParity (codeword b k)
  b ++ (List.range 10).flatMap fun i => par.map fun p => p.getD i 0

/-- What the partner receives of a flit that leaves, over lanes without errors. -/
def SentFlit.flit (x : SentFlit) : Flit :=
  let f : Flit := { hdr := x.hdr, slots := x.slots, crc := 0, errs := [0, 0, 0, 0] }
  { f with crc := crc64 (flitBody f) }

/-! ### Lanes (R203) -/

/-- The bytes of a flit that each active logical lane of a mask carries: column g goes to the lane at position g mod w. -/
def stripe (mask : Nat) (b : Bytes) : List (Nat × Bytes) :=
  let ls := maskLanes mask
  ls.mapIdx fun p n => (n, ((List.range (b.length / 4)).filter fun g => g % ls.length == p).flatMap fun g => slice b (4 * g) 4)

/-! ### Scrambler (R259) -/

/-- The seed of a logical lane (Table LANE-4). -/
def seed (n : Nat) : BitVec 31 :=
  [0x2A5A5A5A#31, 0x2B7D9FC1#31, 0x2CA0E528#31, 0x2DC42A8F#31, 0x2EE76FF6#31, 0x300AB55D#31, 0x312DFAC4#31, 0x3251402B#31].getD n 0

/-- One step: the state after it, and the bit that it adds. -/
def scrambleStep (s : BitVec 31) : BitVec 31 × Bool :=
  let k := s.getLsbD 30 ^^ s.getLsbD 27
  ((s <<< 1) ||| (BitVec.ofBool k).setWidth 31, k)

/-- A byte through the scrambler, most significant bit first. -/
def scrambleByte (s : BitVec 31) (b : Byte) : BitVec 31 × Byte :=
  (List.range 8).foldl (fun (x : BitVec 31 × Byte) i =>
    let (s, k) := scrambleStep x.1
    (s, (x.2 <<< 1) ||| (BitVec.ofBool (k ^^ b.getLsbD (7 - i))).setWidth 8)) (s, 0)

/-- The bytes of a lane through its scrambler. -/
def scramble (s : BitVec 31) : Bytes → BitVec 31 × Bytes
  | [] => (s, [])
  | b :: bs =>
    let (s, x) := scrambleByte s b
    let (s, xs) := scramble s bs
    (s, x :: xs)

/-! ### Levels (R257) -/

/-- The level of two consecutive bits (Table LANE-2). -/
def pamLevel (first second : Bool) : Nat :=
  match first, second with
  | false, false => 0
  | false, true => 1
  | true, true => 2
  | true, false => 3

/-- The four symbols of a byte, most significant bit first. -/
def byteSymbols (b : Byte) : List Nat := (List.range 4).map fun i => pamLevel (b.getLsbD (7 - 2 * i)) (b.getLsbD (6 - 2 * i))

/-! ### Stuffed symbols (R260) -/

/-- A lane as both ends count it: its level and the symbols sent since that last changed. -/
structure LaneRun where
  level : Nat := 0
  count : Nat := 0
deriving DecidableEq, Repr

/-- The counts after one symbol on every active lane. -/
def LaneRun.next (r : LaneRun) (x : Nat) : LaneRun := { level := x, count := if r.level = x then r.count + 1 else 1 }

/-- The counts of every active lane after one symbol on each. -/
def runsNext (rs : List LaneRun) (col : List Nat) : List LaneRun := List.zipWith LaneRun.next rs col

/-- A stuffed symbol is due: a lane has reached 32 symbols of one level. -/
def stuffDue (rs : List LaneRun) : Bool := rs.any fun r => decide (r.count ≥ 32)

/-- The stuffed symbol of a lane: level 3 after level 0 or 1, and level 0 otherwise. -/
def LaneRun.stuffed (r : LaneRun) : Nat := if r.level ≤ 1 then 3 else 0

/-- Stuffing resets every lane's count. -/
def runsReset (rs : List LaneRun) : List LaneRun := rs.map fun r => { r with count := 0 }

/-- The symbols of every active lane, column by column, with the stuffed ones. -/
def stuff : List LaneRun → List (List Nat) → List LaneRun × List (List Nat)
  | rs, [] => (rs, [])
  | rs, c :: cs =>
    let rs := runsNext rs c
    if stuffDue rs then
      let (r, out) := stuff (runsReset rs) cs
      (r, c :: rs.map LaneRun.stuffed :: out)
    else
      let (r, out) := stuff rs cs
      (r, c :: out)

/-- What a receiver makes of the columns: the symbols without the stuffed ones, and for each stuffed column the positions of the lanes
whose level is wrong. `due` holds while the next column is one to remove. -/
def unstuff : Bool → List LaneRun → List (List Nat) → List (List Nat) × List Nat
  | _, _, [] => ([], [])
  | true, rs, c :: cs =>
    let bad := (List.range rs.length).filter fun i => c.getD i 0 != (rs.getD i {}).stuffed
    let (out, errs) := unstuff false (runsReset rs) cs
    (out, bad ++ errs)
  | false, rs, c :: cs =>
    let rs := runsNext rs c
    let (out, errs) := unstuff (stuffDue rs) rs cs
    (c :: out, errs)

/-! ### A flit and a marker on the lanes -/

/-- The line of a direction between two flits: the scrambler of each active logical lane and the counts of R260. -/
structure LineState where
  scr  : List (BitVec 31)
  runs : List LaneRun
deriving DecidableEq, Repr

/-- The line at the first flit after a LOCK countdown, and at the first flit over a new mask (R259): every scrambler at its seed. -/
def LineState.loaded (mask : Nat) : LineState := { scr := (maskLanes mask).map seed, runs := (maskLanes mask).map fun _ => {} }

/-- The columns of levels that the bytes of a flit put on the active lanes of a mask, in ascending lane order. -/
def LineState.send (x : LineState) (mask : Nat) (b : Bytes) : LineState × List (List Nat) :=
  let lanes := List.zipWith (fun s e => scramble s e.2) x.scr (stripe mask b)
  let syms := lanes.map fun y => y.2.flatMap byteSymbols
  let cols := (List.range ((syms.headD []).length)).map fun i => syms.map fun l => l.getD i 0
  let (runs, out) := stuff x.runs cols
  ({ scr := lanes.map (·.1), runs }, out)

/-- The marker that a link sends in LOCK on a logical lane, or on a standby spare (lane 9), at a value of the countdown (Table LANE-6). -/
def Ig.marker (g : Ig) (lane countdown : Nat) : AMark :=
  { lane, countdown, flags := b2n g.locked + 2 * b2n g.clkOn9 + 4 * b2n g.subReady, rxMask := g.rxMask, sub := g.sub }

/-- The 64 symbols of an alignment marker (Table LANE-6): the sync levels, six bytes, and the complement of their symbols. -/
def amSymbols (a : AMark) : List Nat :=
  let body := [a.lane, a.flags, a.countdown, a.rxMask, a.sub, a.rsvd].flatMap fun v => byteSymbols (BitVec.ofNat 8 v)
  ((List.range 8).flatMap fun _ => [3, 0]) ++ body ++ body.map (3 - ·)

end Sys2Proof.Machine
end

