-- ==== Sys2Proof/Laws/Line.lean ====
section
/-! SUPPORT. The two ends of a line count alike (R260): a receiver removes exactly the symbols that the transmitter stuffed. -/

namespace Sys2Proof.Machine

/-- A column of stuffed symbols shows no wrong level. -/
theorem LaneRun.stuffed_seen (rs : List LaneRun) :
    (List.range rs.length).filter (fun i => (rs.map LaneRun.stuffed).getD i 0 != (rs.getD i {}).stuffed) = [] := by
  simp only [List.filter_eq_nil_iff, List.mem_range]
  intro i h
  simp [h]

/-- Over lanes without errors the receiver recovers every symbol and counts no STUFF_ERROR. -/
theorem unstuff_stuff (cols : List (List Nat)) (rs : List LaneRun) : unstuff false rs (stuff rs cols).2 = (cols, []) := by
  induction cols generalizing rs with
  | nil => rfl
  | cons c cs ih =>
    simp only [stuff]
    split
    · rename_i h
      simp only [unstuff, h, ih, LaneRun.stuffed_seen, List.nil_append]
    · rename_i h
      simp only [unstuff, Bool.eq_false_iff.mpr h, ih]

end Sys2Proof.Machine
end

