-- ==== Sys2Proof/Laws/Memory.lean ====
section
/-! SUPPORT. The Basin memory: what each of its operations makes of a byte, and that each keeps the canonical form. -/

namespace Sys2Proof.Machine

/-- A list in canonical form: offsets strictly rising, no byte 0. -/
def Canonical (l : List Host.Cell) : Prop := l.Pairwise (fun a b => a.1 < b.1) ∧ ∀ c ∈ l, c.2 ≠ 0

theorem memPut_mem (l : List Host.Cell) (a : Nat) (b : Byte) (c : Host.Cell) (h : c ∈ memPut l a b) : c ∈ l ∨ (c = (a, b) ∧ b ≠ 0) := by
  induction l with
  | nil =>
    simp only [memPut] at h
    split at h <;> simp_all
  | cons x t ih =>
    obtain ⟨y, v⟩ := x
    simp only [memPut] at h
    split at h
    · split at h <;> grind
    · split at h
      · split at h <;> grind
      · simp only [List.mem_cons] at h ⊢
        rcases h with h | h
        · exact .inl (.inl h)
        · rcases ih h with h | h
          · exact .inl (.inr h)
          · exact .inr h

/-- Writing one byte keeps the canonical form. -/
theorem memPut_canonical (l : List Host.Cell) (a : Nat) (b : Byte) (h : Canonical l) : Canonical (memPut l a b) := by
  obtain ⟨hp, hz⟩ := h
  refine ⟨?_, fun c hc => ?_⟩
  · induction l with
    | nil => simp only [memPut]; split <;> simp
    | cons x t ih =>
      obtain ⟨y, v⟩ := x
      have ht := List.pairwise_cons.mp hp
      simp only [memPut]
      split
      · split
        · exact hp
        · rename_i h1 _
          exact List.pairwise_cons.mpr ⟨fun c hc => by
            rcases List.mem_cons.mp hc with rfl | hc
            · exact h1
            · exact Nat.lt_trans h1 (ht.1 c hc), hp⟩
      · split
        · split
          · exact ht.2
          · rename_i h2 _
            exact List.pairwise_cons.mpr ⟨fun c hc => h2 ▸ ht.1 c hc, ht.2⟩
        · rename_i h1 h2
          refine List.pairwise_cons.mpr ⟨fun c hc => ?_, ih ht.2 fun c hc => hz c (List.mem_cons_of_mem _ hc)⟩
          rcases memPut_mem t a b c hc with hc | ⟨rfl, -⟩
          · exact ht.1 c hc
          · show y < a; omega
  · rcases memPut_mem l a b c hc with hc | ⟨rfl, hb⟩
    · exact hz c hc
    · exact hb

/-- Another byte than the one written stays. -/
theorem memGet_memPut_ne (l : List Host.Cell) (a x : Nat) (b : Byte) (h : x ≠ a) : memGet (memPut l a b) x = memGet l x := by
  induction l with
  | nil => simp only [memPut]; split <;> simp [memGet, h.symm]
  | cons y t ih =>
    obtain ⟨y, v⟩ := y
    simp only [memPut]
    split
    · split <;> simp [memGet, h.symm]
    · split
      · rename_i h2
        subst h2
        split <;> simp [memGet, h.symm]
      · simp [memGet, ih]

/-- Below the first offset a canonical list holds nothing. -/
theorem memGet_below (l : List Host.Cell) (a : Nat) (h : ∀ c ∈ l, a < c.1) : memGet l a = 0 := by
  induction l with
  | nil => rfl
  | cons y t ih =>
    obtain ⟨y, v⟩ := y
    have : y ≠ a := by have := h (y, v) (by simp); simp at this; omega
    simp [memGet, this, ih fun c hc => h c (List.mem_cons_of_mem _ hc)]

/-- The byte written reads back. -/
theorem memGet_memPut (l : List Host.Cell) (a : Nat) (b : Byte) (h : Canonical l) : memGet (memPut l a b) a = b := by
  obtain ⟨hp, hz⟩ := h
  induction l with
  | nil => simp only [memPut]; split <;> simp_all [memGet]
  | cons y t ih =>
    obtain ⟨y, v⟩ := y
    have ht := List.pairwise_cons.mp hp
    simp only [memPut]
    split
    · rename_i h1
      split
      · rename_i hb
        rw [hb]
        exact memGet_below _ _ fun c hc => by
          rcases List.mem_cons.mp hc with rfl | hc
          · exact h1
          · exact Nat.lt_trans h1 (ht.1 c hc)
      · simp [memGet]
    · split
      · rename_i h2
        subst h2
        split
        · rename_i hb
          rw [hb]
          exact memGet_below _ _ ht.1
        · simp [memGet]
      · rename_i h2
        simp [memGet, Ne.symm h2, ih ht.2 fun c hc => hz c (List.mem_cons_of_mem _ hc)]

/-- Writing bytes at their offsets keeps the canonical form. -/
theorem Mem.putAll_wf (m : Mem) (l : List Host.Cell) (h : m.wf) : (m.putAll l).wf := by
  show Canonical _
  simp only [Mem.putAll]
  have h : Canonical m.cells := h
  revert h
  generalize m.cells = c
  induction l generalizing c with
  | nil => exact id
  | cons x t ih => exact fun h => ih _ (memPut_canonical _ _ _ h)

/-- A byte at no offset written stays. -/
theorem Mem.putAll_byte_ne (m : Mem) (l : List Host.Cell) (a : Nat) (h : ∀ c ∈ l, c.1 ≠ a) : (m.putAll l).byte a = m.byte a := by
  simp only [Mem.putAll, Mem.byte]
  generalize m.cells = c
  induction l generalizing c with
  | nil => rfl
  | cons x t ih =>
    rw [List.foldl_cons, ih (fun c hc => h c (List.mem_cons_of_mem _ hc)), memGet_memPut_ne _ _ _ _ fun e => h x (by simp) e.symm]

/-- Clearing a range keeps the canonical form. -/
theorem Mem.clear_wf (m : Mem) (off n : Nat) (h : m.wf) : (m.clear off n).wf :=
  ⟨h.1.sublist List.filter_sublist, fun c hc => h.2 c (List.mem_filter.mp hc |>.1)⟩

/-- What a cleared range and every byte outside it read. -/
theorem Mem.clear_byte (m : Mem) (off n a : Nat) : (m.clear off n).byte a = if off ≤ a ∧ a < off + n then 0 else m.byte a := by
  simp only [Mem.clear, Mem.byte]
  generalize m.cells = c
  induction c with
  | nil => simp [memGet]
  | cons y t ih =>
    obtain ⟨y, v⟩ := y
    rw [List.filter_cons]
    by_cases h1 : y = a
    · subst h1
      by_cases h2 : off ≤ y ∧ y < off + n
      · rw [if_neg (by simp; omega), ih, if_pos h2, if_pos h2]
      · rw [if_pos (by simp; omega), if_neg h2]
        simp [memGet]
    · split <;> simp [memGet, h1, ih]

@[simp] theorem Mem.mark_cells (m : Mem) (l : Nat) : (m.mark l).cells = m.cells := rfl
@[simp] theorem Mem.unpoison_cells (m : Mem) (off n : Nat) : (m.unpoison off n).cells = m.cells := rfl

/-- Poison marks do not touch the bytes. -/
theorem Mem.mark_wf (m : Mem) (l : Nat) (h : m.wf) : (m.mark l).wf := h
/-- Removing poison marks does not touch the bytes. -/
theorem Mem.unpoison_wf (m : Mem) (off n : Nat) (h : m.wf) : (m.unpoison off n).wf := h

/-- Marking any number of lines leaves the bytes. -/
theorem Mem.marks_cells (l : List Nat) (f : Nat → Nat) (m : Mem) : (l.foldl (fun m k => m.mark (f k)) m).cells = m.cells := by
  induction l generalizing m with
  | nil => rfl
  | cons x t ih => rw [List.foldl_cons, ih]; rfl

/-- What a write makes of the bytes. -/
theorem Dev.applyWrite_cells (d : Dev) (m : Mem) (i : Init) (port off len : Nat) (l : List Host.Cell) (p : Bool) :
    (d.applyWrite m i port off len l p).2.cells = (m.putAll l).cells := by
  unfold Dev.applyWrite
  cases p
  · rfl
  · exact Mem.marks_cells _ _ _

end Sys2Proof.Machine
end

