-- ==== Sys2Proof/Laws/State.lean ====
section
/-! SUPPORT. One equation for each field of a state after each update, true by definition, so that no proof unfolds a record update. -/

namespace Sys2Proof.Machine

variable (s : State) (d : Dev)

@[simp] theorem State.onDev_pending (f : Dev → Dev) : (s.onDev f).pending = s.pending := rfl
@[simp] theorem State.onDev_mode (f : Dev → Dev) : (s.onDev f).mode = s.mode := rfl
@[simp] theorem State.onDev_profile (f : Dev → Dev) : (s.onDev f).profile = s.profile := rfl
@[simp] theorem State.onDev_mem (f : Dev → Dev) : (s.onDev f).mem = s.mem := rfl
@[simp] theorem State.onDev_dev (f : Dev → Dev) : (s.onDev f).dev = f s.dev := rfl

@[simp] theorem Dev.onClk_clk (f : Clk → Clk) : (d.onClk f).clk = f d.clk := rfl
@[simp] theorem Dev.onClk_ctl (f : Clk → Clk) : (d.onClk f).ctl = d.ctl := rfl
@[simp] theorem Dev.onClk_mgmt (f : Clk → Clk) : (d.onClk f).mgmt = d.mgmt := rfl
@[simp] theorem Dev.onClk_conf (f : Clk → Clk) : (d.onClk f).conf = d.conf := rfl
@[simp] theorem Dev.onClk_sec (f : Clk → Clk) : (d.onClk f).sec = d.sec := rfl
@[simp] theorem Dev.onClk_flt (f : Clk → Clk) : (d.onClk f).flt = d.flt := rfl
@[simp] theorem Dev.onClk_tele (f : Clk → Clk) : (d.onClk f).tele = d.tele := rfl
@[simp] theorem Dev.onClk_noc (f : Clk → Clk) : (d.onClk f).noc = d.noc := rfl
@[simp] theorem Dev.onClk_pwr (f : Clk → Clk) : (d.onClk f).pwr = d.pwr := rfl
@[simp] theorem Dev.onClk_slots (f : Clk → Clk) : (d.onClk f).slots = d.slots := rfl
@[simp] theorem Dev.onClk_side (f : Clk → Clk) : (d.onClk f).side = d.side := rfl
@[simp] theorem Dev.onClk_img (f : Clk → Clk) : (d.onClk f).img = d.img := rfl
@[simp] theorem Dev.onClk_weir (f : Clk → Clk) : (d.onClk f).weir = d.weir := rfl
@[simp] theorem Dev.onClk_art (f : Clk → Clk) : (d.onClk f).art = d.art := rfl
@[simp] theorem Dev.onClk_fab (f : Clk → Clk) : (d.onClk f).fab = d.fab := rfl
@[simp] theorem Dev.onClk_bas (f : Clk → Clk) : (d.onClk f).bas = d.bas := rfl
@[simp] theorem Dev.onClk_egr (f : Clk → Clk) : (d.onClk f).egr = d.egr := rfl
@[simp] theorem Dev.onClk_ord (f : Clk → Clk) : (d.onClk f).ord = d.ord := rfl
@[simp] theorem Dev.onClk_ig (f : Clk → Clk) : (d.onClk f).ig = d.ig := rfl
@[simp] theorem Dev.onClk_tim (f : Clk → Clk) : (d.onClk f).tim = d.tim := rfl
@[simp] theorem Dev.onClk_brg (f : Clk → Clk) : (d.onClk f).brg = d.brg := rfl
@[simp] theorem Dev.onClk_phy (f : Clk → Clk) : (d.onClk f).phy = d.phy := rfl
@[simp] theorem Dev.onClk_cxl (f : Clk → Clk) : (d.onClk f).cxl = d.cxl := rfl
@[simp] theorem Dev.onClk_reset (f : Clk → Clk) : (d.onClk f).reset = d.reset := rfl
@[simp] theorem Dev.onClk_free (f : Clk → Clk) : (d.onClk f).free = d.free := rfl

@[simp] theorem Dev.onCtl_clk (f : ModeCtl → ModeCtl) : (d.onCtl f).clk = d.clk := rfl
@[simp] theorem Dev.onCtl_ctl (f : ModeCtl → ModeCtl) : (d.onCtl f).ctl = f d.ctl := rfl
@[simp] theorem Dev.onCtl_mgmt (f : ModeCtl → ModeCtl) : (d.onCtl f).mgmt = d.mgmt := rfl
@[simp] theorem Dev.onCtl_conf (f : ModeCtl → ModeCtl) : (d.onCtl f).conf = d.conf := rfl
@[simp] theorem Dev.onCtl_sec (f : ModeCtl → ModeCtl) : (d.onCtl f).sec = d.sec := rfl
@[simp] theorem Dev.onCtl_flt (f : ModeCtl → ModeCtl) : (d.onCtl f).flt = d.flt := rfl
@[simp] theorem Dev.onCtl_tele (f : ModeCtl → ModeCtl) : (d.onCtl f).tele = d.tele := rfl
@[simp] theorem Dev.onCtl_noc (f : ModeCtl → ModeCtl) : (d.onCtl f).noc = d.noc := rfl
@[simp] theorem Dev.onCtl_pwr (f : ModeCtl → ModeCtl) : (d.onCtl f).pwr = d.pwr := rfl
@[simp] theorem Dev.onCtl_slots (f : ModeCtl → ModeCtl) : (d.onCtl f).slots = d.slots := rfl
@[simp] theorem Dev.onCtl_side (f : ModeCtl → ModeCtl) : (d.onCtl f).side = d.side := rfl
@[simp] theorem Dev.onCtl_img (f : ModeCtl → ModeCtl) : (d.onCtl f).img = d.img := rfl
@[simp] theorem Dev.onCtl_weir (f : ModeCtl → ModeCtl) : (d.onCtl f).weir = d.weir := rfl
@[simp] theorem Dev.onCtl_art (f : ModeCtl → ModeCtl) : (d.onCtl f).art = d.art := rfl
@[simp] theorem Dev.onCtl_fab (f : ModeCtl → ModeCtl) : (d.onCtl f).fab = d.fab := rfl
@[simp] theorem Dev.onCtl_bas (f : ModeCtl → ModeCtl) : (d.onCtl f).bas = d.bas := rfl
@[simp] theorem Dev.onCtl_egr (f : ModeCtl → ModeCtl) : (d.onCtl f).egr = d.egr := rfl
@[simp] theorem Dev.onCtl_ord (f : ModeCtl → ModeCtl) : (d.onCtl f).ord = d.ord := rfl
@[simp] theorem Dev.onCtl_ig (f : ModeCtl → ModeCtl) : (d.onCtl f).ig = d.ig := rfl
@[simp] theorem Dev.onCtl_tim (f : ModeCtl → ModeCtl) : (d.onCtl f).tim = d.tim := rfl
@[simp] theorem Dev.onCtl_brg (f : ModeCtl → ModeCtl) : (d.onCtl f).brg = d.brg := rfl
@[simp] theorem Dev.onCtl_phy (f : ModeCtl → ModeCtl) : (d.onCtl f).phy = d.phy := rfl
@[simp] theorem Dev.onCtl_cxl (f : ModeCtl → ModeCtl) : (d.onCtl f).cxl = d.cxl := rfl
@[simp] theorem Dev.onCtl_reset (f : ModeCtl → ModeCtl) : (d.onCtl f).reset = d.reset := rfl
@[simp] theorem Dev.onCtl_free (f : ModeCtl → ModeCtl) : (d.onCtl f).free = d.free := rfl

@[simp] theorem Dev.onMgmt_clk (f : Mgmt → Mgmt) : (d.onMgmt f).clk = d.clk := rfl
@[simp] theorem Dev.onMgmt_ctl (f : Mgmt → Mgmt) : (d.onMgmt f).ctl = d.ctl := rfl
@[simp] theorem Dev.onMgmt_mgmt (f : Mgmt → Mgmt) : (d.onMgmt f).mgmt = f d.mgmt := rfl
@[simp] theorem Dev.onMgmt_conf (f : Mgmt → Mgmt) : (d.onMgmt f).conf = d.conf := rfl
@[simp] theorem Dev.onMgmt_sec (f : Mgmt → Mgmt) : (d.onMgmt f).sec = d.sec := rfl
@[simp] theorem Dev.onMgmt_flt (f : Mgmt → Mgmt) : (d.onMgmt f).flt = d.flt := rfl
@[simp] theorem Dev.onMgmt_tele (f : Mgmt → Mgmt) : (d.onMgmt f).tele = d.tele := rfl
@[simp] theorem Dev.onMgmt_noc (f : Mgmt → Mgmt) : (d.onMgmt f).noc = d.noc := rfl
@[simp] theorem Dev.onMgmt_pwr (f : Mgmt → Mgmt) : (d.onMgmt f).pwr = d.pwr := rfl
@[simp] theorem Dev.onMgmt_slots (f : Mgmt → Mgmt) : (d.onMgmt f).slots = d.slots := rfl
@[simp] theorem Dev.onMgmt_side (f : Mgmt → Mgmt) : (d.onMgmt f).side = d.side := rfl
@[simp] theorem Dev.onMgmt_img (f : Mgmt → Mgmt) : (d.onMgmt f).img = d.img := rfl
@[simp] theorem Dev.onMgmt_weir (f : Mgmt → Mgmt) : (d.onMgmt f).weir = d.weir := rfl
@[simp] theorem Dev.onMgmt_art (f : Mgmt → Mgmt) : (d.onMgmt f).art = d.art := rfl
@[simp] theorem Dev.onMgmt_fab (f : Mgmt → Mgmt) : (d.onMgmt f).fab = d.fab := rfl
@[simp] theorem Dev.onMgmt_bas (f : Mgmt → Mgmt) : (d.onMgmt f).bas = d.bas := rfl
@[simp] theorem Dev.onMgmt_egr (f : Mgmt → Mgmt) : (d.onMgmt f).egr = d.egr := rfl
@[simp] theorem Dev.onMgmt_ord (f : Mgmt → Mgmt) : (d.onMgmt f).ord = d.ord := rfl
@[simp] theorem Dev.onMgmt_ig (f : Mgmt → Mgmt) : (d.onMgmt f).ig = d.ig := rfl
@[simp] theorem Dev.onMgmt_tim (f : Mgmt → Mgmt) : (d.onMgmt f).tim = d.tim := rfl
@[simp] theorem Dev.onMgmt_brg (f : Mgmt → Mgmt) : (d.onMgmt f).brg = d.brg := rfl
@[simp] theorem Dev.onMgmt_phy (f : Mgmt → Mgmt) : (d.onMgmt f).phy = d.phy := rfl
@[simp] theorem Dev.onMgmt_cxl (f : Mgmt → Mgmt) : (d.onMgmt f).cxl = d.cxl := rfl
@[simp] theorem Dev.onMgmt_reset (f : Mgmt → Mgmt) : (d.onMgmt f).reset = d.reset := rfl
@[simp] theorem Dev.onMgmt_free (f : Mgmt → Mgmt) : (d.onMgmt f).free = d.free := rfl

@[simp] theorem Dev.onConf_clk (f : Conf → Conf) : (d.onConf f).clk = d.clk := rfl
@[simp] theorem Dev.onConf_ctl (f : Conf → Conf) : (d.onConf f).ctl = d.ctl := rfl
@[simp] theorem Dev.onConf_mgmt (f : Conf → Conf) : (d.onConf f).mgmt = d.mgmt := rfl
@[simp] theorem Dev.onConf_conf (f : Conf → Conf) : (d.onConf f).conf = f d.conf := rfl
@[simp] theorem Dev.onConf_sec (f : Conf → Conf) : (d.onConf f).sec = d.sec := rfl
@[simp] theorem Dev.onConf_flt (f : Conf → Conf) : (d.onConf f).flt = d.flt := rfl
@[simp] theorem Dev.onConf_tele (f : Conf → Conf) : (d.onConf f).tele = d.tele := rfl
@[simp] theorem Dev.onConf_noc (f : Conf → Conf) : (d.onConf f).noc = d.noc := rfl
@[simp] theorem Dev.onConf_pwr (f : Conf → Conf) : (d.onConf f).pwr = d.pwr := rfl
@[simp] theorem Dev.onConf_slots (f : Conf → Conf) : (d.onConf f).slots = d.slots := rfl
@[simp] theorem Dev.onConf_side (f : Conf → Conf) : (d.onConf f).side = d.side := rfl
@[simp] theorem Dev.onConf_img (f : Conf → Conf) : (d.onConf f).img = d.img := rfl
@[simp] theorem Dev.onConf_weir (f : Conf → Conf) : (d.onConf f).weir = d.weir := rfl
@[simp] theorem Dev.onConf_art (f : Conf → Conf) : (d.onConf f).art = d.art := rfl
@[simp] theorem Dev.onConf_fab (f : Conf → Conf) : (d.onConf f).fab = d.fab := rfl
@[simp] theorem Dev.onConf_bas (f : Conf → Conf) : (d.onConf f).bas = d.bas := rfl
@[simp] theorem Dev.onConf_egr (f : Conf → Conf) : (d.onConf f).egr = d.egr := rfl
@[simp] theorem Dev.onConf_ord (f : Conf → Conf) : (d.onConf f).ord = d.ord := rfl
@[simp] theorem Dev.onConf_ig (f : Conf → Conf) : (d.onConf f).ig = d.ig := rfl
@[simp] theorem Dev.onConf_tim (f : Conf → Conf) : (d.onConf f).tim = d.tim := rfl
@[simp] theorem Dev.onConf_brg (f : Conf → Conf) : (d.onConf f).brg = d.brg := rfl
@[simp] theorem Dev.onConf_phy (f : Conf → Conf) : (d.onConf f).phy = d.phy := rfl
@[simp] theorem Dev.onConf_cxl (f : Conf → Conf) : (d.onConf f).cxl = d.cxl := rfl
@[simp] theorem Dev.onConf_reset (f : Conf → Conf) : (d.onConf f).reset = d.reset := rfl
@[simp] theorem Dev.onConf_free (f : Conf → Conf) : (d.onConf f).free = d.free := rfl

@[simp] theorem Dev.onSec_clk (f : Sec → Sec) : (d.onSec f).clk = d.clk := rfl
@[simp] theorem Dev.onSec_ctl (f : Sec → Sec) : (d.onSec f).ctl = d.ctl := rfl
@[simp] theorem Dev.onSec_mgmt (f : Sec → Sec) : (d.onSec f).mgmt = d.mgmt := rfl
@[simp] theorem Dev.onSec_conf (f : Sec → Sec) : (d.onSec f).conf = d.conf := rfl
@[simp] theorem Dev.onSec_sec (f : Sec → Sec) : (d.onSec f).sec = f d.sec := rfl
@[simp] theorem Dev.onSec_flt (f : Sec → Sec) : (d.onSec f).flt = d.flt := rfl
@[simp] theorem Dev.onSec_tele (f : Sec → Sec) : (d.onSec f).tele = d.tele := rfl
@[simp] theorem Dev.onSec_noc (f : Sec → Sec) : (d.onSec f).noc = d.noc := rfl
@[simp] theorem Dev.onSec_pwr (f : Sec → Sec) : (d.onSec f).pwr = d.pwr := rfl
@[simp] theorem Dev.onSec_slots (f : Sec → Sec) : (d.onSec f).slots = d.slots := rfl
@[simp] theorem Dev.onSec_side (f : Sec → Sec) : (d.onSec f).side = d.side := rfl
@[simp] theorem Dev.onSec_img (f : Sec → Sec) : (d.onSec f).img = d.img := rfl
@[simp] theorem Dev.onSec_weir (f : Sec → Sec) : (d.onSec f).weir = d.weir := rfl
@[simp] theorem Dev.onSec_art (f : Sec → Sec) : (d.onSec f).art = d.art := rfl
@[simp] theorem Dev.onSec_fab (f : Sec → Sec) : (d.onSec f).fab = d.fab := rfl
@[simp] theorem Dev.onSec_bas (f : Sec → Sec) : (d.onSec f).bas = d.bas := rfl
@[simp] theorem Dev.onSec_egr (f : Sec → Sec) : (d.onSec f).egr = d.egr := rfl
@[simp] theorem Dev.onSec_ord (f : Sec → Sec) : (d.onSec f).ord = d.ord := rfl
@[simp] theorem Dev.onSec_ig (f : Sec → Sec) : (d.onSec f).ig = d.ig := rfl
@[simp] theorem Dev.onSec_tim (f : Sec → Sec) : (d.onSec f).tim = d.tim := rfl
@[simp] theorem Dev.onSec_brg (f : Sec → Sec) : (d.onSec f).brg = d.brg := rfl
@[simp] theorem Dev.onSec_phy (f : Sec → Sec) : (d.onSec f).phy = d.phy := rfl
@[simp] theorem Dev.onSec_cxl (f : Sec → Sec) : (d.onSec f).cxl = d.cxl := rfl
@[simp] theorem Dev.onSec_reset (f : Sec → Sec) : (d.onSec f).reset = d.reset := rfl
@[simp] theorem Dev.onSec_free (f : Sec → Sec) : (d.onSec f).free = d.free := rfl

@[simp] theorem Dev.onFlt_clk (f : Flt → Flt) : (d.onFlt f).clk = d.clk := rfl
@[simp] theorem Dev.onFlt_ctl (f : Flt → Flt) : (d.onFlt f).ctl = d.ctl := rfl
@[simp] theorem Dev.onFlt_mgmt (f : Flt → Flt) : (d.onFlt f).mgmt = d.mgmt := rfl
@[simp] theorem Dev.onFlt_conf (f : Flt → Flt) : (d.onFlt f).conf = d.conf := rfl
@[simp] theorem Dev.onFlt_sec (f : Flt → Flt) : (d.onFlt f).sec = d.sec := rfl
@[simp] theorem Dev.onFlt_flt (f : Flt → Flt) : (d.onFlt f).flt = f d.flt := rfl
@[simp] theorem Dev.onFlt_tele (f : Flt → Flt) : (d.onFlt f).tele = d.tele := rfl
@[simp] theorem Dev.onFlt_noc (f : Flt → Flt) : (d.onFlt f).noc = d.noc := rfl
@[simp] theorem Dev.onFlt_pwr (f : Flt → Flt) : (d.onFlt f).pwr = d.pwr := rfl
@[simp] theorem Dev.onFlt_slots (f : Flt → Flt) : (d.onFlt f).slots = d.slots := rfl
@[simp] theorem Dev.onFlt_side (f : Flt → Flt) : (d.onFlt f).side = d.side := rfl
@[simp] theorem Dev.onFlt_img (f : Flt → Flt) : (d.onFlt f).img = d.img := rfl
@[simp] theorem Dev.onFlt_weir (f : Flt → Flt) : (d.onFlt f).weir = d.weir := rfl
@[simp] theorem Dev.onFlt_art (f : Flt → Flt) : (d.onFlt f).art = d.art := rfl
@[simp] theorem Dev.onFlt_fab (f : Flt → Flt) : (d.onFlt f).fab = d.fab := rfl
@[simp] theorem Dev.onFlt_bas (f : Flt → Flt) : (d.onFlt f).bas = d.bas := rfl
@[simp] theorem Dev.onFlt_egr (f : Flt → Flt) : (d.onFlt f).egr = d.egr := rfl
@[simp] theorem Dev.onFlt_ord (f : Flt → Flt) : (d.onFlt f).ord = d.ord := rfl
@[simp] theorem Dev.onFlt_ig (f : Flt → Flt) : (d.onFlt f).ig = d.ig := rfl
@[simp] theorem Dev.onFlt_tim (f : Flt → Flt) : (d.onFlt f).tim = d.tim := rfl
@[simp] theorem Dev.onFlt_brg (f : Flt → Flt) : (d.onFlt f).brg = d.brg := rfl
@[simp] theorem Dev.onFlt_phy (f : Flt → Flt) : (d.onFlt f).phy = d.phy := rfl
@[simp] theorem Dev.onFlt_cxl (f : Flt → Flt) : (d.onFlt f).cxl = d.cxl := rfl
@[simp] theorem Dev.onFlt_reset (f : Flt → Flt) : (d.onFlt f).reset = d.reset := rfl
@[simp] theorem Dev.onFlt_free (f : Flt → Flt) : (d.onFlt f).free = d.free := rfl

@[simp] theorem Dev.onTele_clk (f : Tele → Tele) : (d.onTele f).clk = d.clk := rfl
@[simp] theorem Dev.onTele_ctl (f : Tele → Tele) : (d.onTele f).ctl = d.ctl := rfl
@[simp] theorem Dev.onTele_mgmt (f : Tele → Tele) : (d.onTele f).mgmt = d.mgmt := rfl
@[simp] theorem Dev.onTele_conf (f : Tele → Tele) : (d.onTele f).conf = d.conf := rfl
@[simp] theorem Dev.onTele_sec (f : Tele → Tele) : (d.onTele f).sec = d.sec := rfl
@[simp] theorem Dev.onTele_flt (f : Tele → Tele) : (d.onTele f).flt = d.flt := rfl
@[simp] theorem Dev.onTele_tele (f : Tele → Tele) : (d.onTele f).tele = f d.tele := rfl
@[simp] theorem Dev.onTele_noc (f : Tele → Tele) : (d.onTele f).noc = d.noc := rfl
@[simp] theorem Dev.onTele_pwr (f : Tele → Tele) : (d.onTele f).pwr = d.pwr := rfl
@[simp] theorem Dev.onTele_slots (f : Tele → Tele) : (d.onTele f).slots = d.slots := rfl
@[simp] theorem Dev.onTele_side (f : Tele → Tele) : (d.onTele f).side = d.side := rfl
@[simp] theorem Dev.onTele_img (f : Tele → Tele) : (d.onTele f).img = d.img := rfl
@[simp] theorem Dev.onTele_weir (f : Tele → Tele) : (d.onTele f).weir = d.weir := rfl
@[simp] theorem Dev.onTele_art (f : Tele → Tele) : (d.onTele f).art = d.art := rfl
@[simp] theorem Dev.onTele_fab (f : Tele → Tele) : (d.onTele f).fab = d.fab := rfl
@[simp] theorem Dev.onTele_bas (f : Tele → Tele) : (d.onTele f).bas = d.bas := rfl
@[simp] theorem Dev.onTele_egr (f : Tele → Tele) : (d.onTele f).egr = d.egr := rfl
@[simp] theorem Dev.onTele_ord (f : Tele → Tele) : (d.onTele f).ord = d.ord := rfl
@[simp] theorem Dev.onTele_ig (f : Tele → Tele) : (d.onTele f).ig = d.ig := rfl
@[simp] theorem Dev.onTele_tim (f : Tele → Tele) : (d.onTele f).tim = d.tim := rfl
@[simp] theorem Dev.onTele_brg (f : Tele → Tele) : (d.onTele f).brg = d.brg := rfl
@[simp] theorem Dev.onTele_phy (f : Tele → Tele) : (d.onTele f).phy = d.phy := rfl
@[simp] theorem Dev.onTele_cxl (f : Tele → Tele) : (d.onTele f).cxl = d.cxl := rfl
@[simp] theorem Dev.onTele_reset (f : Tele → Tele) : (d.onTele f).reset = d.reset := rfl
@[simp] theorem Dev.onTele_free (f : Tele → Tele) : (d.onTele f).free = d.free := rfl

@[simp] theorem Dev.onNoc_clk (f : Noc → Noc) : (d.onNoc f).clk = d.clk := rfl
@[simp] theorem Dev.onNoc_ctl (f : Noc → Noc) : (d.onNoc f).ctl = d.ctl := rfl
@[simp] theorem Dev.onNoc_mgmt (f : Noc → Noc) : (d.onNoc f).mgmt = d.mgmt := rfl
@[simp] theorem Dev.onNoc_conf (f : Noc → Noc) : (d.onNoc f).conf = d.conf := rfl
@[simp] theorem Dev.onNoc_sec (f : Noc → Noc) : (d.onNoc f).sec = d.sec := rfl
@[simp] theorem Dev.onNoc_flt (f : Noc → Noc) : (d.onNoc f).flt = d.flt := rfl
@[simp] theorem Dev.onNoc_tele (f : Noc → Noc) : (d.onNoc f).tele = d.tele := rfl
@[simp] theorem Dev.onNoc_noc (f : Noc → Noc) : (d.onNoc f).noc = f d.noc := rfl
@[simp] theorem Dev.onNoc_pwr (f : Noc → Noc) : (d.onNoc f).pwr = d.pwr := rfl
@[simp] theorem Dev.onNoc_slots (f : Noc → Noc) : (d.onNoc f).slots = d.slots := rfl
@[simp] theorem Dev.onNoc_side (f : Noc → Noc) : (d.onNoc f).side = d.side := rfl
@[simp] theorem Dev.onNoc_img (f : Noc → Noc) : (d.onNoc f).img = d.img := rfl
@[simp] theorem Dev.onNoc_weir (f : Noc → Noc) : (d.onNoc f).weir = d.weir := rfl
@[simp] theorem Dev.onNoc_art (f : Noc → Noc) : (d.onNoc f).art = d.art := rfl
@[simp] theorem Dev.onNoc_fab (f : Noc → Noc) : (d.onNoc f).fab = d.fab := rfl
@[simp] theorem Dev.onNoc_bas (f : Noc → Noc) : (d.onNoc f).bas = d.bas := rfl
@[simp] theorem Dev.onNoc_egr (f : Noc → Noc) : (d.onNoc f).egr = d.egr := rfl
@[simp] theorem Dev.onNoc_ord (f : Noc → Noc) : (d.onNoc f).ord = d.ord := rfl
@[simp] theorem Dev.onNoc_ig (f : Noc → Noc) : (d.onNoc f).ig = d.ig := rfl
@[simp] theorem Dev.onNoc_tim (f : Noc → Noc) : (d.onNoc f).tim = d.tim := rfl
@[simp] theorem Dev.onNoc_brg (f : Noc → Noc) : (d.onNoc f).brg = d.brg := rfl
@[simp] theorem Dev.onNoc_phy (f : Noc → Noc) : (d.onNoc f).phy = d.phy := rfl
@[simp] theorem Dev.onNoc_cxl (f : Noc → Noc) : (d.onNoc f).cxl = d.cxl := rfl
@[simp] theorem Dev.onNoc_reset (f : Noc → Noc) : (d.onNoc f).reset = d.reset := rfl
@[simp] theorem Dev.onNoc_free (f : Noc → Noc) : (d.onNoc f).free = d.free := rfl

@[simp] theorem Dev.onPwr_clk (f : Pwr → Pwr) : (d.onPwr f).clk = d.clk := rfl
@[simp] theorem Dev.onPwr_ctl (f : Pwr → Pwr) : (d.onPwr f).ctl = d.ctl := rfl
@[simp] theorem Dev.onPwr_mgmt (f : Pwr → Pwr) : (d.onPwr f).mgmt = d.mgmt := rfl
@[simp] theorem Dev.onPwr_conf (f : Pwr → Pwr) : (d.onPwr f).conf = d.conf := rfl
@[simp] theorem Dev.onPwr_sec (f : Pwr → Pwr) : (d.onPwr f).sec = d.sec := rfl
@[simp] theorem Dev.onPwr_flt (f : Pwr → Pwr) : (d.onPwr f).flt = d.flt := rfl
@[simp] theorem Dev.onPwr_tele (f : Pwr → Pwr) : (d.onPwr f).tele = d.tele := rfl
@[simp] theorem Dev.onPwr_noc (f : Pwr → Pwr) : (d.onPwr f).noc = d.noc := rfl
@[simp] theorem Dev.onPwr_pwr (f : Pwr → Pwr) : (d.onPwr f).pwr = f d.pwr := rfl
@[simp] theorem Dev.onPwr_slots (f : Pwr → Pwr) : (d.onPwr f).slots = d.slots := rfl
@[simp] theorem Dev.onPwr_side (f : Pwr → Pwr) : (d.onPwr f).side = d.side := rfl
@[simp] theorem Dev.onPwr_img (f : Pwr → Pwr) : (d.onPwr f).img = d.img := rfl
@[simp] theorem Dev.onPwr_weir (f : Pwr → Pwr) : (d.onPwr f).weir = d.weir := rfl
@[simp] theorem Dev.onPwr_art (f : Pwr → Pwr) : (d.onPwr f).art = d.art := rfl
@[simp] theorem Dev.onPwr_fab (f : Pwr → Pwr) : (d.onPwr f).fab = d.fab := rfl
@[simp] theorem Dev.onPwr_bas (f : Pwr → Pwr) : (d.onPwr f).bas = d.bas := rfl
@[simp] theorem Dev.onPwr_egr (f : Pwr → Pwr) : (d.onPwr f).egr = d.egr := rfl
@[simp] theorem Dev.onPwr_ord (f : Pwr → Pwr) : (d.onPwr f).ord = d.ord := rfl
@[simp] theorem Dev.onPwr_ig (f : Pwr → Pwr) : (d.onPwr f).ig = d.ig := rfl
@[simp] theorem Dev.onPwr_tim (f : Pwr → Pwr) : (d.onPwr f).tim = d.tim := rfl
@[simp] theorem Dev.onPwr_brg (f : Pwr → Pwr) : (d.onPwr f).brg = d.brg := rfl
@[simp] theorem Dev.onPwr_phy (f : Pwr → Pwr) : (d.onPwr f).phy = d.phy := rfl
@[simp] theorem Dev.onPwr_cxl (f : Pwr → Pwr) : (d.onPwr f).cxl = d.cxl := rfl
@[simp] theorem Dev.onPwr_reset (f : Pwr → Pwr) : (d.onPwr f).reset = d.reset := rfl
@[simp] theorem Dev.onPwr_free (f : Pwr → Pwr) : (d.onPwr f).free = d.free := rfl

@[simp] theorem Dev.onSlots_clk (f : Slots → Slots) : (d.onSlots f).clk = d.clk := rfl
@[simp] theorem Dev.onSlots_ctl (f : Slots → Slots) : (d.onSlots f).ctl = d.ctl := rfl
@[simp] theorem Dev.onSlots_mgmt (f : Slots → Slots) : (d.onSlots f).mgmt = d.mgmt := rfl
@[simp] theorem Dev.onSlots_conf (f : Slots → Slots) : (d.onSlots f).conf = d.conf := rfl
@[simp] theorem Dev.onSlots_sec (f : Slots → Slots) : (d.onSlots f).sec = d.sec := rfl
@[simp] theorem Dev.onSlots_flt (f : Slots → Slots) : (d.onSlots f).flt = d.flt := rfl
@[simp] theorem Dev.onSlots_tele (f : Slots → Slots) : (d.onSlots f).tele = d.tele := rfl
@[simp] theorem Dev.onSlots_noc (f : Slots → Slots) : (d.onSlots f).noc = d.noc := rfl
@[simp] theorem Dev.onSlots_pwr (f : Slots → Slots) : (d.onSlots f).pwr = d.pwr := rfl
@[simp] theorem Dev.onSlots_slots (f : Slots → Slots) : (d.onSlots f).slots = f d.slots := rfl
@[simp] theorem Dev.onSlots_side (f : Slots → Slots) : (d.onSlots f).side = d.side := rfl
@[simp] theorem Dev.onSlots_img (f : Slots → Slots) : (d.onSlots f).img = d.img := rfl
@[simp] theorem Dev.onSlots_weir (f : Slots → Slots) : (d.onSlots f).weir = d.weir := rfl
@[simp] theorem Dev.onSlots_art (f : Slots → Slots) : (d.onSlots f).art = d.art := rfl
@[simp] theorem Dev.onSlots_fab (f : Slots → Slots) : (d.onSlots f).fab = d.fab := rfl
@[simp] theorem Dev.onSlots_bas (f : Slots → Slots) : (d.onSlots f).bas = d.bas := rfl
@[simp] theorem Dev.onSlots_egr (f : Slots → Slots) : (d.onSlots f).egr = d.egr := rfl
@[simp] theorem Dev.onSlots_ord (f : Slots → Slots) : (d.onSlots f).ord = d.ord := rfl
@[simp] theorem Dev.onSlots_ig (f : Slots → Slots) : (d.onSlots f).ig = d.ig := rfl
@[simp] theorem Dev.onSlots_tim (f : Slots → Slots) : (d.onSlots f).tim = d.tim := rfl
@[simp] theorem Dev.onSlots_brg (f : Slots → Slots) : (d.onSlots f).brg = d.brg := rfl
@[simp] theorem Dev.onSlots_phy (f : Slots → Slots) : (d.onSlots f).phy = d.phy := rfl
@[simp] theorem Dev.onSlots_cxl (f : Slots → Slots) : (d.onSlots f).cxl = d.cxl := rfl
@[simp] theorem Dev.onSlots_reset (f : Slots → Slots) : (d.onSlots f).reset = d.reset := rfl
@[simp] theorem Dev.onSlots_free (f : Slots → Slots) : (d.onSlots f).free = d.free := rfl

@[simp] theorem Dev.onSide_clk (f : Side → Side) : (d.onSide f).clk = d.clk := rfl
@[simp] theorem Dev.onSide_ctl (f : Side → Side) : (d.onSide f).ctl = d.ctl := rfl
@[simp] theorem Dev.onSide_mgmt (f : Side → Side) : (d.onSide f).mgmt = d.mgmt := rfl
@[simp] theorem Dev.onSide_conf (f : Side → Side) : (d.onSide f).conf = d.conf := rfl
@[simp] theorem Dev.onSide_sec (f : Side → Side) : (d.onSide f).sec = d.sec := rfl
@[simp] theorem Dev.onSide_flt (f : Side → Side) : (d.onSide f).flt = d.flt := rfl
@[simp] theorem Dev.onSide_tele (f : Side → Side) : (d.onSide f).tele = d.tele := rfl
@[simp] theorem Dev.onSide_noc (f : Side → Side) : (d.onSide f).noc = d.noc := rfl
@[simp] theorem Dev.onSide_pwr (f : Side → Side) : (d.onSide f).pwr = d.pwr := rfl
@[simp] theorem Dev.onSide_slots (f : Side → Side) : (d.onSide f).slots = d.slots := rfl
@[simp] theorem Dev.onSide_side (f : Side → Side) : (d.onSide f).side = f d.side := rfl
@[simp] theorem Dev.onSide_img (f : Side → Side) : (d.onSide f).img = d.img := rfl
@[simp] theorem Dev.onSide_weir (f : Side → Side) : (d.onSide f).weir = d.weir := rfl
@[simp] theorem Dev.onSide_art (f : Side → Side) : (d.onSide f).art = d.art := rfl
@[simp] theorem Dev.onSide_fab (f : Side → Side) : (d.onSide f).fab = d.fab := rfl
@[simp] theorem Dev.onSide_bas (f : Side → Side) : (d.onSide f).bas = d.bas := rfl
@[simp] theorem Dev.onSide_egr (f : Side → Side) : (d.onSide f).egr = d.egr := rfl
@[simp] theorem Dev.onSide_ord (f : Side → Side) : (d.onSide f).ord = d.ord := rfl
@[simp] theorem Dev.onSide_ig (f : Side → Side) : (d.onSide f).ig = d.ig := rfl
@[simp] theorem Dev.onSide_tim (f : Side → Side) : (d.onSide f).tim = d.tim := rfl
@[simp] theorem Dev.onSide_brg (f : Side → Side) : (d.onSide f).brg = d.brg := rfl
@[simp] theorem Dev.onSide_phy (f : Side → Side) : (d.onSide f).phy = d.phy := rfl
@[simp] theorem Dev.onSide_cxl (f : Side → Side) : (d.onSide f).cxl = d.cxl := rfl
@[simp] theorem Dev.onSide_reset (f : Side → Side) : (d.onSide f).reset = d.reset := rfl
@[simp] theorem Dev.onSide_free (f : Side → Side) : (d.onSide f).free = d.free := rfl

@[simp] theorem Dev.onImg_clk (f : Img → Img) : (d.onImg f).clk = d.clk := rfl
@[simp] theorem Dev.onImg_ctl (f : Img → Img) : (d.onImg f).ctl = d.ctl := rfl
@[simp] theorem Dev.onImg_mgmt (f : Img → Img) : (d.onImg f).mgmt = d.mgmt := rfl
@[simp] theorem Dev.onImg_conf (f : Img → Img) : (d.onImg f).conf = d.conf := rfl
@[simp] theorem Dev.onImg_sec (f : Img → Img) : (d.onImg f).sec = d.sec := rfl
@[simp] theorem Dev.onImg_flt (f : Img → Img) : (d.onImg f).flt = d.flt := rfl
@[simp] theorem Dev.onImg_tele (f : Img → Img) : (d.onImg f).tele = d.tele := rfl
@[simp] theorem Dev.onImg_noc (f : Img → Img) : (d.onImg f).noc = d.noc := rfl
@[simp] theorem Dev.onImg_pwr (f : Img → Img) : (d.onImg f).pwr = d.pwr := rfl
@[simp] theorem Dev.onImg_slots (f : Img → Img) : (d.onImg f).slots = d.slots := rfl
@[simp] theorem Dev.onImg_side (f : Img → Img) : (d.onImg f).side = d.side := rfl
@[simp] theorem Dev.onImg_img (f : Img → Img) : (d.onImg f).img = f d.img := rfl
@[simp] theorem Dev.onImg_weir (f : Img → Img) : (d.onImg f).weir = d.weir := rfl
@[simp] theorem Dev.onImg_art (f : Img → Img) : (d.onImg f).art = d.art := rfl
@[simp] theorem Dev.onImg_fab (f : Img → Img) : (d.onImg f).fab = d.fab := rfl
@[simp] theorem Dev.onImg_bas (f : Img → Img) : (d.onImg f).bas = d.bas := rfl
@[simp] theorem Dev.onImg_egr (f : Img → Img) : (d.onImg f).egr = d.egr := rfl
@[simp] theorem Dev.onImg_ord (f : Img → Img) : (d.onImg f).ord = d.ord := rfl
@[simp] theorem Dev.onImg_ig (f : Img → Img) : (d.onImg f).ig = d.ig := rfl
@[simp] theorem Dev.onImg_tim (f : Img → Img) : (d.onImg f).tim = d.tim := rfl
@[simp] theorem Dev.onImg_brg (f : Img → Img) : (d.onImg f).brg = d.brg := rfl
@[simp] theorem Dev.onImg_phy (f : Img → Img) : (d.onImg f).phy = d.phy := rfl
@[simp] theorem Dev.onImg_cxl (f : Img → Img) : (d.onImg f).cxl = d.cxl := rfl
@[simp] theorem Dev.onImg_reset (f : Img → Img) : (d.onImg f).reset = d.reset := rfl
@[simp] theorem Dev.onImg_free (f : Img → Img) : (d.onImg f).free = d.free := rfl

@[simp] theorem Dev.onWeir_clk (f : Weir → Weir) : (d.onWeir f).clk = d.clk := rfl
@[simp] theorem Dev.onWeir_ctl (f : Weir → Weir) : (d.onWeir f).ctl = d.ctl := rfl
@[simp] theorem Dev.onWeir_mgmt (f : Weir → Weir) : (d.onWeir f).mgmt = d.mgmt := rfl
@[simp] theorem Dev.onWeir_conf (f : Weir → Weir) : (d.onWeir f).conf = d.conf := rfl
@[simp] theorem Dev.onWeir_sec (f : Weir → Weir) : (d.onWeir f).sec = d.sec := rfl
@[simp] theorem Dev.onWeir_flt (f : Weir → Weir) : (d.onWeir f).flt = d.flt := rfl
@[simp] theorem Dev.onWeir_tele (f : Weir → Weir) : (d.onWeir f).tele = d.tele := rfl
@[simp] theorem Dev.onWeir_noc (f : Weir → Weir) : (d.onWeir f).noc = d.noc := rfl
@[simp] theorem Dev.onWeir_pwr (f : Weir → Weir) : (d.onWeir f).pwr = d.pwr := rfl
@[simp] theorem Dev.onWeir_slots (f : Weir → Weir) : (d.onWeir f).slots = d.slots := rfl
@[simp] theorem Dev.onWeir_side (f : Weir → Weir) : (d.onWeir f).side = d.side := rfl
@[simp] theorem Dev.onWeir_img (f : Weir → Weir) : (d.onWeir f).img = d.img := rfl
@[simp] theorem Dev.onWeir_weir (f : Weir → Weir) : (d.onWeir f).weir = f d.weir := rfl
@[simp] theorem Dev.onWeir_art (f : Weir → Weir) : (d.onWeir f).art = d.art := rfl
@[simp] theorem Dev.onWeir_fab (f : Weir → Weir) : (d.onWeir f).fab = d.fab := rfl
@[simp] theorem Dev.onWeir_bas (f : Weir → Weir) : (d.onWeir f).bas = d.bas := rfl
@[simp] theorem Dev.onWeir_egr (f : Weir → Weir) : (d.onWeir f).egr = d.egr := rfl
@[simp] theorem Dev.onWeir_ord (f : Weir → Weir) : (d.onWeir f).ord = d.ord := rfl
@[simp] theorem Dev.onWeir_ig (f : Weir → Weir) : (d.onWeir f).ig = d.ig := rfl
@[simp] theorem Dev.onWeir_tim (f : Weir → Weir) : (d.onWeir f).tim = d.tim := rfl
@[simp] theorem Dev.onWeir_brg (f : Weir → Weir) : (d.onWeir f).brg = d.brg := rfl
@[simp] theorem Dev.onWeir_phy (f : Weir → Weir) : (d.onWeir f).phy = d.phy := rfl
@[simp] theorem Dev.onWeir_cxl (f : Weir → Weir) : (d.onWeir f).cxl = d.cxl := rfl
@[simp] theorem Dev.onWeir_reset (f : Weir → Weir) : (d.onWeir f).reset = d.reset := rfl
@[simp] theorem Dev.onWeir_free (f : Weir → Weir) : (d.onWeir f).free = d.free := rfl

@[simp] theorem Dev.onArt_clk (f : Art → Art) : (d.onArt f).clk = d.clk := rfl
@[simp] theorem Dev.onArt_ctl (f : Art → Art) : (d.onArt f).ctl = d.ctl := rfl
@[simp] theorem Dev.onArt_mgmt (f : Art → Art) : (d.onArt f).mgmt = d.mgmt := rfl
@[simp] theorem Dev.onArt_conf (f : Art → Art) : (d.onArt f).conf = d.conf := rfl
@[simp] theorem Dev.onArt_sec (f : Art → Art) : (d.onArt f).sec = d.sec := rfl
@[simp] theorem Dev.onArt_flt (f : Art → Art) : (d.onArt f).flt = d.flt := rfl
@[simp] theorem Dev.onArt_tele (f : Art → Art) : (d.onArt f).tele = d.tele := rfl
@[simp] theorem Dev.onArt_noc (f : Art → Art) : (d.onArt f).noc = d.noc := rfl
@[simp] theorem Dev.onArt_pwr (f : Art → Art) : (d.onArt f).pwr = d.pwr := rfl
@[simp] theorem Dev.onArt_slots (f : Art → Art) : (d.onArt f).slots = d.slots := rfl
@[simp] theorem Dev.onArt_side (f : Art → Art) : (d.onArt f).side = d.side := rfl
@[simp] theorem Dev.onArt_img (f : Art → Art) : (d.onArt f).img = d.img := rfl
@[simp] theorem Dev.onArt_weir (f : Art → Art) : (d.onArt f).weir = d.weir := rfl
@[simp] theorem Dev.onArt_art (f : Art → Art) : (d.onArt f).art = f d.art := rfl
@[simp] theorem Dev.onArt_fab (f : Art → Art) : (d.onArt f).fab = d.fab := rfl
@[simp] theorem Dev.onArt_bas (f : Art → Art) : (d.onArt f).bas = d.bas := rfl
@[simp] theorem Dev.onArt_egr (f : Art → Art) : (d.onArt f).egr = d.egr := rfl
@[simp] theorem Dev.onArt_ord (f : Art → Art) : (d.onArt f).ord = d.ord := rfl
@[simp] theorem Dev.onArt_ig (f : Art → Art) : (d.onArt f).ig = d.ig := rfl
@[simp] theorem Dev.onArt_tim (f : Art → Art) : (d.onArt f).tim = d.tim := rfl
@[simp] theorem Dev.onArt_brg (f : Art → Art) : (d.onArt f).brg = d.brg := rfl
@[simp] theorem Dev.onArt_phy (f : Art → Art) : (d.onArt f).phy = d.phy := rfl
@[simp] theorem Dev.onArt_cxl (f : Art → Art) : (d.onArt f).cxl = d.cxl := rfl
@[simp] theorem Dev.onArt_reset (f : Art → Art) : (d.onArt f).reset = d.reset := rfl
@[simp] theorem Dev.onArt_free (f : Art → Art) : (d.onArt f).free = d.free := rfl

@[simp] theorem Dev.onFab_clk (f : Fab → Fab) : (d.onFab f).clk = d.clk := rfl
@[simp] theorem Dev.onFab_ctl (f : Fab → Fab) : (d.onFab f).ctl = d.ctl := rfl
@[simp] theorem Dev.onFab_mgmt (f : Fab → Fab) : (d.onFab f).mgmt = d.mgmt := rfl
@[simp] theorem Dev.onFab_conf (f : Fab → Fab) : (d.onFab f).conf = d.conf := rfl
@[simp] theorem Dev.onFab_sec (f : Fab → Fab) : (d.onFab f).sec = d.sec := rfl
@[simp] theorem Dev.onFab_flt (f : Fab → Fab) : (d.onFab f).flt = d.flt := rfl
@[simp] theorem Dev.onFab_tele (f : Fab → Fab) : (d.onFab f).tele = d.tele := rfl
@[simp] theorem Dev.onFab_noc (f : Fab → Fab) : (d.onFab f).noc = d.noc := rfl
@[simp] theorem Dev.onFab_pwr (f : Fab → Fab) : (d.onFab f).pwr = d.pwr := rfl
@[simp] theorem Dev.onFab_slots (f : Fab → Fab) : (d.onFab f).slots = d.slots := rfl
@[simp] theorem Dev.onFab_side (f : Fab → Fab) : (d.onFab f).side = d.side := rfl
@[simp] theorem Dev.onFab_img (f : Fab → Fab) : (d.onFab f).img = d.img := rfl
@[simp] theorem Dev.onFab_weir (f : Fab → Fab) : (d.onFab f).weir = d.weir := rfl
@[simp] theorem Dev.onFab_art (f : Fab → Fab) : (d.onFab f).art = d.art := rfl
@[simp] theorem Dev.onFab_fab (f : Fab → Fab) : (d.onFab f).fab = f d.fab := rfl
@[simp] theorem Dev.onFab_bas (f : Fab → Fab) : (d.onFab f).bas = d.bas := rfl
@[simp] theorem Dev.onFab_egr (f : Fab → Fab) : (d.onFab f).egr = d.egr := rfl
@[simp] theorem Dev.onFab_ord (f : Fab → Fab) : (d.onFab f).ord = d.ord := rfl
@[simp] theorem Dev.onFab_ig (f : Fab → Fab) : (d.onFab f).ig = d.ig := rfl
@[simp] theorem Dev.onFab_tim (f : Fab → Fab) : (d.onFab f).tim = d.tim := rfl
@[simp] theorem Dev.onFab_brg (f : Fab → Fab) : (d.onFab f).brg = d.brg := rfl
@[simp] theorem Dev.onFab_phy (f : Fab → Fab) : (d.onFab f).phy = d.phy := rfl
@[simp] theorem Dev.onFab_cxl (f : Fab → Fab) : (d.onFab f).cxl = d.cxl := rfl
@[simp] theorem Dev.onFab_reset (f : Fab → Fab) : (d.onFab f).reset = d.reset := rfl
@[simp] theorem Dev.onFab_free (f : Fab → Fab) : (d.onFab f).free = d.free := rfl

@[simp] theorem Dev.onBas_clk (f : Bas → Bas) : (d.onBas f).clk = d.clk := rfl
@[simp] theorem Dev.onBas_ctl (f : Bas → Bas) : (d.onBas f).ctl = d.ctl := rfl
@[simp] theorem Dev.onBas_mgmt (f : Bas → Bas) : (d.onBas f).mgmt = d.mgmt := rfl
@[simp] theorem Dev.onBas_conf (f : Bas → Bas) : (d.onBas f).conf = d.conf := rfl
@[simp] theorem Dev.onBas_sec (f : Bas → Bas) : (d.onBas f).sec = d.sec := rfl
@[simp] theorem Dev.onBas_flt (f : Bas → Bas) : (d.onBas f).flt = d.flt := rfl
@[simp] theorem Dev.onBas_tele (f : Bas → Bas) : (d.onBas f).tele = d.tele := rfl
@[simp] theorem Dev.onBas_noc (f : Bas → Bas) : (d.onBas f).noc = d.noc := rfl
@[simp] theorem Dev.onBas_pwr (f : Bas → Bas) : (d.onBas f).pwr = d.pwr := rfl
@[simp] theorem Dev.onBas_slots (f : Bas → Bas) : (d.onBas f).slots = d.slots := rfl
@[simp] theorem Dev.onBas_side (f : Bas → Bas) : (d.onBas f).side = d.side := rfl
@[simp] theorem Dev.onBas_img (f : Bas → Bas) : (d.onBas f).img = d.img := rfl
@[simp] theorem Dev.onBas_weir (f : Bas → Bas) : (d.onBas f).weir = d.weir := rfl
@[simp] theorem Dev.onBas_art (f : Bas → Bas) : (d.onBas f).art = d.art := rfl
@[simp] theorem Dev.onBas_fab (f : Bas → Bas) : (d.onBas f).fab = d.fab := rfl
@[simp] theorem Dev.onBas_bas (f : Bas → Bas) : (d.onBas f).bas = f d.bas := rfl
@[simp] theorem Dev.onBas_egr (f : Bas → Bas) : (d.onBas f).egr = d.egr := rfl
@[simp] theorem Dev.onBas_ord (f : Bas → Bas) : (d.onBas f).ord = d.ord := rfl
@[simp] theorem Dev.onBas_ig (f : Bas → Bas) : (d.onBas f).ig = d.ig := rfl
@[simp] theorem Dev.onBas_tim (f : Bas → Bas) : (d.onBas f).tim = d.tim := rfl
@[simp] theorem Dev.onBas_brg (f : Bas → Bas) : (d.onBas f).brg = d.brg := rfl
@[simp] theorem Dev.onBas_phy (f : Bas → Bas) : (d.onBas f).phy = d.phy := rfl
@[simp] theorem Dev.onBas_cxl (f : Bas → Bas) : (d.onBas f).cxl = d.cxl := rfl
@[simp] theorem Dev.onBas_reset (f : Bas → Bas) : (d.onBas f).reset = d.reset := rfl
@[simp] theorem Dev.onBas_free (f : Bas → Bas) : (d.onBas f).free = d.free := rfl

@[simp] theorem Dev.onEgr_clk (f : Egr → Egr) : (d.onEgr f).clk = d.clk := rfl
@[simp] theorem Dev.onEgr_ctl (f : Egr → Egr) : (d.onEgr f).ctl = d.ctl := rfl
@[simp] theorem Dev.onEgr_mgmt (f : Egr → Egr) : (d.onEgr f).mgmt = d.mgmt := rfl
@[simp] theorem Dev.onEgr_conf (f : Egr → Egr) : (d.onEgr f).conf = d.conf := rfl
@[simp] theorem Dev.onEgr_sec (f : Egr → Egr) : (d.onEgr f).sec = d.sec := rfl
@[simp] theorem Dev.onEgr_flt (f : Egr → Egr) : (d.onEgr f).flt = d.flt := rfl
@[simp] theorem Dev.onEgr_tele (f : Egr → Egr) : (d.onEgr f).tele = d.tele := rfl
@[simp] theorem Dev.onEgr_noc (f : Egr → Egr) : (d.onEgr f).noc = d.noc := rfl
@[simp] theorem Dev.onEgr_pwr (f : Egr → Egr) : (d.onEgr f).pwr = d.pwr := rfl
@[simp] theorem Dev.onEgr_slots (f : Egr → Egr) : (d.onEgr f).slots = d.slots := rfl
@[simp] theorem Dev.onEgr_side (f : Egr → Egr) : (d.onEgr f).side = d.side := rfl
@[simp] theorem Dev.onEgr_img (f : Egr → Egr) : (d.onEgr f).img = d.img := rfl
@[simp] theorem Dev.onEgr_weir (f : Egr → Egr) : (d.onEgr f).weir = d.weir := rfl
@[simp] theorem Dev.onEgr_art (f : Egr → Egr) : (d.onEgr f).art = d.art := rfl
@[simp] theorem Dev.onEgr_fab (f : Egr → Egr) : (d.onEgr f).fab = d.fab := rfl
@[simp] theorem Dev.onEgr_bas (f : Egr → Egr) : (d.onEgr f).bas = d.bas := rfl
@[simp] theorem Dev.onEgr_egr (f : Egr → Egr) : (d.onEgr f).egr = f d.egr := rfl
@[simp] theorem Dev.onEgr_ord (f : Egr → Egr) : (d.onEgr f).ord = d.ord := rfl
@[simp] theorem Dev.onEgr_ig (f : Egr → Egr) : (d.onEgr f).ig = d.ig := rfl
@[simp] theorem Dev.onEgr_tim (f : Egr → Egr) : (d.onEgr f).tim = d.tim := rfl
@[simp] theorem Dev.onEgr_brg (f : Egr → Egr) : (d.onEgr f).brg = d.brg := rfl
@[simp] theorem Dev.onEgr_phy (f : Egr → Egr) : (d.onEgr f).phy = d.phy := rfl
@[simp] theorem Dev.onEgr_cxl (f : Egr → Egr) : (d.onEgr f).cxl = d.cxl := rfl
@[simp] theorem Dev.onEgr_reset (f : Egr → Egr) : (d.onEgr f).reset = d.reset := rfl
@[simp] theorem Dev.onEgr_free (f : Egr → Egr) : (d.onEgr f).free = d.free := rfl

@[simp] theorem Dev.onOrd_clk (f : Ord → Ord) : (d.onOrd f).clk = d.clk := rfl
@[simp] theorem Dev.onOrd_ctl (f : Ord → Ord) : (d.onOrd f).ctl = d.ctl := rfl
@[simp] theorem Dev.onOrd_mgmt (f : Ord → Ord) : (d.onOrd f).mgmt = d.mgmt := rfl
@[simp] theorem Dev.onOrd_conf (f : Ord → Ord) : (d.onOrd f).conf = d.conf := rfl
@[simp] theorem Dev.onOrd_sec (f : Ord → Ord) : (d.onOrd f).sec = d.sec := rfl
@[simp] theorem Dev.onOrd_flt (f : Ord → Ord) : (d.onOrd f).flt = d.flt := rfl
@[simp] theorem Dev.onOrd_tele (f : Ord → Ord) : (d.onOrd f).tele = d.tele := rfl
@[simp] theorem Dev.onOrd_noc (f : Ord → Ord) : (d.onOrd f).noc = d.noc := rfl
@[simp] theorem Dev.onOrd_pwr (f : Ord → Ord) : (d.onOrd f).pwr = d.pwr := rfl
@[simp] theorem Dev.onOrd_slots (f : Ord → Ord) : (d.onOrd f).slots = d.slots := rfl
@[simp] theorem Dev.onOrd_side (f : Ord → Ord) : (d.onOrd f).side = d.side := rfl
@[simp] theorem Dev.onOrd_img (f : Ord → Ord) : (d.onOrd f).img = d.img := rfl
@[simp] theorem Dev.onOrd_weir (f : Ord → Ord) : (d.onOrd f).weir = d.weir := rfl
@[simp] theorem Dev.onOrd_art (f : Ord → Ord) : (d.onOrd f).art = d.art := rfl
@[simp] theorem Dev.onOrd_fab (f : Ord → Ord) : (d.onOrd f).fab = d.fab := rfl
@[simp] theorem Dev.onOrd_bas (f : Ord → Ord) : (d.onOrd f).bas = d.bas := rfl
@[simp] theorem Dev.onOrd_egr (f : Ord → Ord) : (d.onOrd f).egr = d.egr := rfl
@[simp] theorem Dev.onOrd_ord (f : Ord → Ord) : (d.onOrd f).ord = f d.ord := rfl
@[simp] theorem Dev.onOrd_ig (f : Ord → Ord) : (d.onOrd f).ig = d.ig := rfl
@[simp] theorem Dev.onOrd_tim (f : Ord → Ord) : (d.onOrd f).tim = d.tim := rfl
@[simp] theorem Dev.onOrd_brg (f : Ord → Ord) : (d.onOrd f).brg = d.brg := rfl
@[simp] theorem Dev.onOrd_phy (f : Ord → Ord) : (d.onOrd f).phy = d.phy := rfl
@[simp] theorem Dev.onOrd_cxl (f : Ord → Ord) : (d.onOrd f).cxl = d.cxl := rfl
@[simp] theorem Dev.onOrd_reset (f : Ord → Ord) : (d.onOrd f).reset = d.reset := rfl
@[simp] theorem Dev.onOrd_free (f : Ord → Ord) : (d.onOrd f).free = d.free := rfl

@[simp] theorem Dev.onIg_clk (l : Nat) (f : Ig → Ig) : (d.onIg l f).clk = d.clk := rfl
@[simp] theorem Dev.onIg_ctl (l : Nat) (f : Ig → Ig) : (d.onIg l f).ctl = d.ctl := rfl
@[simp] theorem Dev.onIg_mgmt (l : Nat) (f : Ig → Ig) : (d.onIg l f).mgmt = d.mgmt := rfl
@[simp] theorem Dev.onIg_conf (l : Nat) (f : Ig → Ig) : (d.onIg l f).conf = d.conf := rfl
@[simp] theorem Dev.onIg_sec (l : Nat) (f : Ig → Ig) : (d.onIg l f).sec = d.sec := rfl
@[simp] theorem Dev.onIg_flt (l : Nat) (f : Ig → Ig) : (d.onIg l f).flt = d.flt := rfl
@[simp] theorem Dev.onIg_tele (l : Nat) (f : Ig → Ig) : (d.onIg l f).tele = d.tele := rfl
@[simp] theorem Dev.onIg_noc (l : Nat) (f : Ig → Ig) : (d.onIg l f).noc = d.noc := rfl
@[simp] theorem Dev.onIg_pwr (l : Nat) (f : Ig → Ig) : (d.onIg l f).pwr = d.pwr := rfl
@[simp] theorem Dev.onIg_slots (l : Nat) (f : Ig → Ig) : (d.onIg l f).slots = d.slots := rfl
@[simp] theorem Dev.onIg_side (l : Nat) (f : Ig → Ig) : (d.onIg l f).side = d.side := rfl
@[simp] theorem Dev.onIg_img (l : Nat) (f : Ig → Ig) : (d.onIg l f).img = d.img := rfl
@[simp] theorem Dev.onIg_weir (l : Nat) (f : Ig → Ig) : (d.onIg l f).weir = d.weir := rfl
@[simp] theorem Dev.onIg_art (l : Nat) (f : Ig → Ig) : (d.onIg l f).art = d.art := rfl
@[simp] theorem Dev.onIg_fab (l : Nat) (f : Ig → Ig) : (d.onIg l f).fab = d.fab := rfl
@[simp] theorem Dev.onIg_bas (l : Nat) (f : Ig → Ig) : (d.onIg l f).bas = d.bas := rfl
@[simp] theorem Dev.onIg_egr (l : Nat) (f : Ig → Ig) : (d.onIg l f).egr = d.egr := rfl
@[simp] theorem Dev.onIg_ord (l : Nat) (f : Ig → Ig) : (d.onIg l f).ord = d.ord := rfl
@[simp] theorem Dev.onIg_ig (l : Nat) (f : Ig → Ig) : (d.onIg l f).ig = d.ig.upd l {} f := rfl
@[simp] theorem Dev.onIg_tim (l : Nat) (f : Ig → Ig) : (d.onIg l f).tim = d.tim := rfl
@[simp] theorem Dev.onIg_brg (l : Nat) (f : Ig → Ig) : (d.onIg l f).brg = d.brg := rfl
@[simp] theorem Dev.onIg_phy (l : Nat) (f : Ig → Ig) : (d.onIg l f).phy = d.phy := rfl
@[simp] theorem Dev.onIg_cxl (l : Nat) (f : Ig → Ig) : (d.onIg l f).cxl = d.cxl := rfl
@[simp] theorem Dev.onIg_reset (l : Nat) (f : Ig → Ig) : (d.onIg l f).reset = d.reset := rfl
@[simp] theorem Dev.onIg_free (l : Nat) (f : Ig → Ig) : (d.onIg l f).free = d.free := rfl

@[simp] theorem Dev.onTim_clk (f : Tim → Tim) : (d.onTim f).clk = d.clk := rfl
@[simp] theorem Dev.onTim_ctl (f : Tim → Tim) : (d.onTim f).ctl = d.ctl := rfl
@[simp] theorem Dev.onTim_mgmt (f : Tim → Tim) : (d.onTim f).mgmt = d.mgmt := rfl
@[simp] theorem Dev.onTim_conf (f : Tim → Tim) : (d.onTim f).conf = d.conf := rfl
@[simp] theorem Dev.onTim_sec (f : Tim → Tim) : (d.onTim f).sec = d.sec := rfl
@[simp] theorem Dev.onTim_flt (f : Tim → Tim) : (d.onTim f).flt = d.flt := rfl
@[simp] theorem Dev.onTim_tele (f : Tim → Tim) : (d.onTim f).tele = d.tele := rfl
@[simp] theorem Dev.onTim_noc (f : Tim → Tim) : (d.onTim f).noc = d.noc := rfl
@[simp] theorem Dev.onTim_pwr (f : Tim → Tim) : (d.onTim f).pwr = d.pwr := rfl
@[simp] theorem Dev.onTim_slots (f : Tim → Tim) : (d.onTim f).slots = d.slots := rfl
@[simp] theorem Dev.onTim_side (f : Tim → Tim) : (d.onTim f).side = d.side := rfl
@[simp] theorem Dev.onTim_img (f : Tim → Tim) : (d.onTim f).img = d.img := rfl
@[simp] theorem Dev.onTim_weir (f : Tim → Tim) : (d.onTim f).weir = d.weir := rfl
@[simp] theorem Dev.onTim_art (f : Tim → Tim) : (d.onTim f).art = d.art := rfl
@[simp] theorem Dev.onTim_fab (f : Tim → Tim) : (d.onTim f).fab = d.fab := rfl
@[simp] theorem Dev.onTim_bas (f : Tim → Tim) : (d.onTim f).bas = d.bas := rfl
@[simp] theorem Dev.onTim_egr (f : Tim → Tim) : (d.onTim f).egr = d.egr := rfl
@[simp] theorem Dev.onTim_ord (f : Tim → Tim) : (d.onTim f).ord = d.ord := rfl
@[simp] theorem Dev.onTim_ig (f : Tim → Tim) : (d.onTim f).ig = d.ig := rfl
@[simp] theorem Dev.onTim_tim (f : Tim → Tim) : (d.onTim f).tim = f d.tim := rfl
@[simp] theorem Dev.onTim_brg (f : Tim → Tim) : (d.onTim f).brg = d.brg := rfl
@[simp] theorem Dev.onTim_phy (f : Tim → Tim) : (d.onTim f).phy = d.phy := rfl
@[simp] theorem Dev.onTim_cxl (f : Tim → Tim) : (d.onTim f).cxl = d.cxl := rfl
@[simp] theorem Dev.onTim_reset (f : Tim → Tim) : (d.onTim f).reset = d.reset := rfl
@[simp] theorem Dev.onTim_free (f : Tim → Tim) : (d.onTim f).free = d.free := rfl

@[simp] theorem Dev.onBrg_clk (f : Brg → Brg) : (d.onBrg f).clk = d.clk := rfl
@[simp] theorem Dev.onBrg_ctl (f : Brg → Brg) : (d.onBrg f).ctl = d.ctl := rfl
@[simp] theorem Dev.onBrg_mgmt (f : Brg → Brg) : (d.onBrg f).mgmt = d.mgmt := rfl
@[simp] theorem Dev.onBrg_conf (f : Brg → Brg) : (d.onBrg f).conf = d.conf := rfl
@[simp] theorem Dev.onBrg_sec (f : Brg → Brg) : (d.onBrg f).sec = d.sec := rfl
@[simp] theorem Dev.onBrg_flt (f : Brg → Brg) : (d.onBrg f).flt = d.flt := rfl
@[simp] theorem Dev.onBrg_tele (f : Brg → Brg) : (d.onBrg f).tele = d.tele := rfl
@[simp] theorem Dev.onBrg_noc (f : Brg → Brg) : (d.onBrg f).noc = d.noc := rfl
@[simp] theorem Dev.onBrg_pwr (f : Brg → Brg) : (d.onBrg f).pwr = d.pwr := rfl
@[simp] theorem Dev.onBrg_slots (f : Brg → Brg) : (d.onBrg f).slots = d.slots := rfl
@[simp] theorem Dev.onBrg_side (f : Brg → Brg) : (d.onBrg f).side = d.side := rfl
@[simp] theorem Dev.onBrg_img (f : Brg → Brg) : (d.onBrg f).img = d.img := rfl
@[simp] theorem Dev.onBrg_weir (f : Brg → Brg) : (d.onBrg f).weir = d.weir := rfl
@[simp] theorem Dev.onBrg_art (f : Brg → Brg) : (d.onBrg f).art = d.art := rfl
@[simp] theorem Dev.onBrg_fab (f : Brg → Brg) : (d.onBrg f).fab = d.fab := rfl
@[simp] theorem Dev.onBrg_bas (f : Brg → Brg) : (d.onBrg f).bas = d.bas := rfl
@[simp] theorem Dev.onBrg_egr (f : Brg → Brg) : (d.onBrg f).egr = d.egr := rfl
@[simp] theorem Dev.onBrg_ord (f : Brg → Brg) : (d.onBrg f).ord = d.ord := rfl
@[simp] theorem Dev.onBrg_ig (f : Brg → Brg) : (d.onBrg f).ig = d.ig := rfl
@[simp] theorem Dev.onBrg_tim (f : Brg → Brg) : (d.onBrg f).tim = d.tim := rfl
@[simp] theorem Dev.onBrg_brg (f : Brg → Brg) : (d.onBrg f).brg = f d.brg := rfl
@[simp] theorem Dev.onBrg_phy (f : Brg → Brg) : (d.onBrg f).phy = d.phy := rfl
@[simp] theorem Dev.onBrg_cxl (f : Brg → Brg) : (d.onBrg f).cxl = d.cxl := rfl
@[simp] theorem Dev.onBrg_reset (f : Brg → Brg) : (d.onBrg f).reset = d.reset := rfl
@[simp] theorem Dev.onBrg_free (f : Brg → Brg) : (d.onBrg f).free = d.free := rfl

@[simp] theorem Dev.onPhy_clk (f : Phy → Phy) : (d.onPhy f).clk = d.clk := rfl
@[simp] theorem Dev.onPhy_ctl (f : Phy → Phy) : (d.onPhy f).ctl = d.ctl := rfl
@[simp] theorem Dev.onPhy_mgmt (f : Phy → Phy) : (d.onPhy f).mgmt = d.mgmt := rfl
@[simp] theorem Dev.onPhy_conf (f : Phy → Phy) : (d.onPhy f).conf = d.conf := rfl
@[simp] theorem Dev.onPhy_sec (f : Phy → Phy) : (d.onPhy f).sec = d.sec := rfl
@[simp] theorem Dev.onPhy_flt (f : Phy → Phy) : (d.onPhy f).flt = d.flt := rfl
@[simp] theorem Dev.onPhy_tele (f : Phy → Phy) : (d.onPhy f).tele = d.tele := rfl
@[simp] theorem Dev.onPhy_noc (f : Phy → Phy) : (d.onPhy f).noc = d.noc := rfl
@[simp] theorem Dev.onPhy_pwr (f : Phy → Phy) : (d.onPhy f).pwr = d.pwr := rfl
@[simp] theorem Dev.onPhy_slots (f : Phy → Phy) : (d.onPhy f).slots = d.slots := rfl
@[simp] theorem Dev.onPhy_side (f : Phy → Phy) : (d.onPhy f).side = d.side := rfl
@[simp] theorem Dev.onPhy_img (f : Phy → Phy) : (d.onPhy f).img = d.img := rfl
@[simp] theorem Dev.onPhy_weir (f : Phy → Phy) : (d.onPhy f).weir = d.weir := rfl
@[simp] theorem Dev.onPhy_art (f : Phy → Phy) : (d.onPhy f).art = d.art := rfl
@[simp] theorem Dev.onPhy_fab (f : Phy → Phy) : (d.onPhy f).fab = d.fab := rfl
@[simp] theorem Dev.onPhy_bas (f : Phy → Phy) : (d.onPhy f).bas = d.bas := rfl
@[simp] theorem Dev.onPhy_egr (f : Phy → Phy) : (d.onPhy f).egr = d.egr := rfl
@[simp] theorem Dev.onPhy_ord (f : Phy → Phy) : (d.onPhy f).ord = d.ord := rfl
@[simp] theorem Dev.onPhy_ig (f : Phy → Phy) : (d.onPhy f).ig = d.ig := rfl
@[simp] theorem Dev.onPhy_tim (f : Phy → Phy) : (d.onPhy f).tim = d.tim := rfl
@[simp] theorem Dev.onPhy_brg (f : Phy → Phy) : (d.onPhy f).brg = d.brg := rfl
@[simp] theorem Dev.onPhy_phy (f : Phy → Phy) : (d.onPhy f).phy = f d.phy := rfl
@[simp] theorem Dev.onPhy_cxl (f : Phy → Phy) : (d.onPhy f).cxl = d.cxl := rfl
@[simp] theorem Dev.onPhy_reset (f : Phy → Phy) : (d.onPhy f).reset = d.reset := rfl
@[simp] theorem Dev.onPhy_free (f : Phy → Phy) : (d.onPhy f).free = d.free := rfl

@[simp] theorem Dev.onCxl_clk (f : Cxl → Cxl) : (d.onCxl f).clk = d.clk := rfl
@[simp] theorem Dev.onCxl_ctl (f : Cxl → Cxl) : (d.onCxl f).ctl = d.ctl := rfl
@[simp] theorem Dev.onCxl_mgmt (f : Cxl → Cxl) : (d.onCxl f).mgmt = d.mgmt := rfl
@[simp] theorem Dev.onCxl_conf (f : Cxl → Cxl) : (d.onCxl f).conf = d.conf := rfl
@[simp] theorem Dev.onCxl_sec (f : Cxl → Cxl) : (d.onCxl f).sec = d.sec := rfl
@[simp] theorem Dev.onCxl_flt (f : Cxl → Cxl) : (d.onCxl f).flt = d.flt := rfl
@[simp] theorem Dev.onCxl_tele (f : Cxl → Cxl) : (d.onCxl f).tele = d.tele := rfl
@[simp] theorem Dev.onCxl_noc (f : Cxl → Cxl) : (d.onCxl f).noc = d.noc := rfl
@[simp] theorem Dev.onCxl_pwr (f : Cxl → Cxl) : (d.onCxl f).pwr = d.pwr := rfl
@[simp] theorem Dev.onCxl_slots (f : Cxl → Cxl) : (d.onCxl f).slots = d.slots := rfl
@[simp] theorem Dev.onCxl_side (f : Cxl → Cxl) : (d.onCxl f).side = d.side := rfl
@[simp] theorem Dev.onCxl_img (f : Cxl → Cxl) : (d.onCxl f).img = d.img := rfl
@[simp] theorem Dev.onCxl_weir (f : Cxl → Cxl) : (d.onCxl f).weir = d.weir := rfl
@[simp] theorem Dev.onCxl_art (f : Cxl → Cxl) : (d.onCxl f).art = d.art := rfl
@[simp] theorem Dev.onCxl_fab (f : Cxl → Cxl) : (d.onCxl f).fab = d.fab := rfl
@[simp] theorem Dev.onCxl_bas (f : Cxl → Cxl) : (d.onCxl f).bas = d.bas := rfl
@[simp] theorem Dev.onCxl_egr (f : Cxl → Cxl) : (d.onCxl f).egr = d.egr := rfl
@[simp] theorem Dev.onCxl_ord (f : Cxl → Cxl) : (d.onCxl f).ord = d.ord := rfl
@[simp] theorem Dev.onCxl_ig (f : Cxl → Cxl) : (d.onCxl f).ig = d.ig := rfl
@[simp] theorem Dev.onCxl_tim (f : Cxl → Cxl) : (d.onCxl f).tim = d.tim := rfl
@[simp] theorem Dev.onCxl_brg (f : Cxl → Cxl) : (d.onCxl f).brg = d.brg := rfl
@[simp] theorem Dev.onCxl_phy (f : Cxl → Cxl) : (d.onCxl f).phy = d.phy := rfl
@[simp] theorem Dev.onCxl_cxl (f : Cxl → Cxl) : (d.onCxl f).cxl = f d.cxl := rfl
@[simp] theorem Dev.onCxl_reset (f : Cxl → Cxl) : (d.onCxl f).reset = d.reset := rfl
@[simp] theorem Dev.onCxl_free (f : Cxl → Cxl) : (d.onCxl f).free = d.free := rfl

@[simp] theorem State.elapse_pending (dt : Nat) : (s.elapse dt).pending = s.pending := rfl
@[simp] theorem State.elapse_mode (dt : Nat) : (s.elapse dt).mode = s.mode := rfl
@[simp] theorem State.elapse_profile (dt : Nat) : (s.elapse dt).profile = s.profile := rfl
@[simp] theorem State.elapse_mem (dt : Nat) : (s.elapse dt).mem = s.mem := rfl
@[simp] theorem State.elapse_dev (dt : Nat) : (s.elapse dt).dev = s.dev.elapse dt := rfl

/-- What a device holds beside its counters and its event records. -/
def Dev.unrecorded : Dev := { d with tele := {}, mgmt := {} }

end Sys2Proof.Machine
end

