-- ==== Sys2Proof/Laws/Tables.lean ====
section
/-! SUPPORT. The tables: what a lookup answers after an entry was set, changed or removed. -/

namespace Sys2Proof.Machine

variable {κ α : Type} [DecidableEq κ] (t : Tbl κ α) (k j : κ) (v d : α)

@[simp] theorem Tbl.get?_set : (t.set k v).get? k = some v := by
  induction t with
  | nil => simp [Tbl.set, Tbl.get?]
  | cons x t ih =>
    obtain ⟨a, b⟩ := x
    by_cases h : a = k <;> simp [Tbl.set, Tbl.get?, h, ih]

theorem Tbl.get?_set_ne (h : j ≠ k) : (t.set k v).get? j = t.get? j := by
  induction t with
  | nil => simp [Tbl.set, Tbl.get?, h.symm]
  | cons x t ih =>
    obtain ⟨a, b⟩ := x
    by_cases h1 : a = k <;> by_cases h2 : a = j <;> simp_all [Tbl.set, Tbl.get?]

@[simp] theorem Tbl.getD_set : (t.set k v).getD k d = v := by simp [Tbl.getD]

theorem Tbl.getD_set_ne (h : j ≠ k) : (t.set k v).getD j d = t.getD j d := by
  simp [Tbl.getD, Tbl.get?_set_ne t k j v h]

@[simp] theorem Tbl.getD_upd (f : α → α) : (t.upd k d f).getD k d = f (t.getD k d) := by simp [Tbl.upd]

theorem Tbl.getD_upd_ne (f : α → α) (e : α) (h : j ≠ k) : (t.upd k d f).getD j e = t.getD j e := by
  simp [Tbl.upd, Tbl.getD_set_ne t k j _ e h]

theorem Tbl.get?_erase : (t.erase k).get? j = if j = k then none else t.get? j := by
  induction t with
  | nil => simp [Tbl.erase, Tbl.get?]
  | cons x t ih =>
    obtain ⟨a, b⟩ := x
    simp only [Tbl.erase] at ih
    by_cases h1 : a = k <;> by_cases h2 : a = j <;> simp_all [Tbl.erase, Tbl.get?]

end Sys2Proof.Machine
end

