-- ==== Sys2Proof/Laws/Ops.lean ====
section
/-! SUPPORT. What the shared operations leave unchanged: records, counts and answers touch only the management processors and the telemetry,
a fault message only its collector's side, time only the clocks beside these. -/

namespace Sys2Proof.Machine

variable (d : Dev)

@[simp] theorem Dev.unrecorded_onMgmt (f : Mgmt → Mgmt) : (d.onMgmt f).unrecorded = d.unrecorded := rfl
@[simp] theorem Dev.unrecorded_onTele (f : Tele → Tele) : (d.onTele f).unrecorded = d.unrecorded := rfl
@[simp] theorem Dev.unrecorded_onMbx (m : Mbx) (f : Mailbox → Mailbox) : (d.onMbx m f).unrecorded = d.unrecorded := rfl

/-- Two devices that differ in their records alone agree in every other field. -/
theorem Dev.eq_of_unrecorded {d e : Dev} (h : e.unrecorded = d.unrecorded) : e = { d with tele := e.tele, mgmt := e.mgmt } := by
  obtain ⟨⟩ := d
  obtain ⟨⟩ := e
  simp only [Dev.unrecorded, Dev.mk.injEq] at h
  simp_all

/-- A fold of steps that each leave a figure leaves it. -/
theorem foldl_keeps {α β γ : Type} (g : α → γ) (f : α → β → α) (h : ∀ a b, g (f a b) = g a) (l : List β) (a : α) :
    g (l.foldl f a) = g a := by
  induction l generalizing a with
  | nil => rfl
  | cons b l ih => rw [List.foldl_cons, ih, h]

@[simp] theorem Dev.postTo_unrecorded (m : Mbx) (r : EvRec) : (d.postTo m r).unrecorded = d.unrecorded := by
  unfold Dev.postTo
  repeat' split
  all_goals rfl

@[simp] theorem Dev.post_unrecorded (r : EvRec) : (d.post r).unrecorded = d.unrecorded :=
  foldl_keeps Dev.unrecorded _ (fun a b => a.postTo_unrecorded b r) _ _

@[simp] theorem Dev.traceRec_unrecorded (t a b : Nat) (c : Bytes) : (d.traceRec t a b c).unrecorded = d.unrecorded := by
  unfold Dev.traceRec
  split <;> rfl

@[simp] theorem Dev.modeNotice_unrecorded (m : Mode) (p : Profile) : (d.modeNotice m p).unrecorded = d.unrecorded := by
  simp only [Dev.modeNotice, Dev.traceRec_unrecorded]
  exact foldl_keeps Dev.unrecorded _ (fun a b => a.postTo_unrecorded b _) _ _

@[simp] theorem Dev.sourceRec_unrecorded (c m i r t s : Nat) (x : Bytes) : (d.sourceRec c m i r t s x).unrecorded = d.unrecorded := by
  unfold Dev.sourceRec
  dsimp only
  repeat' split
  all_goals simp

@[simp] theorem Dev.countBase_unrecorded (s t r i n : Nat) (x : Bytes) : (d.countBase s t r i n x).unrecorded = d.unrecorded := by
  unfold Dev.countBase
  dsimp only
  split
  · simp
  · split <;> simp

@[simp] theorem Dev.countFuel_unrecorded (k : Nat) : ∀ (d : Dev) (s t r c i n : Nat) (x : Bytes),
    (Dev.countFuel k d s t r c i n x).unrecorded = d.unrecorded := by
  induction k with
  | zero => intros; simp [Dev.countFuel]
  | succ k ih =>
    intro d s t r c i n x
    simp only [Dev.countFuel]
    rw [foldl_keeps Dev.unrecorded]
    · simp
    · intro a b
      have h : ∀ (c : Prop) [Decidable c] (f : Tele → Tele), (if c then a.onTele f else a).unrecorded = a.unrecorded := by
        intro c _ f
        split <;> rfl
      split
      · split <;> rw [ih, h]
      · rw [h]

@[simp] theorem Dev.countX_unrecorded (s t r c i n : Nat) (x : Bytes) : (d.countX s t r c i n x).unrecorded = d.unrecorded := by
  unfold Dev.countX
  split
  · rfl
  · exact Dev.countFuel_unrecorded ..

@[simp] theorem Dev.countN_unrecorded (s t r c i n : Nat) : (d.countN s t r c i n).unrecorded = d.unrecorded :=
  d.countX_unrecorded ..

@[simp] theorem Dev.count_unrecorded (s t r i c : Nat) : (d.count s t r i c).unrecorded = d.unrecorded := d.countX_unrecorded ..

@[simp] theorem Dev.countDev_unrecorded (s i r : Nat) : (d.countDev s i r).unrecorded = d.unrecorded := d.countX_unrecorded ..

@[simp] theorem Dev.finLong_unrecorded (k : Mbx × Nat) (s : Status) (b : Bytes) : (d.finLong k s b).unrecorded = d.unrecorded := rfl

@[simp] theorem Dev.finLong?_unrecorded (k : Option (Mbx × Nat)) (s : Status) (b : Bytes) :
    (d.finLong? k s b).unrecorded = d.unrecorded := by
  unfold Dev.finLong?
  split <;> rfl

@[simp] theorem Dev.respond_unrecorded (f : Frame) (op : Nat) (s : Status) (b : Bytes) :
    (d.respond f op s b).unrecorded = d.unrecorded := rfl

@[simp] theorem Dev.startLong_unrecorded (f : Frame) (op : Nat) : (d.startLong f op).unrecorded = d.unrecorded := rfl

/-- An answer touches the management processors alone. -/
@[simp] theorem Dev.reply_unrecorded (f : Frame) (op : Nat) (r : Reply) : (d.reply f op r).unrecorded = d.unrecorded := by
  cases r <;> simp [Dev.reply]

@[simp] theorem Dev.bumpCounter_unrecorded (k : Nat × Nat) (n : Nat) : (d.bumpCounter k n).unrecorded = d.unrecorded := by
  unfold Dev.bumpCounter
  dsimp only
  repeat' split
  all_goals simp

@[simp] theorem Dev.levelTick_unrecorded (n : Nat) : (d.levelTick n).unrecorded = d.unrecorded := by
  unfold Dev.levelTick
  rw [foldl_keeps Dev.unrecorded]
  intro a b
  split
  · simp
  · rfl

/-- Time changes the clocks, the telemetry and the records alone. -/
theorem Dev.elapse_eq (dt : Nat) :
    d.elapse dt = { d with clk := d.clk.elapse dt, tele := (d.elapse dt).tele, mgmt := (d.elapse dt).mgmt } := by
  exact Dev.eq_of_unrecorded (d := d.onClk (Clk.elapse dt)) (by simp [Dev.elapse])

@[simp] theorem Dev.elapse_clk (dt : Nat) : (d.elapse dt).clk = d.clk.elapse dt := by rw [Dev.elapse_eq]
@[simp] theorem Dev.elapse_ctl (dt : Nat) : (d.elapse dt).ctl = d.ctl := by rw [Dev.elapse_eq]
@[simp] theorem Dev.elapse_conf (dt : Nat) : (d.elapse dt).conf = d.conf := by rw [Dev.elapse_eq]
@[simp] theorem Dev.elapse_sec (dt : Nat) : (d.elapse dt).sec = d.sec := by rw [Dev.elapse_eq]
@[simp] theorem Dev.elapse_flt (dt : Nat) : (d.elapse dt).flt = d.flt := by rw [Dev.elapse_eq]
@[simp] theorem Dev.elapse_noc (dt : Nat) : (d.elapse dt).noc = d.noc := by rw [Dev.elapse_eq]
@[simp] theorem Dev.elapse_pwr (dt : Nat) : (d.elapse dt).pwr = d.pwr := by rw [Dev.elapse_eq]
@[simp] theorem Dev.elapse_slots (dt : Nat) : (d.elapse dt).slots = d.slots := by rw [Dev.elapse_eq]
@[simp] theorem Dev.elapse_side (dt : Nat) : (d.elapse dt).side = d.side := by rw [Dev.elapse_eq]
@[simp] theorem Dev.elapse_img (dt : Nat) : (d.elapse dt).img = d.img := by rw [Dev.elapse_eq]
@[simp] theorem Dev.elapse_weir (dt : Nat) : (d.elapse dt).weir = d.weir := by rw [Dev.elapse_eq]
@[simp] theorem Dev.elapse_art (dt : Nat) : (d.elapse dt).art = d.art := by rw [Dev.elapse_eq]
@[simp] theorem Dev.elapse_fab (dt : Nat) : (d.elapse dt).fab = d.fab := by rw [Dev.elapse_eq]
@[simp] theorem Dev.elapse_bas (dt : Nat) : (d.elapse dt).bas = d.bas := by rw [Dev.elapse_eq]
@[simp] theorem Dev.elapse_egr (dt : Nat) : (d.elapse dt).egr = d.egr := by rw [Dev.elapse_eq]
@[simp] theorem Dev.elapse_ord (dt : Nat) : (d.elapse dt).ord = d.ord := by rw [Dev.elapse_eq]
@[simp] theorem Dev.elapse_ig (dt : Nat) : (d.elapse dt).ig = d.ig := by rw [Dev.elapse_eq]
@[simp] theorem Dev.elapse_tim (dt : Nat) : (d.elapse dt).tim = d.tim := by rw [Dev.elapse_eq]
@[simp] theorem Dev.elapse_brg (dt : Nat) : (d.elapse dt).brg = d.brg := by rw [Dev.elapse_eq]
@[simp] theorem Dev.elapse_phy (dt : Nat) : (d.elapse dt).phy = d.phy := by rw [Dev.elapse_eq]
@[simp] theorem Dev.elapse_cxl (dt : Nat) : (d.elapse dt).cxl = d.cxl := by rw [Dev.elapse_eq]
@[simp] theorem Dev.elapse_reset (dt : Nat) : (d.elapse dt).reset = d.reset := by rw [Dev.elapse_eq]
@[simp] theorem Dev.elapse_free (dt : Nat) : (d.elapse dt).free = d.free := by rw [Dev.elapse_eq]

/-- Serving a command touches the management processors and the time of its session. -/
theorem Dev.served_eq (f : Frame) : d.served f =
    { d with mgmt := (d.served f).mgmt, sec := { d.sec with sessions := (d.served f).sec.sessions } } := by
  by_cases h : f.sid = 0
  · rw [Dev.served, if_pos h]; rfl
  · rw [Dev.served, if_neg h]; rfl

/-- Sending a fault message touches the internal network's figures, two free values and the collector's side. -/
theorem Dev.sendFault_eq (b i k c r x : Nat) : d.sendFault b i k c r x =
    { d with noc := (d.sendFault b i k c r x).noc, free := d.free + 2, flt := (d.sendFault b i k c r x).flt } := rfl

/-- An audit record touches the security state and the count of refused log entries. -/
theorem Dev.audit_eq (e : AuditEv) (n : Nat) (m : Option Mbx) (o : Nat) : d.audit e n m o =
    { d with sec := (d.audit e n m o).sec, img := (d.audit e n m o).img } := by
  have h1 : ∀ f : Sec → Sec, d.onSec f = { d with sec := (d.onSec f).sec, img := (d.onSec f).img } := fun _ => rfl
  have h2 : ∀ f : Img → Img, d.onImg f = { d with sec := (d.onImg f).sec, img := (d.onImg f).img } := fun _ => rfl
  unfold Dev.audit
  split
  · exact h2 _
  · exact h1 _

end Sys2Proof.Machine
end

