-- ==== Sys2Proof/WellFormed.lean ====
section
/-! DEFINITION. Well-formedness: every operand that names a part of the device names one that exists (Tables
GLANCE-1, GLANCE-2, CELL-2, MBX-2), and every field of a frame, message or flit fits its width. -/

namespace Sys2Proof

/-- The number of a link of the 64 tiles (Table GLANCE-2). -/
def isLinkNo (l : Nat) : Bool := decide (l < 256)

/-- A tile number (R3). -/
def isTile (t : Nat) : Bool := decide (t < 64)

/-- A lane of a tile (R251): eight data lanes, the towpath lane 8 and the spare lane 9. -/
def isLane (n : Nat) : Bool := decide (n < 10)

/-- A mailbox that exists (Table MBX-2). -/
def Mbx.wf : Mbx → Bool
  | .reach r => decide (r < 32)
  | .admin | .oob | .tunnel => true

/-- A view that exists (R343): a VCS has the number of a link (R281). -/
def View.wf : View → Bool
  | .admin => true
  | .vcs v => decide (v < 256)

/-- A frame whose header fields fit Table MBX-8. -/
def Frame.wf (f : Frame) : Bool :=
  f.mbx.wf && decide (f.flags < 2 ^ 16) && decide (f.tag < 2 ^ 16) && decide (f.status < 2 ^ 16)
  && decide (f.sid < 2 ^ 32) && decide (f.payload.length < 2 ^ 16)

/-- A source of FM API requests that exists. -/
def FmSrc.wf : FmSrc → Bool
  | .cci link => isLinkNo link
  | .mctp | .bilod => true

/-- A port for SPDM requests that exists. -/
def SpdmPort.wf : SpdmPort → Bool
  | .doe link => isLinkNo link
  | .mctp => true

/-- A fault message whose fields fit Table FAULT-1. -/
def FaultMsg.wf (m : FaultMsg) : Bool :=
  decide (m.block < 2 ^ 4) && decide (m.inst < 2 ^ 8) && decide (m.kind < 2 ^ 10) && decide (m.cls < 4)
  && decide (m.reach < 2 ^ 6) && decide (m.detail < 2 ^ 52) && decide (m.time < 2 ^ 40) && decide (m.seq < 2 ^ 6)

/-- An arriving message whose fields fit. -/
def Arrival.wf (m : Arrival) : Bool :=
  isLinkNo m.link && decide (m.kind < 2 ^ 8) && decide (m.addr < 2 ^ 64) && decide (m.len ≤ 4096)
  && decide (m.data.length ≤ 4096)

/-- A flit of eight slots with four codewords (Table LINK-2, R199). -/
def Flit.wf (fl : Flit) : Bool :=
  decide (fl.slots.length = 8) && fl.slots.all (fun x => decide (x.length = 64)) && decide (fl.errs.length = 4) && fl.stuff.all fun n => decide (n < 10)

/-- An alignment marker whose fields fit Table LANE-6. -/
def AMark.wf (a : AMark) : Bool :=
  decide (a.lane < 2 ^ 4) && decide (a.flags < 2 ^ 8) && decide (a.rxMask < 2 ^ 8)

/-- A well-formed command. -/
def Instr.wf : Instr → Bool
  | .modeGet _ f => f.wf
  | .modeSet _ f => f.wf
  | .serviceBegin _ f => f.wf
  | .serviceEnd _ f => f.wf
  | .contractSet _ f => f.wf
  | .contractGet _ f => f.wf
  | .contractClear _ f => f.wf
  | .expeditedReserve _ f => f.wf
  | .profileSet _ f => f.wf
  | .profileGet _ f => f.wf
  | .pathReserve _ f => f.wf
  | .pathRelease _ f => f.wf
  | .calendarGet _ f => f.wf
  | .weirStatusGet _ f => f.wf
  | .ruleWrite _ f => f.wf
  | .ruleRead _ f => f.wf
  | .ruleClear _ f => f.wf
  | .rulesetStatusGet _ f => f.wf
  | .ruleLookup _ f => f.wf
  | .defaultMapSet _ f => f.wf
  | .defaultMapGet _ f => f.wf
  | .gateWindowSet _ f => f.wf
  | .gateModeSet _ f => f.wf
  | .gateGet _ f => f.wf
  | .fabricStatusGet _ f => f.wf
  | .mcastGroupSet _ f => f.wf
  | .mcastGroupGet _ f => f.wf
  | .replicateWrite _ f => f.wf
  | .basinLayoutSet _ f => f.wf
  | .basinStatusGet _ f => f.wf
  | .basinMemoryBind _ f => f.wf
  | .basinMemoryGet _ f => f.wf
  | .basinFill _ f => f.wf
  | .queueThresholdSet _ f => f.wf
  | .queueStatusGet _ f => f.wf
  | .bufferStatusGet _ f => f.wf
  | .schedWeightSet _ f => f.wf
  | .shaperSet _ f => f.wf
  | .schedGet _ f => f.wf
  | .schedStatusGet _ f => f.wf
  | .fabricFlush _ f => f.wf
  | .aliasWindowSet _ f => f.wf
  | .aliasWindowGet _ f => f.wf
  | .resvGranuleSet _ f => f.wf
  | .orderStatusGet _ f => f.wf
  | .resvStatusGet _ f => f.wf
  | .iggevoDeviceSet _ f => f.wf
  | .iggevoLinkSet _ f => f.wf
  | .iggevoLinkStatusGet _ f => f.wf
  | .iggevoLaneWidthSet _ f => f.wf
  | .iggevoRetrain _ f => f.wf
  | .timeStatusGet _ f => f.wf
  | .bridgeLinkSet _ f => f.wf
  | .bridgeLinkGet _ f => f.wf
  | .lockStatusGet _ f => f.wf
  | .lockRelease _ f => f.wf
  | .bridgeStatusGet _ f => f.wf
  | .laneStatusGet _ f => f.wf
  | .laneConfigSet _ f => f.wf
  | .laneSpareSet _ f => f.wf
  | .laneEyeScan _ f => f.wf
  | .laneEyeGet _ f => f.wf
  | .laneTestSet _ f => f.wf
  | .laneTestGet _ f => f.wf
  | .laneConfigGet _ f => f.wf
  | .tileConfigSet _ f => f.wf
  | .portConfigSet _ f => f.wf
  | .portStatusGet _ f => f.wf
  | .hotplugRequest _ f => f.wf
  | .ideKeyRefresh _ f => f.wf
  | .ideStatusGet _ f => f.wf
  | .vppbBind _ f => f.wf
  | .vppbUnbind _ f => f.wf
  | .vcsGet _ f => f.wf
  | .ldCoherenceSet _ f => f.wf
  | .biRouteSet _ f => f.wf
  | .reachCountSet _ f => f.wf
  | .reachGet _ f => f.wf
  | .reachAssign _ f => f.wf
  | .reachMapGet _ f => f.wf
  | .reachReset _ f => f.wf
  | .reachStatusGet _ f => f.wf
  | .nocStatsGet _ f => f.wf
  | .nocStatsClear _ f => f.wf
  | .domainStatusGet _ f => f.wf
  | .identify _ f => f.wf
  | .eventRead _ f => f.wf
  | .resultGet _ f => f.wf
  | .commit _ f => f.wf
  | .rulesetCommit _ f => f.wf
  | .stagingDiscard _ f => f.wf
  | .stagingStatusGet _ f => f.wf
  | .mpcStatusGet _ f => f.wf
  | .mpcSwitchover _ f => f.wf
  | .fmapiRequest _ f => f.wf
  | .securityStatusGet _ f => f.wf
  | .sessionChallenge _ f => f.wf
  | .openSession _ f => f.wf
  | .closeSession _ f => f.wf
  | .credentialSet _ f => f.wf
  | .credentialGet _ f => f.wf
  | .selfTestRun _ f => f.wf
  | .zeroize _ f => f.wf
  | .auditRead _ f => f.wf
  | .debugEnable _ f => f.wf
  | .faultStatusGet _ f => f.wf
  | .faultStatusClear _ f => f.wf
  | .faultSnapshotGet _ f => f.wf
  | .faultHistoryRead _ f => f.wf
  | .faultRedundancyGet _ f => f.wf
  | .faultLogRead _ f => f.wf
  | .faultCountGet _ f => f.wf
  | .faultInject _ f => f.wf
  | .counterConfigSet _ f => f.wf
  | .counterConfigGet _ f => f.wf
  | .counterRead _ f => f.wf
  | .counterWrite _ f => f.wf
  | .tallyRead _ f => f.wf
  | .bwWindowSet _ f => f.wf
  | .bwWindowGet _ f => f.wf
  | .sampleRead _ f => f.wf
  | .traceSet _ f => f.wf
  | .traceRead _ f => f.wf
  | .telemetrySet _ f => f.wf
  | .percolatorSet _ f => f.wf
  | .percolatorStatusGet _ f => f.wf
  | .traceMarker _ f => f.wf
  | .slotStatusGet _ f => f.wf
  | .slotConfigSet _ f => f.wf
  | .slotConfigGet _ f => f.wf
  | .slotResetLatch _ f => f.wf
  | .slotFeedSelect _ f => f.wf
  | .feedStatusGet _ f => f.wf
  | .supplyStatusGet _ f => f.wf
  | .clockStatusGet _ f => f.wf
  | .clockSelect _ f => f.wf
  | .shelfEnter _ f => f.wf
  | .imageStatusGet _ f => f.wf
  | .saveImage _ f => f.wf
  | .imageWrite _ f => f.wf
  | .imageFinish _ f => f.wf
  | .imageInvalidate _ f => f.wf
  | .securityVersionAdvance _ f => f.wf
  | .undefinedOpcode _ opcode f => decide (opcode < 2 ^ 16) && f.wf
  | .fmApiTunnelFrame _ src opcode f => src.wf && decide (opcode < 2 ^ 16) && f.wf
  | .fmApiBindVppb _ src vcs vppb link _ => src.wf && decide (vcs < 256) && decide (vppb < 32) && isLinkNo link
  | .fmApiUnbindVppb _ src vcs vppb _ => src.wf && decide (vcs < 256) && decide (vppb < 32)
  | .fmApiPhysicalPortControl _ src link _ => src.wf && isLinkNo link
  | .fmApiMldPortRequest _ src link _ _ => src.wf && isLinkNo link
  | .fmApiTunnelledComponent _ src link _ => src.wf && isLinkNo link
  | .fmApiUnsupportedSet _ src opcode => src.wf && decide (opcode < 2 ^ 16)
  | .ring _ v => v.wf
  | .next _ v => v.wf
  | .drop _ v => v.wf
  | .claim _ v => v.wf
  | .release _ v => v.wf
  | .registerWrite _ v _ width _ => v.wf && decide (width = 1 ∨ width = 2 ∨ width = 4 ∨ width = 8)
  | .claimTimeout _ r => decide (r < 32)
  | .commandDone _ mb tag => mb.wf && decide (tag < 2 ^ 16)
  | .mctpBilodRequest _ opcode f _ => decide (opcode < 2 ^ 16) && f.wf
  | .mctpControlMessage _ _ _ _ _ => true
  | .i3cAddressAssign _ _ _ _ => true
  | .i3cBusReset _ => true
  | .spdmRequest _ port _ => port.wf
  | .spiReadPage _ _ _ _ _ => true
  | .spiWritePage _ _ _ _ _ => true
  | .spiReadSbStatus _ _ _ => true
  | .spiFormatError _ => true
  | .spiPartialFrame _ => true
  | .uartCharacter _ _ _ => true
  | .uartBreak _ => true
  | .bypass _ => true
  | .idcode _ => true
  | .samplePreload _ => true
  | .extest _ => true
  | .extestPulse _ => true
  | .extestTrain _ => true
  | .clamp _ => true
  | .highz _ => true
  | .privateDebugInstruction _ _ => true
  | .tapReset _ => true
  | .sidebandScan _ _ _ => true
  | .presenceInserted _ t => isTile t
  | .presenceLost _ t => isTile t
  | .attentionButtonPressed _ t => isTile t
  | .attentionButtonReleased _ t => isTile t
  | .chainFault _ => true
  | .chainFaultEnd _ => true
  | .indicatorBlink _ => true
  | .tamperEvent _ _ => true
  | .shelfTamperSample _ _ => true
  | .stbyWake _ _ => true
  | .vstbyPowerOn _ => true
  | .vstbyLoss _ => true
  | .powerGood _ _ => true
  | .resetNAssert _ _ => true
  | .railRecovered _ rail => decide (rail < 6)
  | .coreRailsOff _ => true
  | .supplyOutOfRange _ rail _ => decide (rail < 6)
  | .entropyStartupDone _ _ => true
  | .entropyTestFail _ => true
  | .drbgReseed _ _ => true
  | .safeEntry _ _ => true
  | .imageLoad _ => true
  | .timebaseStep _ => true
  | .startProfileCommit _ => true
  | .configureJoinWindowEnd _ => true
  | .perstRelease _ t => isTile t
  | .commitEpoch _ => true
  | .resyncStart _ set => decide (set < 33)
  | .resyncDone _ set => decide (set < 33)
  | .configureDrainComplete _ => true
  | .diagnosticTransitionDone _ _ => true
  | .serviceOpComplete _ _ => true
  | .ingressArrival _ m => m.wf
  | .weirEvaluate _ tile => isTile tile
  | .artLookupAnswer _ tile r _ _ _ _ link _ => isTile tile && decide (r < 32) && isLinkNo link
  | .expeditedDemoted _ link => isLinkNo link
  | .selfGeneratedAdmission _ _ => true
  | .pressureRecompute _ => true
  | .queueStateBroadcast _ => true
  | .tilePark _ t => isTile t
  | .tileUnpark _ t => isTile t
  | .stageTransfer _ plane stage => decide (plane < 2) && decide (stage < 3)
  | .cellArrival _ _ _ => true
  | .lockChamberRelease _ _ => true
  | .lockAck _ _ => true
  | .seqMissing _ _ _ _ _ => true
  | .basinReturn _ link q => isLinkNo link && decide (q < 8)
  | .basinCellLost _ _ => true
  | .mcastAggregate _ _ => true
  | .planeLost _ p _ => decide (p < 2)
  | .patternEpoch _ => true
  | .patternChangeTimeout _ => true
  | .transmitUnit _ link => isLinkNo link
  | .egressDeparture _ link _ => isLinkNo link
  | .shaperRefill _ link => isLinkNo link
  | .egressStall _ link => isLinkNo link
  | .basinSlot _ stack => decide (stack < 2)
  | .basinMemoryAccess _ _ _ => true
  | .basinAtomicop _ _ _ => true
  | .dredgerScrub _ stack _ _ => decide (stack < 2)
  | .stackLost _ stack _ => decide (stack < 2)
  | .basinGibCleared _ g => decide (g < 64)
  | .fabricFlushRead _ link => isLinkNo link
  | .flushComplete _ _ => true
  | .flushTimeout _ _ => true
  | .monitorAgeExpiry _ => true
  | .statusPageRead _ link _ => isLinkNo link
  | .flitReceived _ link fl => isLinkNo link && fl.wf
  | .ackTimer _ link => isLinkNo link
  | .replayRequestTimeout _ link => isLinkNo link
  | .retrain _ link _ => isLinkNo link
  | .linkDown _ link _ => isLinkNo link
  | .linkRecordReceived _ link _ _ => isLinkNo link
  | .exchangeComplete _ link => isLinkNo link
  | .exchangeFailed _ link => isLinkNo link
  | .timeFlitSend _ link => isLinkNo link
  | .timeFlitReceived _ link _ _ => isLinkNo link
  | .timeFlitMissing _ link => isLinkNo link
  | .upstreamSelect _ => true
  | .laneChangeAct _ link _ => isLinkNo link
  | .detectComplete _ link _ _ => isLinkNo link
  | .detectTimeout _ link => isLinkNo link
  | .patternComplete _ link _ _ => isLinkNo link
  | .amReceived _ link lane am => isLinkNo link && isLane lane && am.wf
  | .lockComplete _ link => isLinkNo link
  | .lossOfSignal _ tile lane _ => isTile tile && isLane lane
  | .towpathLockLost _ link => isLinkNo link
  | .laneFailing _ tile lane _ => isTile tile && isLane lane
  | .subReady _ link => isLinkNo link
  | .substitutionTimeout _ link => isLinkNo link
  | .l0pRequest _ link width => isLinkNo link && decide (width = 1 ∨ width = 2 ∨ width = 4 ∨ width = 8)
  | .l0pNarrow _ link => isLinkNo link
  | .l0pWiden _ link => isLinkNo link
  | .cxlLinkTrained _ link _ => isLinkNo link
  | .adaptationStep _ tile lane _ => isTile tile && isLane lane
  | .offsetRecalStep _ tile lane => isTile tile && isLane lane
  | .eyeMonitorMeasure _ tile lane _ _ => isTile tile && isLane lane
  | .laneMarginRequest _ link lane _ _ _ => isLinkNo link && isLane lane
  | .eyeScanDone _ tile lane _ => isTile tile && isLane lane
  | .configRequest _ link _ _ _ => isLinkNo link
  | .hostPowerControlWrite _ vcs vppb _ => decide (vcs < 256) && decide (vppb < 32)
  | .removeTimeout _ t => isTile t
  | .hotplugAddFailed _ t => isTile t
  | .ideEstablished _ link => isLinkNo link
  | .ideRefreshDue _ link => isLinkNo link
  | .ideRefreshFailed _ link => isLinkNo link
  | .reachResetE2 _ r => decide (r < 32)
  | .nocRequestTimeout _ _ _ => true
  | .nocPacketLost _ _ _ _ => true
  | .sluiceFenceRequest _ _ _ => true
  | .sluiceDrainDone _ _ => true
  | .sluiceForced _ _ => true
  | .domainPowerOn _ _ => true
  | .heartbeat _ => true
  | .mpcTakeover _ _ => true
  | .mpcRestart _ => true
  | .standbyReady _ => true
  | .serviceFrame _ => true
  | .shedLevel _ _ => true
  | .standbyImageVerified _ _ => true
  | .firmwareHandover _ => true
  | .sessionTimeout _ _ => true
  | .challengeExpiry _ slot mb => decide (slot < 16) && mb.wf
  | .lockoutEnd _ slot => decide (slot < 16)
  | .faultMessageTaken _ m => m.wf
  | .fatalLine _ => true
  | .fatalFault _ => true
  | .fatalUnidentified _ => true
  | .sampleCapture _ tile _ => isTile tile
  | .sampleCaptureTimeout _ tile _ => isTile tile
  | .sourceRecordHoldoff _ _ => true
  | .bwWindowBoundary _ link => isLinkNo link
  | .telemetryPush _ => true
  | .tableScrub _ _ => true
  | .wearLevelling _ _ => true
  | .floorMissed _ _ => true
  | .logFlush _ => true
  | .flashOpComplete _ _ _ => true
  | .feedValid _ g fd _ => decide (g < 8) && decide (fd < 2)
  | .feedInvalid _ g fd _ => decide (g < 8) && decide (fd < 2)
  | .feedWarning _ g fd _ => decide (g < 8) && decide (fd < 2)
  | .feedWarningClear _ g fd _ => decide (g < 8) && decide (fd < 2)
  | .changeoverMake _ t => isTile t
  | .feedRevert _ t => isTile t
  | .rampStart _ g => decide (g < 8)
  | .enhancementStart _ t _ => isTile t
  | .slotPowerGood _ t _ => isTile t
  | .attemptTimeout _ t => isTile t
  | .fastTrip _ t _ => isTile t
  | .breakerTrip _ t _ _ => isTile t
  | .retryStart _ t => isTile t
  | .attemptCountClear _ t => isTile t
  | .rampRestart _ t => isTile t
  | .slotUndervoltage _ t _ _ => isTile t
  | .adcSample _ t _ _ _ _ => isTile t
  | .avsUpdate _ _ _ => true
  | .pmbusPoll _ _ => true
  | .powerCapStep _ => true
  | .refclkValid _ c _ => decide (c < 2)
  | .refclkLost _ c => decide (c < 2)
  | .refclkBothLost _ => true
  | .thermalSample _ _ => true
  | .thermalWarning _ _ => true
  | .thermalWarningClear _ => true
  | .thermalShutdown _ _ => true
  | .rd _ link _ => isLinkNo link
  | .wr _ link _ => isLinkNo link
  | .atomic _ link _ => isLinkNo link
  | .lockRd _ link _ => isLinkNo link
  | .unlock _ link _ => isLinkNo link
  | .flush _ link _ => isLinkNo link
  | .snoop _ link _ => isLinkNo link
  | .pathHold _ link _ => isLinkNo link
  | .pathActivate _ link _ => isLinkNo link
  | .pathFree _ link _ => isLinkNo link
  | .rdData _ link _ => isLinkNo link
  | .wrCmp _ link _ => isLinkNo link
  | .atomicData _ link _ => isLinkNo link
  | .lockData _ link _ => isLinkNo link
  | .unlockCmp _ link _ => isLinkNo link
  | .flushDone _ link _ => isLinkNo link
  | .snoopRsp _ link _ => isLinkNo link
  | .err _ link _ => isLinkNo link
  | .pathRsp _ link _ => isLinkNo link
  | .bridgeTimeout _ tag => decide (tag < 2 ^ 16)
  | .discardExpired _ tag => decide (tag < 2 ^ 16)
  | .lockHoldLimit _ r => decide (r < 32)
  | .farLockLimit _ r => decide (r < 32)
  | .farFlushTimeout _ _ => true
  | .pathHoldExpiry _ _ handle => decide (handle < 2 ^ 32)
  | .pathReserveTimeout _ handle => decide (handle < 2 ^ 32)
  | .cxlLinkDown _ link => isLinkNo link
  | .laneLockLost _ tile lane => isTile tile && isLane lane
  | .lane9JudgementTimeout _ link => isLinkNo link
  | .refclkStartTestPass _ c => decide (c < 2)
  | .standbyFailed _ => true
  | .mpcRestartComplete _ => true
  | .slotPowerOff _ t => isTile t

end Sys2Proof
end

