-- ==== Sys2Proof/Tests/Slice0.lean ====
section
/-! SUPPORT. The model's own tests: ill-formed instructions that the checks refuse, values that the spec works out, and for each
statement with hypotheses a state and operands that meet them. -/

namespace Sys2Proof.Tests

set_option Elab.async false

open Sys2Proof Sys2Proof.Machine

/-! ### A small device -/

/-- Tile 1 is an Iggevo tile (link 4), link 0 an upstream port with its virtual switch, link 8 a downstream port; four tiles are in
service; a session of the Crypto Officer is open. -/
def dev : Dev :=
  { clk := { t6 := 10 ^ 10, tb48 := 8 * 10 ^ 10 }
    sec := { sessions := [{ id := 1, slot := 0, role := 4, mbx := .admin, last6 := 0, factory := false }], seeded := true }
    fab := { inSvc := [0, 1, 2, 3] }
    cxl := { tileCfg := [(1, 3)]
             port := [(0, { up := true, role := 1, mgr := true, ltssm := 4, rate := 5, width := 8, full := 8 }),
                      (8, { up := true, role := 2, ltssm := 4, rate := 5, width := 8, full := 8, devType := 1, lds := 1 })] }
    ig := [(4, { st := .active, txMask := 0xFF, rxMask := 0xFF, trained := 0xFF, gotAny := true })] }

/-- A state with a mode, its profile and a device. -/
def st (m : Mode) (d : Dev) : State :=
  { State.reset with mode := m, profile := if m.tenant then .balanced else .none, dev := d }

/-- A frame of the Crypto Officer's session. -/
def frame (b : Bytes) : Frame := { mbx := .admin, tag := 7, sid := 1, payload := b }

/-- The command accepts the payload in a mode and on a device: the hypothesis of its statement. -/
def takes (k : Cmd) (b : Bytes) (m : Mode := .configure) (d : Dev := dev) : Bool :=
  k.accepts (frame b) (st m d).mode (st m d).profile ((st m d).elapse 0).dev

/-! ### Bilod commands: frames that are accepted -/

theorem witness_ModeCommands : takes cmdModeGet [] ∧ takes (cmdModeSet true) (nb 1 0xB ++ zeros 7) ∧ modeSetLong (frame (nb 1 0xB ++ zeros 7))
    ∧ takes (cmdModeSet false) (nb 1 8 ++ zeros 3 ++ nb 2 350 ++ zeros 2) ∧ modeSetLong (frame (nb 1 8 ++ zeros 3 ++ nb 2 350 ++ zeros 2)) = false
    ∧ takes cmdServiceBegin (nb 1 4 ++ nb 1 3 ++ zeros 2) .runBalanced
    ∧ takes cmdServiceEnd [] .service { dev with ctl := { svc := some { op := 7, inst := 0, begun := true } } } := by decide +kernel

theorem witness_StagedCommands_1 : takes cmdContractSet (nb 1 0 ++ nb 1 4 ++ nb 2 8 ++ nb 4 0 ++ nb 4 64 ++ nb 4 0 ++ nb 4 (2 ^ 24) ++ zeros 8)
    ∧ takes cmdContractClear (nb 1 0 ++ nb 1 1 ++ nb 2 8) ∧ takes cmdProfileSet (zeros 2 ++ nb 2 0xFFFF ++ zeros 4)
    ∧ takes cmdRuleWrite (zeros 52) ∧ takes cmdRuleClear (zeros 2 ++ nb 2 100 ++ nb 4 1) ∧ takes cmdDefaultMapSet (zeros 52)
    ∧ takes cmdGateWindowSet (zeros 16) ∧ takes cmdGateModeSet (zeros 4)
    ∧ takes cmdMcastGroupSet (nb 2 1023 ++ zeros 2 ++ nb 1 2 ++ zeros 39) ∧ takes cmdBasinLayoutSet (zeros 4)
    ∧ takes cmdBasinMemoryBind (zeros 4) .configure { dev with conf := { active := [({ op := 0x4080 }, [24, 0, 0, 0])] } }
    ∧ takes cmdQueueThresholdSet (nb 2 0 ++ nb 1 7 ++ zeros 1 ++ nb 4 64 ++ zeros 4) := by decide +kernel

theorem witness_StagedCommands_2 : takes cmdSchedWeightSet (nb 2 4 ++ zeros 2 ++ [1, 1, 1, 1, 1] ++ zeros 3)
    ∧ takes cmdShaperSet (nb 2 0 ++ nb 1 8 ++ nb 1 1 ++ nb 4 1 ++ nb 4 64) ∧ takes cmdAliasWindowSet (zeros 16)
    ∧ takes cmdResvGranuleSet (zeros 4) ∧ takes cmdIggevoDeviceSet (nb 4 0xFFFFFFFE ++ zeros 4)
    ∧ takes cmdIggevoLinkSet (nb 2 4 ++ [15, 15] ++ zeros 4)
    ∧ takes cmdBridgeLinkSet (nb 2 4 ++ zeros 2 ++ nb 4 50000 ++ nb 4 100 ++ List.replicate 32 0xFF)
    ∧ takes cmdLaneConfigSet (nb 1 63 ++ nb 1 0xFF ++ nb 1 6 ++ zeros 5 ++ nb 2 1 ++ nb 1 100 ++ zeros 1)
    ∧ takes cmdPortConfigSet (nb 2 8 ++ nb 1 2 ++ nb 1 4 ++ nb 2 10080 ++ nb 2 1)
    ∧ takes cmdVppbBind (nb 2 0 ++ nb 1 30 ++ nb 1 0 ++ nb 2 8 ++ nb 1 0xFF ++ zeros 1 ++ nb 2 0xFFFF)
    ∧ takes cmdLdCoherenceSet (zeros 6) ∧ takes cmdBiRouteSet (nb 2 4 ++ zeros 1 ++ nb 1 2 ++ nb 2 1023)
    ∧ takes cmdReachCountSet (nb 1 32 ++ zeros 3) ∧ takes cmdReachAssign (zeros 4)
    ∧ takes cmdSlotConfigSet (nb 1 0xFF ++ nb 1 0xC ++ nb 2 800 ++ nb 1 8 ++ zeros 3) := by decide +kernel

theorem witness_AdmissionReads : takes cmdContractGet (nb 1 0 ++ nb 1 3 ++ nb 2 8 ++ nb 1 1) ∧ takes cmdProfileGet (nb 1 0 ++ nb 1 7)
    ∧ takes cmdCalendarGet (nb 4 4) ∧ takes cmdWeirStatusGet (nb 1 63 ++ zeros 1) ∧ takes cmdRuleRead (zeros 5)
    ∧ takes cmdRulesetStatusGet (zeros 1) ∧ takes cmdRuleLookup (zeros 12) ∧ takes cmdDefaultMapGet (zeros 2) ∧ takes cmdGateGet (zeros 4)
    ∧ takes cmdMcastGroupGet (nb 2 1023 ++ zeros 2) ∧ takes cmdFabricStatusGet [] ∧ takes cmdBasinStatusGet (zeros 1)
    ∧ takes cmdBasinMemoryGet (zeros 1) ∧ takes cmdQueueStatusGet (nb 2 8 ++ nb 1 7) ∧ takes cmdBufferStatusGet (nb 1 63) := by
  decide +kernel

theorem witness_LinkReads : takes cmdSchedGet (nb 2 4 ++ zeros 2) ∧ takes cmdSchedStatusGet (nb 2 8 ++ zeros 2) ∧ takes cmdAliasWindowGet (zeros 3)
    ∧ takes cmdOrderStatusGet (nb 2 8) ∧ takes cmdResvStatusGet (zeros 1) ∧ takes cmdIggevoLinkStatusGet (nb 2 4 ++ zeros 2)
    ∧ takes cmdTimeStatusGet [] ∧ takes cmdBridgeLinkGet (nb 2 4 ++ nb 1 1 ++ zeros 1) ∧ takes cmdLockStatusGet (zeros 4)
    ∧ takes cmdBridgeStatusGet (nb 2 4 ++ zeros 2)
    ∧ takes cmdLaneEyeGet (nb 1 2 ++ nb 1 9) .configure { dev with phy := { scan := [((2, 9), { res := some (8, 8, []) })] } }
    ∧ takes cmdLaneConfigGet (nb 1 63 ++ nb 1 9 ++ nb 1 1) ∧ takes cmdPortStatusGet (nb 2 4 ++ zeros 2)
    ∧ takes cmdIdeStatusGet (nb 2 8) := by decide +kernel

theorem witness_ManagementReads : takes cmdReachGet (nb 1 1 ++ zeros 3) ∧ takes cmdReachMapGet (zeros 4) ∧ takes cmdReachStatusGet (zeros 1)
    ∧ takes cmdNocStatsGet (zeros 4) ∧ takes cmdDomainStatusGet [] ∧ takes cmdIdentify []
    ∧ takes cmdResultGet (nb 2 3) .configure { dev with mgmt := { mbxs := [(.admin, { results := [(3, [])] })] } }
    ∧ takes cmdStagingStatusGet (zeros 2) ∧ takes cmdMpcStatusGet [] ∧ takes cmdSecurityStatusGet [] ∧ takes cmdCredentialGet (nb 1 15)
    ∧ takes cmdFaultStatusGet (nb 1 0 ++ zeros 3) ∧ takes cmdFaultSnapshotGet (zeros 4) ∧ takes cmdFaultHistoryRead (zeros 4 ++ nb 1 64 ++ zeros 3)
    ∧ takes cmdFaultRedundancyGet [] ∧ takes cmdFaultLogRead (zeros 4 ++ nb 1 64 ++ zeros 3) ∧ takes cmdFaultCountGet []
    ∧ takes cmdCounterConfigGet (zeros 4) ∧ takes cmdTallyRead (zeros 8) ∧ takes cmdBwWindowGet (nb 2 8 ++ zeros 2)
    ∧ takes cmdTraceRead (zeros 4 ++ nb 1 250 ++ zeros 3) ∧ takes cmdPercolatorStatusGet [] ∧ takes cmdSlotStatusGet (nb 1 63)
    ∧ takes cmdSlotConfigGet (nb 1 63 ++ nb 1 1) ∧ takes cmdFeedStatusGet (nb 1 7) ∧ takes cmdClockStatusGet []
    ∧ takes cmdImageStatusGet [] := by decide +kernel

/-- The small device with a replication group of links 0 and 8, a lock, a path and eight lanes of Iggevo calendar. -/
def busy : Dev :=
  { dev with
    conf := { active := [({ op := 0x7001, a := 5 }, nb 2 5 ++ zeros 2 ++ nb 1 5 ++ zeros 1 ++ zeros 2 ++ [1, 1] ++ zeros 34)] }
    brg := { near := [(0, { st := .held, owner := 0, link := 4, reach := 0, t6 := 0, trk := 1 })] }
    weir := { paths := [(0, { reach := 0, egress := 4, rate := 1, burst := 64, q := 1, hops := [], t6 := 0, phase := 0, long := none })] } }

theorem witness_TrafficCommands : takes cmdExpeditedReserve (nb 1 0 ++ zeros 1 ++ nb 2 4 ++ zeros 8)
    ∧ takes cmdPathReserve (nb 1 0 ++ nb 1 1 ++ nb 2 4 ++ nb 4 0 ++ nb 2 0 ++ zeros 2 ++ nb 2 255 ++ nb 1 31 ++ zeros 13)
    ∧ takes cmdPathRelease (zeros 4) .configure busy ∧ takes cmdReplicateWrite (nb 2 5 ++ zeros 2 ++ nb 8 64 ++ nb 4 64 ++ zeros 64) .runBalanced busy
    ∧ takes cmdBasinFill (zeros 28) ∧ takes cmdFabricFlush (nb 1 2 ++ zeros 3) .runBalanced
    ∧ takes cmdIggevoLaneWidthSet (nb 2 4 ++ nb 1 0xF ++ nb 1 3) ∧ takes cmdIggevoRetrain (nb 2 4 ++ zeros 2)
    ∧ takes cmdLockRelease (zeros 4) .runBalanced busy := by decide +kernel

theorem witness_PhysicalCommands : takes cmdLaneStatusGet (nb 1 2 ++ nb 1 7 ++ zeros 2) ∧ takes cmdLaneSpareSet (nb 1 2 ++ [1, 7, 0])
    ∧ takes cmdLaneEyeScan (nb 1 2 ++ [9, 64, 8] ++ nb 4 10000) ∧ takes cmdLaneTestSet (nb 1 2 ++ nb 1 6 ++ nb 2 0x3FF ++ nb 1 5 ++ zeros 11) .diagnostic
    ∧ takes cmdLaneTestGet (nb 1 63) ∧ takes cmdTileConfigSet (nb 1 63 ++ nb 1 3 ++ zeros 2) ∧ takes cmdHotplugRequest (nb 1 63 ++ nb 1 2 ++ zeros 2)
    ∧ takes cmdIdeKeyRefresh (nb 2 8 ++ zeros 2) .configure { dev with cxl := { dev.cxl with ide := [(8, { cxl := 2, io := 2 })] } }
    ∧ takes (cmdVppbUnbind true) (nb 2 0 ++ nb 1 30 ++ nb 1 1) ∧ takes (cmdVppbUnbind false) (nb 2 0 ++ nb 1 30 ++ nb 1 2)
    ∧ takes cmdVcsGet (zeros 3) ∧ takes cmdReachReset (zeros 4) ∧ takes cmdNocStatsClear (nb 4 0xFF)
    ∧ takes cmdSlotResetLatch (nb 1 63) .configure { dev with slots := { ch := [(63, { st := .latched, tries := 7 })] } }
    ∧ takes cmdSlotFeedSelect (nb 1 8 ++ nb 1 1) .configure { dev with slots := { feed := [(3, { valid := true, mv := 12000 })] } }
    ∧ takes cmdSupplyStatusGet [] ∧ takes cmdClockSelect (nb 1 1 ++ zeros 3) .configure { dev with pwr := { valid := [false, true] } }
    ∧ takes cmdShelfEnter [] .safe := by decide +kernel

theorem witness_ManagementCommands_1 : takes cmdEventRead (nb 1 64 ++ zeros 3) ∧ takes cmdStagingDiscard (zeros 4) ∧ takes cmdMpcSwitchover []
    ∧ takes (cmdCommit true) (zeros 8) .configure { dev with
        conf := { staged := [(0, { changes := [({ op := 0x5000 }, none)] })] }, art := { up := [true, false, true, true] } }
    ∧ Dev.commitWaits { dev with
        conf := { staged := [(0, { changes := [({ op := 0x5000 }, none)] })] }, art := { up := [true, false, true, true] } } (commitSet (frame (zeros 8)))
    ∧ takes (cmdCommit false) (zeros 8) ∧ dev.commitWaits (commitSet (frame (zeros 8))) = false
    ∧ takes cmdRulesetCommit (zeros 8 ++ nb 5 (10 ^ 10 / 6 / 1024 * 1024 + 4096) ++ zeros 3)
    ∧ takes cmdFmapiRequest (zeros 12) ∧ takes cmdFaultStatusClear (zeros 8 ++ nb 8 7) ∧ takes cmdFaultInject (zeros 16)
    ∧ takes cmdCounterConfigSet (zeros 20) ∧ takes cmdCounterRead ([0, 63, 7, 1]) ∧ takes cmdCounterWrite (zeros 12)
    ∧ takes cmdBwWindowSet (nb 2 8 ++ nb 1 20 ++ zeros 1) ∧ takes cmdSampleRead (nb 1 63 ++ nb 1 16 ++ zeros 2) := by decide +kernel

theorem witness_ManagementCommands_2 : takes cmdTraceSet (zeros 4) ∧ takes cmdTraceMarker (zeros 8)
    ∧ takes cmdTelemetrySet (nb 2 0 ++ nb 1 16 ++ nb 1 31 ++ nb 8 (2 ^ 22) ++ nb 2 1000 ++ zeros 2)
    ∧ takes cmdPercolatorSet (nb 1 5 ++ zeros 3 ++ nb 8 10) ∧ takes cmdSaveImage [] .safe ∧ takes cmdImageWrite (nb 1 2 ++ zeros 3 ++ zeros 8)
    ∧ takes cmdImageFinish (nb 1 1 ++ zeros 3 ++ nb 4 (2 ^ 24)) ∧ takes cmdImageInvalidate (nb 1 2 ++ nb 1 1 ++ zeros 2)
    ∧ takes cmdSecurityVersionAdvance [] .configure { dev with img := { copy := [(0, { valid := true, keyPair := 3 }), (1, { valid := true, keyPair := 0 })] } } := by
  decide +kernel

/-- The challenge of slot 0 whose proof the frame of zeros does not hold. -/
def challenged : Dev :=
  { dev with sec := { dev.sec with challs := [{ slot := 0, mbx := .admin, nonce := zeros 48, t6 := 10 ^ 10 }] } }

theorem witness_SecurityCommands : takes cmdSessionChallenge (zeros 4) ∧ takes cmdOpenSession (zeros 100) .configure challenged
    ∧ (challenged.challenge 0 .admin).isSome ∧ dev.challenge 0 .admin = none ∧ takes cmdCloseSession []
    ∧ takes cmdCredentialSet ([15, 1, 3, 1] ++ nb 4 1000000 ++ nb 2 128 ++ zeros 130) ∧ takes cmdSelfTestRun []
    ∧ takes cmdAuditRead (zeros 8 ++ nb 2 63) ∧ takes cmdZeroize (nb 4 0x5A45524F) ∧ takes cmdDebugEnable (nb 4 0x44424745) := by
  decide +kernel

/-- The proof that the host owes for the challenge of `challenged`. -/
def proof0 : Bytes := hostProof (challenged.cred 0).key (zeros 48) (zeros 48) 0 .admin

theorem witness_SecurityCommands_proof :
    takes cmdOpenSession (zeros 52 ++ proof0) .configure challenged = true
    ∧ slice (frame (zeros 52 ++ proof0)).payload 52 48 = proof0 := ⟨by decide +kernel, rfl⟩

theorem witness_SecurityCommands_wrong :
    takes cmdOpenSession (zeros 52 ++ proof0.map (· + 1)) .configure challenged = true
    ∧ slice (frame (zeros 52 ++ proof0.map (· + 1))).payload 52 48 ≠ proof0 := by
  refine ⟨by decide +kernel, fun h => ?_⟩
  have e : (proof0.map (· + 1)).getD 0 0 = proof0.getD 0 0 := congrArg (·.getD 0 0) h
  have f : (proof0.map (· + 1)).getD 0 0 = proof0.getD 0 0 + 1 := rfl
  rw [f] at e
  generalize proof0.getD 0 0 = x at e
  revert x; decide

/-! ### Events: states and operands that meet the conditions of their statements -/

/-- A condition of a row holds in some state. -/
def Met (ok : Mode → Profile → Dev → Prop) : Prop := ∃ (dt : Nat) (s : State), ok s.mode s.profile (s.elapse dt).dev

/-- A bridge message of an operation with a record or data of 64 bytes. -/
def brgMsg (op : Nat) (data : Bytes) (aop : Nat := 0) : Bytes := ({ op := op, cls := 3, reach := 0, len := 64, aop := aop } : BHead).bytes ++ data

/-- A path record of one hop. -/
def pathRec : Bytes := put (zeros 64) 16 [1, 1]

/-- A read of 64 bytes that waits at link 8. -/
def msg0 : Msg := { id := 1, link := 8, kind := 1, cls := 3, reach := 0, init := .link 8, acc := .read, len := 64 }

/-- Its tracker entry. -/
def trk0 : Trk :=
  { grp := 1, reach := 0, cls := 3, strict := false, init := .link 8, src := 8, dst := 4, kind := 1, acc := .read, addr := 0, len := 64
    msg := 1, t6 := 0 }

/-- A cell of it. -/
def cell0 (l : Loc) : Cell := { id := 3, msg := 1, dst := 4, src := 8, cls := 3, reach := 0, pin := false, kind := 1, loc := l }

/-- The device with messages in its ingress FIFOs. -/
def withQ (q : List Msg) : Dev := { dev with weir := { q := q, nextMsg := 100 } }

/-- The device with cells in its fabric and their messages. -/
def withCells (c : List Cell) (fly : Tbl Nat Msg := []) : Dev := { dev with fab := { inSvc := [0, 1, 2, 3], cells := c }, weir := { fly := fly } }

/-- A path from Reach 0 to link 4 that waits for its answer. -/
def path0 : Path := { reach := 0, egress := 4, rate := 1, burst := 64, q := 1, hops := [], t6 := 0 }

/-- A held path of a far switch. -/
def far0 : FarPath := { link := 4, egress := 8, reach := 0, q := 1, phase := 0, hop := 1, hops := 1, record := zeros 64, t6 := 0 }

/-- The device with tracker entries. -/
def withTrk (t : Tbl Nat Trk) : Dev := { dev with weir := { trk := t } }

/-- A write to Basin memory whose cells are all at port 0. -/
def basinMsg (a : Acc) (r : Bool) : Msg :=
  { id := 1, link := 8, kind := 1, cls := 3, reach := 0, init := .link 8, acc := a, len := 8, off := 56, data := [1, 2, 3, 4, 5, 6, 7, 8], resv := r }

/-- The device with that message at port 0. -/
def atPort (a : Acc) (r : Bool) (stack : List StackSt := [.inService, .inService]) : Dev :=
  { withCells [{ cell0 .port with dst := 0x100 }] [(1, basinMsg a r)] with
    bas := { stack := stack, clearing := [23] }, conf := { active := [({ op := 0x4080 }, [16, 8, 0, 0]), ({ op := 0x4082, a := 0 }, [0, 0, 0, 0])] } }

/-- The Fabric Flush that a host's flush read of a link becomes. -/
def flushOf (d : Dev) (l : Nat) : Msg :=
  { id := 0, link := l, kind := 7, cls := 3, reach := (d.owner l 0xFF).getD 0, init := .link l, acc := .flush, tIn := d.now, tP := d.now }

/-- The device with link 4 in a state. -/
def withIg (g : Ig) : Dev := { dev with ig := [(4, g)] }

/-- A flit of one message of one slot. -/
def flit1 : Flit := { hdr := 0xE0E0E0E0E0E0E063, slots := [zeros 64], crc := 0, errs := [0, 0, 0, 0] }

/-- That flit with the CRC that its bytes have, or another. -/
def flit0 (good : Bool) : Flit := { flit1 with crc := if good then crc64 (flitBody flit1) else crc64 (flitBody flit1) ^^^ 1 }

theorem flit0_body (g : Bool) : flitBody (flit0 g) = flitBody flit1 := by simp only [flit0, flitBody]

theorem flit0_ok : crc64 (flitBody (flit0 true)) = (flit0 true).crc := by rw [flit0_body]; simp only [flit0, if_true]

theorem crc_off : crc64 (flitBody (flit0 false)) ≠ (flit0 false).crc := by
  rw [flit0_body]
  simp only [flit0, Bool.false_eq_true, if_false]
  generalize crc64 (flitBody flit1) = c
  intro h
  have := congrArg (·.getLsbD 0) h
  simp at this

/-- A link record of switch 5 with the least credit figures of R210, and byte 1. -/
def linkRec (flags : Nat) : Bytes :=
  nb 1 1 ++ nb 1 flags ++ zeros 2 ++ nb 4 5 ++ zeros 6 ++ nb 2 384 ++ (List.replicate 6 (nb 2 64)).flatten ++ (List.replicate 6 (nb 2 384)).flatten
    ++ zeros 24

/-- An alignment marker of a lane. -/
def mark (n : Nat) (ok : Bool := true) : AMark := { lane := n, flags := 0, countdown := 16, rxMask := 0xFF, sub := 0xF, checkOk := ok }

/-- A misaligned AtomicOp of 8 bytes. -/
def brgOdd : Bytes := ({ op := 3, cls := 3, reach := 0, len := 64, aop := 4, addr := 4 } : BHead).bytes ++ zeros 64

/-- A write of configuration copy B that has begun. -/
def job0 : FlashJob := { op := 0xB002, mbx := .admin, tag := 7, copy := 3, after := {}, reply := [] }

/-- The highest set point, 780 mV, is enough for every state and temperature. -/
theorem avs_fits (d : Dev) (f : Nat) : 780 ≥ d.avsFor f := Nat.min_le_left _ _

theorem avs_floor_fits (d : Dev) : max 680 d.avsFloor ≤ 780 := by
  unfold Dev.avsFloor
  split <;> simp only [Nat.max_le] <;> simp [avs_fits]

theorem witness_PathMessages :
    (∃ l msg, Met (fun _ _ d => hears 0x08 l msg d))
    ∧ (∃ l msg, Met (fun _ _ d => hears 0x09 l msg d))
    ∧ (∃ l msg, Met (fun _ _ d => hears 0x0A l msg d
      ∧ leN (d.brgTake l msg).1.data 4 4 = ((d.brgTake l msg).2.freeCredit l (d.brgTake l msg).1.cred).switchId))
    ∧ (∃ l msg, Met (fun _ _ d => hears 0x18 l msg d
      ∧ leN (d.brgTake l msg).1.data 4 4 = ((d.brgTake l msg).2.freeCredit l (d.brgTake l msg).1.cred).switchId))
    ∧ (∃ o h y, Met (fun _ _ d => d.brg.paths.get? (o, h) = some y ∧ y.active = false ∧ y.epoch = none ∧ 40 * ms6 ≤ d.since y.t6))
    ∧ (∃ h x, Met (fun _ _ d => d.weir.paths.get? h = some x ∧ x.stage < 2 ∧ x.freeing = false ∧ 20 * ms6 ≤ d.since x.t6)) :=
  ⟨⟨4, brgMsg 0x08 pathRec, 0, st .configure dev, by unfold hears; decide +kernel⟩,
   ⟨4, brgMsg 0x09 pathRec, 0, st .configure dev, by unfold hears; decide +kernel⟩,
   ⟨4, brgMsg 0x0A pathRec, 0, st .configure dev, by unfold hears; decide +kernel⟩,
   ⟨4, brgMsg 0x18 pathRec, 0, st .configure dev, by unfold hears; decide +kernel⟩,
   ⟨9, 0, far0, 0, st .configure { dev with brg := { paths := [((9, 0), far0)] } }, by decide +kernel⟩,
   ⟨0, path0, 0, st .configure { dev with weir := { paths := [(0, path0)] } }, by decide +kernel⟩⟩

theorem witness_FabricEvents_1 :
    (∃ pl, Met (fun _ _ d => d.planesUsed.contains pl = true))
    ∧ (∃ pl, Met (fun _ _ d => d.planesUsed.contains pl = true))
    ∧ (∃ id c stage src tile plane, Met (fun _ _ d => d.fab.cells.find? (fun c => decide (c.id = id)) = some c
      ∧ c.loc = .flight stage src tile plane ∧ c.elig ≤ d.clk.cyc))
    ∧ (∃ id c stage src tile plane, Met (fun _ _ d => d.fab.cells.find? (fun c => decide (c.id = id)) = some c
      ∧ c.loc = .flight stage src tile plane ∧ c.elig ≤ d.clk.cyc))
    ∧ (∃ id c stage src tile plane, Met (fun _ _ d => d.fab.cells.find? (fun c => decide (c.id = id)) = some c
      ∧ c.loc = .flight stage src tile plane ∧ c.elig ≤ d.clk.cyc))
    ∧ (∃ id c stage src tile plane, Met (fun _ _ d => d.fab.cells.find? (fun c => decide (c.id = id)) = some c
      ∧ c.loc = .flight stage src tile plane ∧ c.elig ≤ d.clk.cyc))
    ∧ (∃ e, Met (fun _ _ d => (d.fab.relNext.any fun x => decide (destOf x.1.dst = e) && decide (x.1.sp ≠ .pinned) && decide (d.fab.acked.getD x.1 0 < x.2)) = true))
    ∧ (∃ src e sp seq c, Met (fun _ _ d =>
        let k : SpaceKey := { src, dst := e, sp := sp, par := ! d.fab.parity }
        let n := d.relNext k
        sp ≠ .pinned
      ∧ n % 65536 = seq ∧ d.fab.holds.contains (k, n) = false
      ∧ d.gated k = false
        ∧ (d.fab.cells.any fun c => c.loc == .lock && decide (c.space = k) && decide (d.cycles6 (d.clk.cyc - c.elig) ≥ 2 * us6)) = true
        ∧ d.fab.cells.find? (fun c => c.numbered && decide (c.kind ≠ 0xB) && decide (c.space = k) && decide (c.seq = n)) = some c))
    ∧ (∃ i t, Met (fun _ _ d => d.weir.trk.get? i = some t ∧ t.group.isSome = true ∧ t.left = [] ∧ t.done = false ∧ t.init ≠ .mpc))
    ∧ (∃ i t r, Met (fun _ _ d => d.weir.trk.get? i = some t ∧ t.group.isSome = true ∧ t.left = [] ∧ t.done = false ∧ t.init = .mpc
      ∧ (d.dropTrk i).fab.repl.get? t.grp = some r))
    ∧ (∃ pl bist, Met (fun _ _ d => pl < 2 ∧ d.fab.planes.getD pl false = true
      ∧ (bist = true ∨ 16 ≤ ((d.fab.fails.getD pl []).filter fun t => decide (d.since t < ms6)).length)))
    ∧ (∃ r, Met (fun _ _ d => d.fab.repat = some r ∧ d.fab.closing = [] ∧ d.fab.cells.any (d.owed r) = false)) :=
  ⟨⟨1, 0, st .runBalanced dev, by decide +kernel⟩,
   ⟨0, 0, st .runBalanced dev, by decide +kernel⟩,
   ⟨3, cell0 (.flight 1 2 3 0), 1, 2, 3, 0, 0, st .configure (withCells [cell0 (.flight 1 2 3 0)]), by decide +kernel⟩,
   ⟨3, cell0 (.flight 1 2 3 0), 1, 2, 3, 0, 0, st .configure (withCells [cell0 (.flight 1 2 3 0)]), by decide +kernel⟩,
   ⟨3, cell0 (.flight 1 2 3 0), 1, 2, 3, 0, 0, st .configure (withCells [cell0 (.flight 1 2 3 0)]), by decide +kernel⟩,
   ⟨3, cell0 (.flight 1 2 3 0), 1, 2, 3, 0, 0, st .configure (withCells [cell0 (.flight 1 2 3 0)]), by decide +kernel⟩,
   ⟨1,
     0, st .runBalanced { dev with fab := { relNext := [({ src := 8, dst := 4, sp := .bulk, par := false }, 1)] } }, by decide +kernel⟩,
   ⟨2, 4, .standard, 0, { cell0 .lock with numbered := true },
     0, st .runBalanced { dev with clk := { cyc := 6000 }, fab := { parity := true, cells := [{ cell0 .lock with numbered := true }] } }, by dsimp only; decide +kernel⟩,
   ⟨5, { trk0 with group := some 7 }, 0, st .runBalanced (withTrk [(5, { trk0 with group := some 7 })]), by decide +kernel⟩,
   ⟨5, { trk0 with group := some 7, init := .mpc }, { long := (.admin, 7), group := 7, parts := 1 },
     0, st .runBalanced { withTrk [(5, { trk0 with group := some 7, init := .mpc })] with fab := { repl := [(1, { long := (.admin, 7), group := 7, parts := 1 })] } }, by decide +kernel⟩,
   ⟨1, false, 0, st .runBalanced { dev with fab := { fails := [(1, List.replicate 16 (10 ^ 10 - 1))] } }, by decide +kernel⟩,
   ⟨{ tiles := [3], join := false, t6 := 0 },
     0, st .runBalanced { dev with fab := { repat := some { tiles := [3], join := false, t6 := 0 } } }, by decide +kernel⟩⟩

theorem witness_FabricEvents_2 :
    (∃ r, Met (fun _ _ d => d.fab.repat = some r ∧ 100 * us6 ≤ d.since r.t6)) :=
  ⟨{ tiles := [3], join := false, t6 := 10 ^ 10 - 600000 }, 0, st .runBalanced { dev with fab := { repat := some { tiles := [3], join := false, t6 := 10 ^ 10 - 600000 } } }, by decide +kernel⟩

theorem witness_BasinEvents_1 :
    (∃ l q c, Met (fun _ p d => d.firstHeld l q = some c ∧ d.takesBack p l q = true))
    ∧ (∃ id c st, Met (fun _ _ d => d.fab.cells.find? (fun c => decide (c.id = id)) = some c ∧ c.loc = .basin st))
    ∧ (∃ k, Met (fun _ _ d => k < 2 ∧ d.bas.stack.getD k .lost = .inService))
    ∧ (∃ port id x, Met (fun _ _ d => d.portMsg port id = some x ∧ d.bas.stack.getD port .lost = .lost))
    ∧ (∃ (dt : Nat) (s : State) (port id : Nat) (x : Msg), (s.elapse dt).dev.portMsg port id = some x
      ∧ (s.elapse dt).dev.bas.stack.getD port .lost ≠ .lost ∧ x.acc = .read ∧ x.resv = false)
    ∧ (∃ (dt : Nat) (s : State) (port id : Nat) (x : Msg), (s.elapse dt).dev.portMsg port id = some x
      ∧ (s.elapse dt).dev.bas.stack.getD port .lost ≠ .lost ∧ x.acc = .read ∧ x.resv = true)
    ∧ (∃ (dt : Nat) (s : State) (port id : Nat) (x : Msg), (s.elapse dt).dev.portMsg port id = some x
      ∧ (s.elapse dt).dev.bas.stack.getD port .lost ≠ .lost ∧ x.acc = .write ∧ x.resv = false)
    ∧ (∃ (dt : Nat) (s : State) (port id : Nat) (x : Msg), (s.elapse dt).dev.portMsg port id = some x
      ∧ (s.elapse dt).dev.bas.stack.getD port .lost ≠ .lost ∧ x.acc = .write ∧ x.resv = true)
    ∧ (∃ (dt : Nat) (s : State) (port id : Nat) (x : Msg) (aop n : Nat) (v : Bytes), (s.elapse dt).dev.portMsg port id = some x
      ∧ (s.elapse dt).dev.bas.stack.getD port .lost ≠ .lost ∧ x.acc = .atomic aop n ∧ (n = 4 ∨ n = 8 ∨ (n = 16 ∧ aop = 2))
      ∧ aopResult aop n (s.mem.read x.off n) x.data = some v)
    ∧ (∃ (dt : Nat) (s : State) (port id : Nat) (x : Msg) (aop n : Nat), (s.elapse dt).dev.portMsg port id = some x
      ∧ (s.elapse dt).dev.bas.stack.getD port .lost ≠ .lost ∧ x.acc = .atomic aop n ∧ ¬ (n = 4 ∨ n = 8 ∨ (n = 16 ∧ aop = 2)))
    ∧ (∃ k line, Met (fun _ _ d => k < 2 ∧ line < stackLines ∧ d.bas.stack.getD k .lost = .inService))
    ∧ (∃ k line, Met (fun _ _ d => k < 2 ∧ line < stackLines ∧ d.bas.stack.getD k .lost = .inService)) :=
  ⟨⟨4, 7, { cell0 (.basin 1) with q := 7 },
     0, st .runBalanced { withCells [{ cell0 (.basin 1) with q := 7 }] with bas := { qst := [((4, 7), .overflow)] } }, by decide +kernel⟩,
   ⟨3, cell0 (.basin 1), 1, 0, st .runBalanced (withCells [cell0 (.basin 1)]), by decide +kernel⟩,
   ⟨1, 0, st .runBalanced dev, by decide +kernel⟩,
   ⟨0, 1, basinMsg .read false, 0, st .runBalanced (atPort .read false [.lost, .inService]), by decide +kernel⟩,
   ⟨0, st .runBalanced (atPort .read false), 0, 1, basinMsg .read false, by decide +kernel⟩,
   ⟨0, st .runBalanced (atPort .read true), 0, 1, basinMsg .read true, by decide +kernel⟩,
   ⟨0, st .runBalanced (atPort .write false), 0, 1, basinMsg .write false, by decide +kernel⟩,
   ⟨0, st .runBalanced (atPort .write true), 0, 1, basinMsg .write true, by decide +kernel⟩,
   ⟨0, st .runBalanced (atPort (.atomic 1 8) false), 0, 1, basinMsg (.atomic 1 8) false, 1, 8, [1, 2, 3, 4, 5, 6, 7, 8], by decide +kernel⟩,
   ⟨0, st .runBalanced (atPort (.atomic 0 16) false), 0, 1, basinMsg (.atomic 0 16) false, 0, 16, by decide +kernel⟩,
   ⟨1, stackLines - 1, 0, st .runBalanced dev, by decide +kernel⟩,
   ⟨1, stackLines - 1, 0, st .runBalanced dev, by decide +kernel⟩⟩

theorem witness_BasinEvents_2 :
    (∃ (dt : Nat) (s : State) (k line off : Nat), k < 2 ∧ line < stackLines
      ∧ (s.elapse dt).dev.bas.stack.getD k .lost = .inService
      ∧ (((s.elapse dt).dev.lineError k).scrubbed k line).stackOffset k (line * 64) = some off)
    ∧ (∃ k cause, Met (fun _ _ d => k < 2 ∧ d.bas.stack.getD k .lost ≠ .lost ∧ 1 ≤ cause ∧ cause ≤ 3
      ∧ (cause = 2 → 16 ≤ ((d.bas.errs.getD k []).filter fun t => decide (d.since t < s6)).length)))
    ∧ (∃ g, Met (fun _ _ d => d.bas.clearing.contains g = true)) :=
  ⟨⟨0, st .runBalanced (atPort .read false), 1, 0, 16 * gib, by decide, by decide +kernel, by decide +kernel, by decide +kernel⟩,
   ⟨1, 2, 0, st .runBalanced { dev with bas := { errs := [(1, List.replicate 16 (10 ^ 10))] } }, by decide +kernel⟩,
   ⟨23, 0, st .runBalanced (atPort .read false), by decide +kernel⟩⟩

theorem witness_AdmissionEvents_1 :
    (∃ t x, Met (fun m _ d => d.weirPick m t = some x))
    ∧ (∃ src x, Met (fun m _ d => d.weir.q.find? (fun x => decide (x.link = src) && x.queued && ! d.barred m x) = some x))
    ∧ (∃ (t : Nat) (bx by_ : EntryRead), Met (fun _ _ d => let b := if t < 32 then 0 else 2
        d.art.up.getD b true = true
      ∧ d.art.up.getD (b + 1) true = true ∧ bx.ecc = 1 ∧ by_.ecc = 0))
    ∧ (∃ (t : Nat) (bx by_ z : EntryRead), Met (fun _ _ d => let b := if t < 32 then 0 else 2
        d.art.up.getD b true = true
      ∧ d.art.up.getD (b + 1) true = true ∧ bx.ecc = 0 ∧ by_.ecc = 0 ∧ bx.entry ≠ by_.entry ∧ z.entry = bx.entry))
    ∧ (∃ l x t0, Met (fun m p d => d.head m l 1 = some x ∧ x.firstT = some t0 ∧ 2048 * 6 ≤ d.since t0 ∧ x.rsp = none ∧ x.acc ≠ .none
      ∧ x.demoted = false ∧ (1 ≤ x.colour ∨ ((d.judgeMsg p x).targets.any fun t => d.timeDegraded t.e) = true)))
    ∧ (∃ t, Met (fun m p d => capped m p = true ∧ t < 64 ∧ d.tileBound t = false ∧ d.tileWork t = false
      ∧ ms6 ≤ d.since (d.weir.lastAdm.getD t 0)))
    ∧ (∃ t, Met (fun _ _ _ => t < 64))
    ∧ (∃ l, Met (fun _ _ d => d.curRate l ≠ 0 ∧ d.egr.stall.contains l = false ∧ d.isIggevo l = false))
    ∧ (∃ l f rest, Met (fun _ _ d => d.curRate l ≠ 0 ∧ d.egr.stall.contains l = false ∧ d.isIggevo l = true
      ∧ (d.igg l).resend = f :: rest))
    ∧ (∃ l, Met (fun _ _ d => d.curRate l ≠ 0 ∧ d.egr.stall.contains l = false ∧ d.isIggevo l = true ∧ (d.igg l).resend = []
      ∧ (d.igg l).full = true))
    ∧ (∃ l id x i, Met (fun _ _ d => d.weir.fly.get? id = some x ∧ d.cellsOf id ≠ []
      ∧ ((d.cellsOf id).all fun c => decide (c.dst = l) && c.loc == .sent) = true ∧ x.trk = some i))
    ∧ (∃ l id x i, Met (fun _ _ d => d.weir.fly.get? id = some x ∧ d.cellsOf id ≠ []
      ∧ ((d.cellsOf id).all fun c => decide (c.dst = l) && c.loc == .sent) = true ∧ x.trk = none ∧ x.rsp = some i)) :=
  ⟨⟨2, msg0, 0, st .runBalanced (withQ [msg0]), by decide +kernel⟩,
   ⟨8, { msg0 with queued := true }, 0, st .runBalanced (withQ [{ msg0 with queued := true }]), by decide +kernel⟩,
   ⟨31, { entry := 0, ecc := 1 }, { entry := 0, ecc := 0 }, 0, st .runBalanced dev, by dsimp only; decide +kernel⟩,
   ⟨32, { entry := 0, ecc := 0 }, { entry := 1, ecc := 0 }, { entry := 0, ecc := 0 },
     0, st .runBalanced dev, by dsimp only; decide +kernel⟩,
   ⟨8, { msg0 with cls := 1, firstT := some (10 ^ 10 - 12288), colour := 1 }, 10 ^ 10 - 12288,
     0, st .runBalanced (withQ [{ msg0 with cls := 1, firstT := some (10 ^ 10 - 12288), colour := 1 }]), by decide +kernel⟩,
   ⟨63, 0, { st .runPowerCapped dev with profile := .powerCapped }, by decide +kernel⟩,
   ⟨63, 0, st .runBalanced dev, by decide +kernel⟩,
   ⟨8, 0, st .runBalanced dev, by decide +kernel⟩,
   ⟨4, { seq := 0, slots := [] }, [],
     0, st .runBalanced { dev with ig := [(4, { st := .active, txMask := 1, resend := [{ seq := 0, slots := [] }] })] }, by decide +kernel⟩,
   ⟨4,
     0, st .runBalanced { dev with ig := [(4, { st := .active, txMask := 1, replay := List.replicate 512 { seq := 0, slots := [] } })] }, by decide +kernel⟩,
   ⟨4, 1, { msg0 with trk := some 5 }, 5,
     0, st .runBalanced (withCells [cell0 .sent] [(1, { msg0 with trk := some 5 })]), by decide +kernel⟩,
   ⟨4, 1, { msg0 with acc := .none, rsp := some 5 }, 5,
     0, st .runBalanced (withCells [cell0 .sent] [(1, { msg0 with acc := .none, rsp := some 5 })]), by decide +kernel⟩⟩

theorem witness_AdmissionEvents_2 :
    (∃ l, Met (fun _ _ d => d.isLink l = true))
    ∧ (∃ l, Met (fun _ _ d => d.curRate l ≠ 0 ∧ d.egr.stall.contains l = false)) :=
  ⟨⟨0, 0, st .runBalanced dev, by decide +kernel⟩,
   ⟨4, 0, st .runBalanced dev, by decide +kernel⟩⟩

theorem witness_OrderAndNocEvents :
    (∃ l y, Met (fun m _ d => d.isCxl l = true ∧ (d.port l).up = true ∧ (d.ingress (flushOf d l)).head m l 3 = some y
      ∧ y.id ≠ d.weir.nextMsg))
    ∧ (∃ l y, Met (fun m _ d => d.isCxl l = true ∧ (d.port l).up = true ∧ (d.ingress (flushOf d l)).head m l 3 = some y
      ∧ y.id = d.weir.nextMsg ∧ (d.ingress (flushOf d l)).behind y = false))
    ∧ (∃ id f, Met (fun _ _ d => d.ord.flush.find? (fun f => decide (f.id = id)) = some f ∧ d.flushReady f = true))
    ∧ (∃ l w x a, Met (fun m p d => d.head m l 3 = some x ∧ (d.judgeMsg p x).page = true
      ∧ d.aliasAt x.reach x.addr = some (w, a, true) ∧ d.orderHeld p x (d.judgeMsg p x) 3 = false))
    ∧ (∃ k t cause, Met (fun _ _ d => d.noc.dom.get? k = some (.fencing t cause)))
    ∧ (∃ k t cause, Met (fun _ _ d => d.noc.dom.get? k = some (.fencing t cause) ∧ 100 * us6 ≤ d.since t)) :=
  ⟨⟨8, msg0, 0, st .runBalanced (withQ [msg0]), by decide +kernel⟩,
   ⟨8, { flushOf dev 8 with id := 1, grp := 1 }, 0, st .runBalanced dev, by decide +kernel⟩,
   ⟨2, { id := 2, init := .link 8, reach := 0, t6 := 0, waits := [] },
     0, st .runBalanced { dev with ord := { flush := [{ id := 2, init := .link 8, reach := 0, t6 := 0, waits := [] }] } }, by decide +kernel⟩,
   ⟨8, 7, { msg0 with addr := 2 * pageBytes }, pageBytes,
     0, st .runBalanced { withQ [{ msg0 with addr := 2 * pageBytes }] with conf := { active := [({ op := 0x0F01, a := 0, b := 7 }, [0, 7, 1, 0] ++ nb 5 1 ++ zeros 7)] } }, by decide +kernel⟩,
   ⟨63, 0, 1, 0, st .runBalanced { dev with noc := { dom := [(63, .fencing 0 1)] } }, by decide +kernel⟩,
   ⟨95, 10 ^ 10 - 600000, 2,
     0, st .runBalanced { dev with noc := { dom := [(95, .fencing (10 ^ 10 - 600000) 2)] } }, by decide +kernel⟩⟩

theorem witness_IggevoEvents_1 :
    (∃ (l : Nat) (fl : Flit), Met (fun _ _ d => d.isIggevo l = true ∧ ((d.igg l).st = .active ∨ (d.igg l).st = .exchange)
      ∧ fl.errs.any (fun n => decide (n > 5)) = true))
    ∧ (∃ (l : Nat) (fl : Flit), Met (fun _ _ d => d.isIggevo l = true ∧ ((d.igg l).st = .active ∨ (d.igg l).st = .exchange)
      ∧ fl.errs.any (fun n => decide (n > 5)) = false ∧ fl.errs.sum = 0 ∧ crc64 (flitBody fl) ≠ fl.crc))
    ∧ (∃ (l : Nat) (fl : Flit) (tr : Tbl Nat (Nat × List Bytes)) (msgs : List (Bytes × Nat)), Met (fun _ _ d =>
        let h := fl.hdr.toNat
        let g := d.igg l
        d.isIggevo l = true
      ∧ g.st = .active ∧ g.pCd = 1 ∧ fl.errs.any (fun n => decide (n > 5)) = false
      ∧ fl.errs.sum = 0
        ∧ crc64 (flitBody fl) = fl.crc ∧ bits h 127 124 ≠ 1
      ∧ ((List.range 8).map (flitDesc h)).any (fun x => decide (x / 32 ≠ 7)) = true
        ∧ bits h 123 112 = g.e
        ∧ takeSlots g.tracks (((List.range 8).map (flitDesc h)).zip ((List.range 8).map fun k => fit 64 (fl.slots.getD k []))) = some (tr, msgs)
        ∧ badHeader false h = false))
    ∧ (∃ l t, Met (fun _ _ d => (d.igg l).ackT = some t ∧ 1200 ≤ d.since t))
    ∧ (∃ l t, Met (fun _ _ d => (d.igg l).outst = some t ∧ 2 * us6 ≤ d.since t))
    ∧ (∃ (l : Nat) (cause : Nat), Met (fun _ _ d => d.isIggevo l = true ∧ cause ∈ [1, 2, 3, 0x10, 0x11]))
    ∧ (∃ l, Met (fun _ _ d => d.isIggevo l = true ∧ (d.igg l).st = .active))
    ∧ (∃ l, Met (fun _ _ d => d.isIggevo l = true ∧ (d.igg l).resume = true ∧ (d.igg l).st ≠ .active ∧ 10 * ms6 ≤ d.since (d.igg l).t6))
    ∧ (∃ l r, Met (fun _ _ d => d.isIggevo l = true ∧ (d.igg l).st = .exchange ∧ recordBad r = true))
    ∧ (∃ l r, Met (fun _ _ d => d.isIggevo l = true ∧ (d.igg l).st = .exchange ∧ recordBad r = false ∧ byteAt r 0 = 1
      ∧ leN r 4 4 ≠ d.switchId ∧ recordCredit r = true ∧ (d.igg l).resume = true ∧ (byteAt r 1).testBit 3 = false))
    ∧ (∃ l r, Met (fun _ _ d => d.isIggevo l = true ∧ (d.igg l).st = .exchange ∧ recordBad r = false ∧ byteAt r 0 = 1
      ∧ leN r 4 4 ≠ d.switchId ∧ recordCredit r = true ∧ (d.igg l).resume = false))
    ∧ (∃ l, Met (fun _ _ d => d.isIggevo l = true ∧ (d.igg l).st = .exchange ∧ (d.igg l).exCd ≠ 0 ∧ (d.igg l).resume = false)) :=
  ⟨⟨4, { flit0 true with errs := [0, 0, 0, 6] }, 0, st .runBalanced dev, by decide +kernel⟩,
   ⟨4, flit0 false, 0, st .runBalanced dev, by decide +kernel, by decide +kernel, by decide +kernel, by decide +kernel, crc_off⟩,
   ⟨4, flit0 true, [], [(zeros 64, 3)],
     0, st .runBalanced (withIg { st := .active, pCd := 1, txMask := 0xFF, rxMask := 0xFF, trained := 0xFF }), by decide +kernel, by decide +kernel, by decide +kernel, by decide +kernel, by decide +kernel, flit0_ok, by decide +kernel, by decide +kernel, by decide +kernel, by rfl, by decide +kernel⟩,
   ⟨4, 10 ^ 10 - 1200,
     0, st .runBalanced (withIg { st := .active, pCd := 1, txMask := 0xFF, rxMask := 0xFF, trained := 0xFF, ackT := some (10 ^ 10 - 1200) }), by decide +kernel⟩,
   ⟨4, 10 ^ 10 - 12000,
     0, st .runBalanced (withIg { st := .active, pCd := 1, txMask := 0xFF, rxMask := 0xFF, trained := 0xFF, outst := some (10 ^ 10 - 12000) }), by decide +kernel⟩,
   ⟨4, 0x11, 0, st .runBalanced dev, by decide +kernel⟩,
   ⟨4, 0, st .runBalanced dev, by decide +kernel⟩,
   ⟨4, 0, st .runBalanced (withIg { st := .detect, resume := true }), by decide +kernel⟩,
   ⟨4, linkRec 16, 0, st .runBalanced (withIg { st := .exchange }), by decide +kernel⟩,
   ⟨4, linkRec 7, 0, st .runBalanced (withIg { st := .exchange, resume := true }), by decide +kernel⟩,
   ⟨4, linkRec 15, 0, st .runBalanced (withIg { st := .exchange }), by decide +kernel⟩,
   ⟨4, 0, st .runBalanced (withIg { st := .exchange, exCd := 1 }), by decide +kernel⟩⟩

theorem witness_IggevoEvents_2 :
    (∃ l, Met (fun _ _ d => d.isIggevo l = true ∧ (d.igg l).st = .exchange ∧ 100 * us6 ≤ d.since (d.igg l).stageT))
    ∧ (∃ l, Met (fun _ _ d => d.isIggevo l = true ∧ (d.igg l).st = .active ∧ (d.igg l).cd = none
      ∧ (d.igg l).tfSent ≠ some (d.now / 8192)))
    ∧ (∃ l r n, Met (fun _ _ d => d.isIggevo l = true ∧ (d.igg l).st = .active ∧ (d.igg l).pCd = 1 ∧ recordBad r = false
      ∧ recordTimes r n = none))
    ∧ (∃ l r n delay theta, Met (fun _ _ d => d.isIggevo l = true ∧ (d.igg l).st = .active ∧ (d.igg l).pCd = 1 ∧ recordBad r = false
      ∧ recordTimes r n = some (delay, theta)))
    ∧ (∃ l, Met (fun _ _ d => d.isIggevo l = true ∧ (d.igg l).st = .active ∧ 196608 ≤ d.since (d.igg l).tfT))
    ∧ (∃ x, Met (fun m _ d => m.tenant = false ∧ bestTime d.timeOffers = some x ∧ betterTime x (d.switchId, 0, 0) = true))
    ∧ (∃ x, Met (fun m _ d => m.tenant = false ∧ bestTime d.timeOffers = some x ∧ betterTime x (d.switchId, 0, 0) = false)) :=
  ⟨⟨4, 0, st .runBalanced (withIg { st := .exchange, stageT := 10 ^ 10 - 600000 }), by decide +kernel⟩,
   ⟨4, 0, st .runBalanced (withIg { st := .active, pCd := 1, txMask := 0xFF, rxMask := 0xFF, trained := 0xFF }), by decide +kernel⟩,
   ⟨4, put (linkRec 0) 46 (List.replicate 6 0xFF), 0,
     0, st .runBalanced (withIg { st := .active, pCd := 1, txMask := 0xFF, rxMask := 0xFF, trained := 0xFF }), by decide +kernel⟩,
   ⟨4, linkRec 0, 96, 48, 48,
     0, st .runBalanced (withIg { st := .active, pCd := 1, txMask := 0xFF, rxMask := 0xFF, trained := 0xFF }), by decide +kernel⟩,
   ⟨4,
     0, st .runBalanced (withIg { st := .active, pCd := 1, txMask := 0xFF, rxMask := 0xFF, trained := 0xFF, tfT := 10 ^ 10 - 196608 }), by decide +kernel⟩,
   ⟨(8, 254, 4),
     0, st .configure { dev with conf := { active := [({ op := 0x7010 }, nb 4 9 ++ zeros 4)] }, ig := [(4, { st := .active, pVer := 1, pRoot := 8, pHops := 254 })] }, by decide +kernel⟩,
   ⟨(10, 254, 4),
     0, st .configure { dev with conf := { active := [({ op := 0x7010 }, nb 4 9 ++ zeros 4)] }, ig := [(4, { st := .active, pVer := 1, pRoot := 10, pHops := 254 })] }, by decide +kernel⟩⟩

theorem witness_BridgeEvents_1 :
    (∃ l msg, Met (fun _ _ d => hears 0x01 l msg d))
    ∧ (∃ l msg, Met (fun _ _ d => hears 0x02 l msg d))
    ∧ (∃ l msg, Met (fun _ _ d => hears 0x04 l msg d))
    ∧ (∃ l msg op n, Met (fun _ _ d => hears 0x03 l msg d ∧ (d.brgTake l msg).1.h.acc = .atomic op n
      ∧ (d.brgTake l msg).1.h.addr % n = 0))
    ∧ (∃ l msg op n, Met (fun _ _ d => hears 0x03 l msg d ∧ (d.brgTake l msg).1.h.acc = .atomic op n
      ∧ (d.brgTake l msg).1.h.addr % n ≠ 0))
    ∧ (∃ l msg, Met (fun _ _ d => hears 0x05 l msg d
      ∧ ((d.brgTake l msg).2.freeCredit l (d.brgTake l msg).1.cred).brg.far.get? (d.brgTake l msg).1.h.reach = none))
    ∧ (∃ l msg k, Met (fun _ _ d =>
        let x := (d.brgTake l msg).1
        let e := (d.brgTake l msg).2.freeCredit l x.cred
        hears 0x05 l msg d
      ∧ e.brg.far.get? x.h.reach = some k
      ∧ k.owner = (x.msg l e.now).init
        ∧ (e.onBrg fun b => { b with far := b.far.erase x.h.reach }).isIggevo k.dst = false))
    ∧ (∃ l msg, Met (fun _ _ d => hears 0x06 l msg d))
    ∧ (∃ l msg, Met (fun _ _ d => hears 0x07 l msg d))
    ∧ (∃ l msg, Met (fun _ _ d => hears 0x10 l msg d))
    ∧ (∃ l msg, Met (fun _ _ d => hears 0x11 l msg d))
    ∧ (∃ l msg, Met (fun _ _ d => hears 0x12 l msg d)) :=
  ⟨⟨4, brgMsg 0x01 ([]), 0, st .runBalanced dev, by unfold hears; decide +kernel⟩,
   ⟨4, brgMsg 0x02 (zeros 64), 0, st .runBalanced dev, by unfold hears; decide +kernel⟩,
   ⟨4, brgMsg 0x04 ([]), 0, st .runBalanced dev, by unfold hears; decide +kernel⟩,
   ⟨4, brgMsg 3 (zeros 64) 4, 0, 8, 0, st .runBalanced dev, by unfold hears; decide +kernel⟩,
   ⟨4, brgOdd, 0, 8, 0, st .runBalanced dev, by unfold hears; decide +kernel⟩,
   ⟨4, brgMsg 0x05 ([]), 0, st .runBalanced dev, by unfold hears; decide +kernel⟩,
   ⟨4, brgMsg 5 [], { owner := .far 0 0, link := 4, dst := 8, t6 := 0 },
     0, st .runBalanced { dev with brg := { far := [(0, { owner := .far 0 0, link := 4, dst := 8, t6 := 0 })] } }, by unfold hears; dsimp only; decide +kernel⟩,
   ⟨4, brgMsg 0x06 ([]), 0, st .runBalanced dev, by unfold hears; decide +kernel⟩,
   ⟨4, brgMsg 0x07 ([]), 0, st .runBalanced dev, by unfold hears; decide +kernel⟩,
   ⟨4, brgMsg 0x10 (zeros 64), 0, st .runBalanced dev, by unfold hears; decide +kernel⟩,
   ⟨4, brgMsg 0x11 ([]), 0, st .runBalanced dev, by unfold hears; decide +kernel⟩,
   ⟨4, brgMsg 0x12 (zeros 64), 0, st .runBalanced dev, by unfold hears; decide +kernel⟩⟩

theorem witness_BridgeEvents_2 :
    (∃ l msg, Met (fun _ _ d => hears 0x13 l msg d))
    ∧ (∃ l msg, Met (fun _ _ d => hears 0x14 l msg d))
    ∧ (∃ l msg, Met (fun _ _ d => hears 0x15 l msg d))
    ∧ (∃ l msg, Met (fun _ _ d => hears 0x16 l msg d))
    ∧ (∃ l msg, Met (fun _ _ d => hears 0x17 l msg d))
    ∧ (∃ l msg, Met (fun _ _ d => d.isIggevo l = true ∧ msg ≠ [] ∧ brgMalformed msg = true))
    ∧ (∃ i t, Met (fun _ _ d => d.weir.trk.get? i = some t ∧ d.isIggevo t.dst = true ∧ t.group = none ∧ t.done = false
      ∧ t.orphan = none ∧ t.limit ≤ d.since t.t6))
    ∧ (∃ i t t0, Met (fun _ _ d => d.weir.trk.get? i = some t ∧ t.orphan = some t0 ∧ d.isIggevo t.dst = true
      ∧ d.discardTime t.dst ≤ d.since t0))
    ∧ (∃ r k, Met (fun _ _ d => d.brg.near.get? r = some k ∧ k.st = .held ∧ 16 * us6 ≤ d.since k.t6))
    ∧ (∃ r k, Met (fun _ _ d => d.brg.far.get? r = some k ∧ 32 * us6 ≤ d.since k.t6)) :=
  ⟨⟨4, brgMsg 0x13 (zeros 64), 0, st .runBalanced dev, by unfold hears; decide +kernel⟩,
   ⟨4, brgMsg 0x14 ([]), 0, st .runBalanced dev, by unfold hears; decide +kernel⟩,
   ⟨4, brgMsg 0x15 ([]), 0, st .runBalanced dev, by unfold hears; decide +kernel⟩,
   ⟨4, brgMsg 0x16 ([]), 0, st .runBalanced dev, by unfold hears; decide +kernel⟩,
   ⟨4, brgMsg 0x17 ([]), 0, st .runBalanced dev, by unfold hears; decide +kernel⟩,
   ⟨4, zeros 64, 0, st .runBalanced dev, by decide +kernel⟩,
   ⟨5, { trk0 with limit := 10 ^ 10 }, 0, st .runBalanced (withTrk [(5, { trk0 with limit := 10 ^ 10 })]), by decide +kernel⟩,
   ⟨5, { trk0 with orphan := some 0 }, 0, 0, st .runBalanced (withTrk [(5, { trk0 with orphan := some 0 })]), by decide +kernel⟩,
   ⟨31, { st := .held, owner := 0, link := 4, reach := 31, t6 := 10 ^ 10 - 96000, trk := 1 },
     0, st .runBalanced { dev with brg := { near := [(31, { st := .held, owner := 0, link := 4, reach := 31, t6 := 10 ^ 10 - 96000, trk := 1 })] } }, by decide +kernel⟩,
   ⟨31, { owner := .mpc, link := 4, dst := 8, t6 := 10 ^ 10 - 192000 },
     0, st .runBalanced { dev with brg := { far := [(31, { owner := .mpc, link := 4, dst := 8, t6 := 10 ^ 10 - 192000 })] } }, by decide +kernel⟩⟩

theorem witness_LaneEvents_1 :
    (∃ l m, Met (fun _ _ d => d.isIggevo l = true ∧ (d.igg l).st = .active ∧ (d.igg l).cd = some (m, 0) ∧ (d.igg l).mirror = none))
    ∧ (∃ l m, Met (fun _ _ d => d.isIggevo l = true ∧ (d.igg l).st = .active ∧ (d.igg l).cdRx = some (m, 1) ∧ (d.igg l).subT = none))
    ∧ (∃ l, Met (fun _ _ d => d.isIggevo l = true ∧ (d.igg l).st = .detect))
    ∧ (∃ l, Met (fun _ _ d => d.isIggevo l = true ∧ (d.igg l).st = .detect ∧ ms6 ≤ d.since (d.igg l).stageT))
    ∧ (∃ (l : Nat) (pass : BitVec 8), Met (fun _ _ d => d.isIggevo l = true ∧ (d.igg l).st = .pattern ∧ pass.toNat ≠ 0))
    ∧ (∃ (l : Nat) (pass : BitVec 8), Met (fun _ _ d => d.isIggevo l = true ∧ (d.igg l).st = .pattern ∧ pass.toNat = 0))
    ∧ (∃ l n am, Met (fun _ _ d => d.isIggevo l = true ∧ n < 10 ∧ n ≠ 8 ∧ (d.igg l).st = .lock ∧ markValid am = true))
    ∧ (∃ l am, Met (fun _ _ d => d.isIggevo l = true ∧ (d.igg l).st = .active ∧ markValid am = true))
    ∧ (∃ l n am, Met (fun _ _ d => d.isIggevo l = true ∧ n < 10 ∧ n ≠ 8 ∧ ((d.igg l).st = .lock ∨ (d.igg l).st = .active)
      ∧ markValid am = false))
    ∧ (∃ l a, Met (fun _ _ d => d.isIggevo l = true ∧ (d.igg l).st = .lock ∧ (d.igg l).locked = true ∧ (d.igg l).pLocked = some a
      ∧ (d.igg l).pTwice = true ∧ maskOk a.rxMask = true ∧ d.switchId ≠ 0))
    ∧ (∃ t n, Met (fun _ _ d => t < 64 ∧ n < 10 ∧ (d.lane t n).los = true))
    ∧ (∃ t n, Met (fun _ _ d => t < 64 ∧ n < 10 ∧ (d.lane t n).los = false)) :=
  ⟨⟨4, 0xF,
     0, st .runBalanced (withIg { st := .active, pCd := 1, txMask := 0xFF, rxMask := 0xFF, trained := 0xFF, cd := some (0xF, 0) }), by decide +kernel⟩,
   ⟨4, 0xF,
     0, st .runBalanced (withIg { st := .active, pCd := 1, txMask := 0xFF, rxMask := 0xFF, trained := 0xFF, cdRx := some (0xF, 1) }), by decide +kernel⟩,
   ⟨4, 0, st .runBalanced (withIg { st := .detect }), by decide +kernel⟩,
   ⟨4, 0, st .runBalanced (withIg { st := .detect, stageT := 10 ^ 10 - 6000000 }), by decide +kernel⟩,
   ⟨4, 0x80, 0, st .runBalanced (withIg { st := .pattern }), by decide +kernel⟩,
   ⟨4, 0, 0, st .runBalanced (withIg { st := .pattern }), by decide +kernel⟩,
   ⟨4, 9, mark 9, 0, st .runBalanced (withIg { st := .lock }), by decide +kernel⟩,
   ⟨4, mark 9,
     0, st .runBalanced (withIg { st := .active, pCd := 1, txMask := 0xFF, rxMask := 0xFF, trained := 0xFF }), by decide +kernel⟩,
   ⟨4, 9, mark 9 false,
     0, st .runBalanced (withIg { st := .active, pCd := 1, txMask := 0xFF, rxMask := 0xFF, trained := 0xFF }), by decide +kernel⟩,
   ⟨4, mark 0,
     0, st .runBalanced { withIg { st := .lock, locked := true, pLocked := some (mark 0), pTwice := true } with conf := { active := [({ op := 0x7010 }, nb 4 9 ++ zeros 4)] } }, by decide +kernel⟩,
   ⟨63, 9, 0, st .runBalanced { dev with phy := { lane := [((63, 9), { los := true })] } }, by decide +kernel⟩,
   ⟨63, 9, 0, st .runBalanced dev, by decide +kernel⟩⟩

theorem witness_LaneEvents_2 :
    (∃ l, Met (fun _ _ d => d.isIggevo l = true ∧ (d.igg l).st = .active))
    ∧ (∃ l, Met (fun _ _ d => (d.igg l).st = .active ∧ (d.igg l).subT.isSome = true))
    ∧ (∃ l t, Met (fun _ _ d => (d.igg l).subT = some t ∧ (d.igg l).subReady = false ∧ ms6 ≤ d.since t))
    ∧ (∃ (l : Nat) (w : Nat), Met (fun _ _ d => d.l0pOk l = true ∧ w ∈ [1, 2, 4, 8] ∧ w ≤ (d.port l).full))
    ∧ (∃ l, Met (fun _ p d => p = .powerCapped ∧ d.l0pOk l = true ∧ 2 ≤ (d.port l).width
      ∧ d.resvSum l ≤ 4 * (5 * (rateBytes (cxlRate (d.port l).rate ((d.port l).width / 2) (d.port l).flit256) 8 / 64) / 8)))
    ∧ (∃ l, Met (fun _ _ d => d.l0pOk l = true ∧ (d.port l).width < (d.port l).full))
    ∧ (∃ t n, Met (fun _ _ d => d.laneLive t n = true))
    ∧ (2 ≤ Sys2Proof.Config.slicers.toNat → ∃ t n, Met (fun _ _ d => d.laneLive t n = true ∧ d.auxHeld t n = false
      ∧ (d.lane t n).calStep + 1 < Sys2Proof.Config.slicers.toNat))
    ∧ (∃ t n, Met (fun _ _ d => d.laneLive t n = true ∧ d.auxHeld t n = false
      ∧ Sys2Proof.Config.slicers.toNat ≤ (d.lane t n).calStep + 1))
    ∧ (∃ t n h, Met (fun _ _ d => d.laneLive t n = true ∧ d.auxHeld t n = false ∧ ¬ h < byteAt (d.laneCfg false t n) 10))
    ∧ (∃ (l n : Nat) (timing : Bool) (steps : Nat), Met (fun _ _ d => d.isCxl l = true ∧ (d.port l).up = true ∧ 3 ≤ (d.port l).rate
      ∧ (d.port l).rate ≤ 6 ∧ d.laneLive (l / 4) ((d.laneRange l).1 + n) = true ∧ d.auxHeld (l / 4) ((d.laneRange l).1 + n) = false
      ∧ steps ≤ (if timing then 32 else 64)))
    ∧ (∃ t n a b c k, Met (fun _ _ d => (d.phy.scan.getD (t, n) {}).run = some (a, b, c, k))) :=
  ⟨⟨4, 0, st .runBalanced dev, by decide +kernel⟩,
   ⟨4,
     0, st .runBalanced (withIg { st := .active, pCd := 1, txMask := 0xFF, rxMask := 0xFF, trained := 0xFF, subT := some 0 }), by decide +kernel⟩,
   ⟨4, 10 ^ 10 - 6000000,
     0, st .runBalanced (withIg { st := .active, pCd := 1, txMask := 0xFF, rxMask := 0xFF, trained := 0xFF, subT := some (10 ^ 10 - 6000000) }), by decide +kernel⟩,
   ⟨8, 8, 0, st .runBalanced dev, by decide +kernel⟩,
   ⟨8, 0, { st .runPowerCapped dev with profile := .powerCapped }, by decide +kernel⟩,
   ⟨8,
     0, st .runBalanced { dev with cxl := { port := [(8, { up := true, role := 2, ltssm := 4, rate := 5, width := 4, full := 8 })] } }, by decide +kernel⟩,
   ⟨2, 7, 0, st .runBalanced dev, by decide +kernel⟩,
   fun h => ⟨2, 7, 0, st .runBalanced dev, by decide +kernel, by decide +kernel, h⟩,
   ⟨2, 7,
     0, st .runBalanced { dev with phy := { lane := [((2, 7), { calStep := Sys2Proof.Config.slicers.toNat })] } }, by rfl, by rfl, Nat.le_succ _⟩,
   ⟨2, 7, 15, 0, st .runBalanced dev, by decide +kernel⟩,
   ⟨8, 7, false, 64, 0, st .runBalanced dev, by decide +kernel⟩,
   ⟨2, 9, 8, 8, 10000, (.admin, 7),
     0, st .runBalanced { dev with phy := { scan := [((2, 9), { run := some (8, 8, 10000, .admin, 7) })] } }, by decide +kernel⟩⟩

theorem witness_LaneEvents_3 :
    (∃ t n, Met (fun _ _ d => t < 64 ∧ n < 10 ∧ d.laneLive t n = true ∧ (d.count 0x11D t 0x3F n).tileCode t = 3))
    ∧ (∃ l, Met (fun _ _ d => d.isIggevo l = true ∧ (d.igg l).st = .lock ∧ (d.igg l).judged = false
      ∧ 100 * us6 ≤ d.since (d.igg l).stageT)) :=
  ⟨⟨1, 7, 0, st .runBalanced dev, by decide +kernel⟩,
   ⟨4, 0, st .runBalanced (withIg { st := .lock, stageT := 10 ^ 10 - 600000 }), by decide +kernel⟩⟩

theorem witness_PortEvents :
    (∃ (l : Nat) (tr : Trained), Met (fun m _ d => d.isCxl l = true ∧ m.trains = true ∧ d.pinsOut = false
      ∧ d.domOff (l / 4) = false ∧ tr.rate ≤ 6 ∧ tr.width ∈ [1, 2, 4, 8] ∧ tr.width ≤ (d.laneRange l).2
      ∧ (tr.rate ≤ 4 ∨ tr.flit256 = true) ∧ (d.port l).up = true ∧ (d.port l).ltssm = ltRecovery))
    ∧ (∃ (l : Nat) (tr : Trained), Met (fun m _ d => d.isCxl l = true ∧ m.trains = true ∧ d.pinsOut = false
      ∧ d.domOff (l / 4) = false ∧ tr.rate ≤ 6 ∧ tr.width ∈ [1, 2, 4, 8] ∧ tr.width ≤ (d.laneRange l).2
      ∧ (tr.rate ≤ 4 ∨ tr.flit256 = true) ∧ (d.port l).up = false ∧ d.cfgRole l ≠ 0 ∧ (d.cfgRole l = 1 → tr.lds ≤ 1)))
    ∧ (∃ l, Met (fun _ _ d => d.vcsUp l = true ∧ (d.port l).up = true))
    ∧ (∃ l k, Met (fun _ _ d => d.vcsUp l = true ∧ (d.port l).up = true ∧ k < 32))
    ∧ (∃ l b, Met (fun _ _ d => d.vcsUp l = true ∧ (d.port l).up = true ∧ d.binding l 0 = some b ∧ d.reachable b.link = true
      ∧ b.shared = false))
    ∧ (∃ l k, Met (fun _ _ d => d.vcsUp l = true ∧ (d.port l).up = true ∧ k ≠ 31 ∧ d.binding l k = none))
    ∧ (∃ l, Met (fun _ _ d => d.isCxl l = true ∧ (d.port l).up = true ∧ (d.port l).partnerIde = true ∧ d.sec.seeded = true
      ∧ d.sec.errState = false ∧ (d.ide l).cxl ≠ 2))
    ∧ (∃ l, Met (fun _ _ d => d.isCxl l = true ∧ (d.port l).up = true ∧ (d.port l).partnerIde = true ∧ d.sec.seeded = true
      ∧ d.sec.errState = false ∧ (d.ide l).cxl = 2 ∧ (d.ide l).busy.isSome = true))
    ∧ (∃ l t, Met (fun _ _ d => d.isCxl l = true ∧ (d.port l).role = 2 ∧ (d.ide l).cxl = 2 ∧ (d.ide l).busy = none
      ∧ d.sec.seeded = true ∧ (d.ide l).retry = some t ∧ 60 * s6 ≤ d.since t))
    ∧ (∃ l, Met (fun _ _ d => d.isCxl l = true ∧ (d.port l).role = 2 ∧ (d.ide l).cxl = 2 ∧ (d.ide l).busy = none
      ∧ d.sec.seeded = true ∧ (d.ide l).retry = none ∧ leN (d.portCfg l) 4 2 * 60 * s6 ≤ d.since (d.ide l).t6))
    ∧ (∃ l t, Met (fun _ _ d => d.isCxl l = true ∧ (d.ide l).busy = some t ∧ s6 ≤ d.since t))
    ∧ (∃ r x, Met (fun _ _ d => d.reset.get? r = some x ∧ x.e1 = true ∧ d.reachIdle r = true)) :=
  ⟨⟨8, { rate := 6, width := 8, flit256 := true, devType := 1, lds := 1, hdmdb := false, cacheDev := false, ide := false, reversed := false },
     0, st .runBalanced { dev with cxl := { port := [(8, { up := true, role := 2, ltssm := 3, rate := 5, width := 8, full := 8 })] } }, by decide +kernel⟩,
   ⟨8, { rate := 4, width := 1, flit256 := false, devType := 0, lds := 1, hdmdb := false, cacheDev := false, ide := false, reversed := true },
     0, st .configure { dev with cxl := {}, conf := { active := [({ op := 0x3021, a := 8 }, nb 2 8 ++ nb 1 1 ++ zeros 5)] } }, by decide +kernel⟩,
   ⟨0, 0, st .runBalanced dev, by decide +kernel⟩,
   ⟨0, 31, 0, st .runBalanced dev, by decide +kernel⟩,
   ⟨0, { link := 8, ld := 0xFF, shared := false, group := 0xFFFF },
     0, st .runBalanced { dev with conf := { active := [({ op := 0x4000, a := 0, b := 0 }, nb 2 0 ++ zeros 2 ++ nb 2 8 ++ nb 1 0xFF ++ zeros 1 ++ nb 2 0xFFFF)] } }, by decide +kernel⟩,
   ⟨0, 30, 0, st .runBalanced dev, by decide +kernel⟩,
   ⟨8,
     0, st .runBalanced { dev with cxl := { port := [(8, { up := true, role := 2, ltssm := 4, rate := 5, width := 8, full := 8, partnerIde := true })] } }, by decide +kernel⟩,
   ⟨8,
     0, st .runBalanced { dev with cxl := { port := [(8, { up := true, role := 2, ltssm := 4, rate := 5, width := 8, full := 8, partnerIde := true })], ide := [(8, { cxl := 2, busy := some 0 })] } }, by decide +kernel⟩,
   ⟨8, 0,
     0, st .runBalanced { dev with clk := { t6 := 60 * s6 }, cxl := { port := [(8, { up := true, role := 2, ltssm := 4, rate := 5, width := 8, full := 8, partnerIde := true })], ide := [(8, { cxl := 2, retry := some 0 })] } }, by decide +kernel⟩,
   ⟨8,
     0, st .runBalanced { dev with clk := { t6 := 3600 * s6 }, cxl := { port := [(8, { up := true, role := 2, ltssm := 4, rate := 5, width := 8, full := 8, partnerIde := true })], ide := [(8, { cxl := 2 })] } }, by decide +kernel⟩,
   ⟨8, 10 ^ 10 - s6,
     0, st .runBalanced { dev with cxl := { port := [(8, { up := true, role := 2, ltssm := 4, rate := 5, width := 8, full := 8, partnerIde := true })], ide := [(8, { cxl := 2, busy := some (10 ^ 10 - s6) })] } }, by decide +kernel⟩,
   ⟨0, { epoch := 0, e1 := true, unbind := true, long := none },
     0, st .runBalanced { dev with reset := [(0, { epoch := 0, e1 := true, unbind := true, long := none })] }, by decide +kernel⟩⟩

theorem witness_MailboxEvents_1 :
    (∃ (op : Nat) (f : Frame), Met (fun m p d => Ctx.servable { m := m, p := p, d := d, f := f } op = true
      ∧ headerCheck 0 { m := m, p := p, d := d.served f, f := f } = none))
    ∧ (∃ (op : Nat) (f : Frame) (st : Status) (b : Bytes), Met (fun m p d => Ctx.servable { m := m, p := p, d := d, f := f } op = true
      ∧ headerCheck 0 { m := m, p := p, d := d.served f, f := f } = some (st, b)))
    ∧ (∃ (src : FmSrc), Met (fun m _ d => m.allServed = true ∧ d.fmSource src = true ∧ (d.mbx .tunnel).busy = false))
    ∧ (∃ v b, Met (fun m _ d => m ≠ .shelf ∧ d.viewMbx v = some b ∧ servedIn m d b = true ∧ (d.mbx b).holds v = true
      ∧ (d.mbx b).busy = false))
    ∧ (∃ v b, Met (fun m _ d => m ≠ .shelf ∧ d.viewMbx v = some b ∧ servedIn m d b = true
      ∧ ((d.mbx b).holds v = false ∨ (d.mbx b).busy = true)))
    ∧ (∃ v b, Met (fun m _ d => m ≠ .shelf ∧ d.viewMbx v = some b ∧ servedIn m d b = false))
    ∧ (∃ v b r, Met (fun m _ d => m ≠ .shelf ∧ d.viewMbx v = some b ∧ (d.mbx b).resp = some r ∧ (d.mbx b).holds v = true
      ∧ (d.mbx b).busy = false ∧ r.more = true))
    ∧ (∃ v b r, Met (fun m _ d => m ≠ .shelf ∧ d.viewMbx v = some b ∧ (d.mbx b).resp = some r ∧ (d.mbx b).holds v = true
      ∧ (d.mbx b).busy = false ∧ r.more = true))
    ∧ (∃ n b, Met (fun m _ d => m ≠ .shelf ∧ d.viewMbx (.vcs n) = some b ∧ (d.mbx b).claim = none))
    ∧ (∃ n b k, Met (fun m _ d => m ≠ .shelf ∧ d.viewMbx (.vcs n) = some b ∧ (d.mbx b).claim = some k))
    ∧ (∃ n b, Met (fun m _ d => m ≠ .shelf ∧ d.viewMbx (.vcs n) = some b ∧ (d.mbx b).claim = some n))
    ∧ (∃ r, Met (fun _ _ d => (d.mbx (.reach r)).claim.isSome = true ∧ (d.mbx (.reach r)).busy = false
      ∧ 10 * ms6 ≤ d.since (d.mbx (.reach r)).claimT)) :=
  ⟨⟨0x7FFF, frame [], 0, st .configure dev, by decide +kernel⟩,
   ⟨0x7FFF, { frame [] with flags := 1 }, .invalidField, nb 4 2 ++ nb 4 1 ++ zeros 4, 0, st .configure dev, by decide +kernel⟩,
   ⟨.mctp, 0, st .configure dev, by decide +kernel⟩,
   ⟨.admin, .admin, 0, st .configure dev, by decide +kernel⟩,
   ⟨.vcs 0, .reach 0, 0, st .configure { dev with mgmt := { mbxs := [(.reach 0, { claim := some 1 })] } }, by decide +kernel⟩,
   ⟨.vcs 0, .reach 0, 0, st .safe dev, by decide +kernel⟩,
   ⟨.admin, .admin, { opcode := 0, tag := 7, status := .success, sid := 0, payload := zeros 4081 },
     0, st .configure { dev with mgmt := { mbxs := [(.admin, { resp := some { opcode := 0, tag := 7, status := .success, sid := 0, payload := zeros 4081 } })] } }, by decide +kernel⟩,
   ⟨.admin, .admin, { opcode := 0, tag := 7, status := .success, sid := 0, payload := zeros 4081 },
     0, st .configure { dev with mgmt := { mbxs := [(.admin, { resp := some { opcode := 0, tag := 7, status := .success, sid := 0, payload := zeros 4081 } })] } }, by decide +kernel⟩,
   ⟨0, .reach 0, 0, st .configure dev, by decide +kernel⟩,
   ⟨0, .reach 0, 8, 0, st .configure { dev with mgmt := { mbxs := [(.reach 0, { claim := some 8 })] } }, by decide +kernel⟩,
   ⟨0, .reach 0, 0, st .configure { dev with mgmt := { mbxs := [(.reach 0, { claim := some 0 })] } }, by decide +kernel⟩,
   ⟨31,
     0, st .configure { dev with mgmt := { mbxs := [(.reach 31, { claim := some 0, claimT := 10 ^ 10 - 60000000 })] } }, by decide +kernel⟩⟩

theorem witness_MailboxEvents_2 :
    (∃ mb tag l st b, Met (fun _ _ d => (d.mbx mb).longs.find? (fun l => decide (l.tag = tag) && l.fin.isSome) = some l
      ∧ l.fin = some (st, b)))
    ∧ (Met (fun m _ d => m.adminServed = true ∧ (d.mbx .oob).busy = false))
    ∧ (∃ w, Met (fun m _ d => m ≠ .shelf ∧ (w = false ∨ (d.mbx .oob).busy = true))) :=
  ⟨⟨.admin, 65535, { tag := 65535, opcode := 8, fin := some (.success, []) }, .success, [],
     0, st .configure { dev with mgmt := { mbxs := [(.admin, { longs := [{ tag := 65535, opcode := 8, fin := some (.success, []) }] })] } }, by decide +kernel⟩,
   ⟨0, st .safe dev, by decide +kernel⟩,
   ⟨false, 0, st .configure dev, by decide +kernel⟩⟩

theorem witness_ProcessorEvents_1 :
    (Met (fun m _ _ => m.adminServed = true))
    ∧ (∃ b, Met (fun m _ d => m.adminServed = true ∧ d.mgmt.standby = .ready ∧ (b = true ∨ 4 * ms6 ≤ d.since d.mgmt.heartbeat)))
    ∧ (Met (fun m _ d => m.adminServed = true ∧ d.standbyCan = false))
    ∧ (Met (fun _ _ d => d.mgmt.paused = true ∧ d.activating = false ∧ d.mgmt.switching = none))
    ∧ (Met (fun _ _ d => d.activating = false ∧ d.mgmt.switching = none ∧ d.mgmt.standby ≠ .ready))
    ∧ (Met (fun _ _ d => d.mgmt.switching.isSome = true))
    ∧ (Met (fun _ _ d => d.activating = true ∧ d.mgmt.verified = false ∧ d.mgmt.switching = none ∧ d.mgmt.standby ≠ .ready
      ∧ d.ctl.svc.bind (·.endAt) = none))
    ∧ (Met (fun m _ d => m.adminServed = true ∧ d.mgmt.standby = .ready))
    ∧ (Met (fun _ _ d => 100 * us6 ≤ d.since d.mgmt.frameT))
    ∧ (∃ b, Met (fun m _ d => m.adminServed = true ∧ 10 * ms6 ≤ d.since d.mgmt.shedT ∧ 60 ≤ b ∧ b < 85))
    ∧ (∃ b, Met (fun m _ d => m.adminServed = true ∧ 10 * ms6 ≤ d.since d.mgmt.shedT ∧ 85 ≤ b ∧ d.mgmt.shed < 3))
    ∧ (Met (fun _ _ d => d.activating = true ∧ d.mgmt.verified = false ∧ (d.img.copy.getD (1 - d.img.fwUse.getD 1) {}).valid = true
      ∧ (d.img.copy.getD (1 - d.img.fwUse.getD 1) {}).major = d.img.major))
    ∧ (Met (fun _ _ d => d.activating = true ∧ d.mgmt.verified = false)) :=
  ⟨⟨0, st .safe dev, by decide +kernel⟩,
   ⟨false, 0, st .configure dev, by decide +kernel⟩,
   ⟨0, st .configure { dev with mgmt := { standby := .outOfService } }, by decide +kernel⟩,
   ⟨0, st .configure { dev with mgmt := { paused := true } }, by decide +kernel⟩,
   ⟨0, st .configure { dev with mgmt := { standby := .loading } }, by decide +kernel⟩,
   ⟨0, st .configure { dev with mgmt := { switching := some (.admin, 7) } }, by decide +kernel⟩,
   ⟨0, st .service { dev with ctl := { svc := some { op := 1, inst := 0, begun := true } }, mgmt := { standby := .loading } }, by decide +kernel⟩,
   ⟨0, st .safe dev, by decide +kernel⟩,
   ⟨0, st .configure { dev with mgmt := { frameT := 10 ^ 10 - 600000 } }, by decide +kernel⟩,
   ⟨84, 0, st .configure { dev with mgmt := { shedT := 10 ^ 10 - 60000000 } }, by decide +kernel⟩,
   ⟨85, 0, st .configure { dev with mgmt := { shed := 2 } }, by decide +kernel⟩,
   ⟨0, st .service { dev with ctl := { svc := some { op := 1, inst := 0, begun := true } }, img := { fwUse := some 1, copy := [(0, { valid := true })] } }, by decide +kernel⟩,
   ⟨0, st .service { dev with ctl := { svc := some { op := 1, inst := 0, begun := true } } }, by decide +kernel⟩⟩

theorem witness_ProcessorEvents_2 :
    (∃ k, Met (fun _ _ d => d.activating = false ∧ d.mgmt.switching = some k))
    ∧ (Met (fun _ _ d => d.activating = true ∧ d.mgmt.verified = true ∧ d.mgmt.standbyReady = true))
    ∧ (∃ i, Met (fun _ _ d => (d.set i).resync = true)) :=
  ⟨⟨(.admin, 7), 0, st .configure { dev with mgmt := { switching := some (.admin, 7) } }, by decide +kernel⟩,
   ⟨0, st .service { dev with ctl := { svc := some { op := 1, inst := 0, begun := true } }, mgmt := { verified := true, standbyReady := true } }, by decide +kernel⟩,
   ⟨31, 0, st .configure { dev with conf := { staged := [(31, { resync := true })] } }, by decide +kernel⟩⟩

theorem witness_FmApiEvents :
    (∃ (src : FmSrc), Met (fun m _ _ => fmHeard src m))
    ∧ (∃ (src : FmSrc), Met (fun m _ _ => fmHeard src m))
    ∧ (∃ (src : FmSrc), Met (fun m _ _ => fmHeard src m))
    ∧ (∃ (src : FmSrc), Met (fun m _ _ => fmHeard src m))
    ∧ (∃ (src : FmSrc), Met (fun m _ _ => fmHeard src m))
    ∧ (∃ (src : FmSrc), Met (fun m _ _ => fmHeard src m)) :=
  ⟨⟨.bilod, 0, st .safe dev, by unfold fmHeard; decide +kernel⟩,
   ⟨.bilod, 0, st .safe dev, by unfold fmHeard; decide +kernel⟩,
   ⟨.bilod, 0, st .safe dev, by unfold fmHeard; decide +kernel⟩,
   ⟨.bilod, 0, st .safe dev, by unfold fmHeard; decide +kernel⟩,
   ⟨.bilod, 0, st .safe dev, by unfold fmHeard; decide +kernel⟩,
   ⟨.bilod, 0, st .safe dev, by unfold fmHeard; decide +kernel⟩⟩

theorem witness_SecurityEvents :
    (∃ port req, Met (fun m _ d => d.spdmServed m port = true ∧ spdmRule req = none))
    ∧ (∃ port req r, Met (fun m _ d => d.spdmServed m port = true ∧ spdmRule req = some r ∧ d.sec.errState = true))
    ∧ (∃ port req code need next, Met (fun m _ d => d.spdmServed m port = true ∧ spdmRule req = some (code, need, some next, false)
      ∧ d.sec.errState = false ∧ need ≤ d.spdmState port ∧ need ≠ 4 ∧ (∀ i, req ≠ .getMeasurements i)))
    ∧ (∃ s : State, s.mode ≠ .shelf)
    ∧ (Met (fun m _ _ => m = .shelf))
    ∧ (Met (fun m _ d => m ≠ .shelf ∧ d.sec.seeded = false))
    ∧ (Met (fun m _ d => m ≠ .shelf ∧ d.sec.seeded = false ∧ d.sec.restarts < 2))
    ∧ (Met (fun m _ d => m ≠ .shelf ∧ d.sec.seeded = false ∧ 2 ≤ d.sec.restarts ∧ d.sec.errState = false))
    ∧ (Met (fun m _ _ => m ≠ .shelf))
    ∧ (Met (fun m _ d => m ≠ .shelf ∧ d.sec.seeded = true ∧ (2 ^ 20 ≤ d.sec.drbgReqs ∨ 60 * s6 ≤ d.since d.sec.reseedT)))
    ∧ (∃ i, Met (fun _ _ d => (d.cred i).until6.isSome = true ∧ d.locked i = false)) :=
  ⟨⟨.mctp, .other 5, 0, st .safe dev, by decide +kernel⟩,
   ⟨.mctp, .getVersion, _, 0, st .safe { dev with sec := { errState := true } }, rfl, rfl, rfl⟩,
   ⟨.mctp, .getVersion, _, _, _, 0, st .safe dev, rfl, rfl, rfl, by decide +kernel, by decide +kernel, by simp⟩,
   ⟨st .coldBoot dev, by decide⟩,
   ⟨0, st .shelf dev, by decide +kernel⟩,
   ⟨0, st .safe { dev with sec := {} }, by decide +kernel⟩,
   ⟨0, st .safe { dev with sec := { restarts := 1 } }, by decide +kernel⟩,
   ⟨0, st .safe { dev with sec := { restarts := 2 } }, by decide +kernel⟩,
   ⟨0, st .coldBoot dev, by decide +kernel⟩,
   ⟨0, st .safe { dev with sec := { seeded := true, drbgReqs := 2 ^ 20 } }, by decide +kernel⟩,
   ⟨15, 0, st .safe { dev with sec := { slots := [(15, { until6 := some 0 })] } }, by decide +kernel⟩⟩

theorem witness_FaultAndTelemetryEvents :
    (Met (fun m _ _ => collectorOn m = true))
    ∧ (Met (fun m _ _ => collectorOn m = true))
    ∧ (∃ t, Met (fun m _ d => collectorOn m = true ∧ d.flt.line = some t ∧ d.flt.fatal = false ∧ us6 ≤ d.since t))
    ∧ (∃ t id a, Met (fun _ _ d => d.weir.recent.get? t = some a ∧ a.id ≠ id))
    ∧ (∃ t id a e, Met (fun _ _ d => d.weir.recent.get? t = some a ∧ a.id = id
      ∧ d.tele.capture.find? (fun e => e.1.1 == t && decide (1 ≤ e.2.2) && decide (e.2.2 ≤ 8) && decide (d.since e.2.1 < 10 * us6) && (d.tele.ctr.getD e.1 {}).samples a) = some e
      ∧ 16 ≤ (d.tele.samp.getD t {}).recs.length))
    ∧ (∃ t id a e, Met (fun _ _ d => d.weir.recent.get? t = some a ∧ a.id = id
      ∧ d.tele.capture.find? (fun e => e.1.1 == t && decide (1 ≤ e.2.2) && decide (e.2.2 ≤ 8) && decide (d.since e.2.1 < 10 * us6) && (d.tele.ctr.getD e.1 {}).samples a) = some e
      ∧ 1 ≤ (d.tele.samp.getD t {}).recs.length ∧ (d.tele.samp.getD t {}).recs.length < 16))
    ∧ (∃ t c t6 n, Met (fun _ _ d => d.tele.capture.get? (t, c) = some (t6, n) ∧ 10 * us6 ≤ d.since t6))
    ∧ (∃ src x, Met (fun _ _ d => d.tele.src.get? src = some x ∧ 100 * us6 ≤ d.since x.last6 ∧ x.pend ≠ []))
    ∧ (∃ l, Met (fun _ _ d => (d.tele.bw.getD l {}).newK = none
      ∧ (d.tele.bw.getD l {}).start < d.now / (2 ^ (d.tele.bw.getD l {}).k * 1000) * (2 ^ (d.tele.bw.getD l {}).k * 1000)))
    ∧ (Met (fun _ _ d => d.tele.telMask ≠ 0 ∧ d.taskPeriod 5 * ms6 ≤ d.since d.tele.telT))
    ∧ (∃ k, Met (fun _ _ d => k < 6 ∧ taskFloor k * ms6 ≤ d.since (d.task k).t6)) :=
  ⟨⟨0, st .safe dev, by decide +kernel⟩,
   ⟨0, st .configure dev, by decide +kernel⟩,
   ⟨10 ^ 10 - 6000, 0, st .configure { dev with flt := { line := some (10 ^ 10 - 6000) } }, by decide +kernel⟩,
   ⟨2, 8, { id := 9, reach := 0, cls := 3, link := 8, egress := 4, body := zeros 12 },
     0, st .runBalanced { withCells [] with weir := { recent := [(2, { id := 9, reach := 0, cls := 3, link := 8, egress := 4, body := zeros 12 })] }, tele := { capture := [((2, 7), (10 ^ 10 - 59999, 8))], ctr := [((2, 7), { cfg := 0 })], samp := [(2, {})] } }, by decide +kernel⟩,
   ⟨2, 9, { id := 9, reach := 0, cls := 3, link := 8, egress := 4, body := zeros 12 }, ((2, 7), (10 ^ 10 - 59999, 8)),
     0, st .runBalanced { withCells [] with weir := { recent := [(2, { id := 9, reach := 0, cls := 3, link := 8, egress := 4, body := zeros 12 })] }, tele := { capture := [((2, 7), (10 ^ 10 - 59999, 8))], ctr := [((2, 7), { cfg := 2 ^ 28 + 2 ^ 18 + 2 ^ 14 })], samp := [(2, { recs := List.replicate 16 [] })] } }, by decide +kernel⟩,
   ⟨2, 9, { id := 9, reach := 0, cls := 3, link := 8, egress := 4, body := zeros 12 }, ((2, 7), (10 ^ 10 - 59999, 8)),
     0, st .runBalanced { withCells [] with weir := { recent := [(2, { id := 9, reach := 0, cls := 3, link := 8, egress := 4, body := zeros 12 })] }, tele := { capture := [((2, 7), (10 ^ 10 - 59999, 8))], ctr := [((2, 7), { cfg := 2 ^ 28 + 2 ^ 18 + 2 ^ 14 })], samp := [(2, { recs := List.replicate 15 [] })] } }, by decide +kernel⟩,
   ⟨63, 7, 10 ^ 10 - 60000, 1,
     0, st .runBalanced { dev with tele := { capture := [((63, 7), (10 ^ 10 - 60000, 1))] } }, by decide +kernel⟩,
   ⟨0x203, { last6 := 10 ^ 10 - 600000, pend := [(0x204, 0, 0)] },
     0, st .runBalanced { dev with tele := { src := [(0x203, { last6 := 10 ^ 10 - 600000, pend := [(0x204, 0, 0)] })] } }, by decide +kernel⟩,
   ⟨8, 0, st .runBalanced dev, by decide +kernel⟩,
   ⟨0, st .runBalanced { dev with tele := { telMask := 1, telT := 10 ^ 10 - 600000000 } }, by decide +kernel⟩,
   ⟨2, 0, st .runBalanced { dev with tele := { tasks := [(2, { period := 10, t6 := 4 * 10 ^ 9 })] } }, by decide +kernel⟩⟩

theorem witness_SlotEvents_1 :
    (∃ g fd mv, Met (fun m _ d => m ≠ .shelf ∧ g < 8 ∧ fd < 2 ∧ 9000 ≤ mv ∧ mv ≤ 14000 ∧ (d.feed g fd).valid = false))
    ∧ (∃ g fd mv, Met (fun m _ _ => m ≠ .shelf ∧ g < 8 ∧ fd < 2 ∧ (mv < 8800 ∨ mv > 14200)))
    ∧ (∃ g fd, Met (fun m _ _ => m ≠ .shelf ∧ g < 8 ∧ fd < 2))
    ∧ (∃ g fd mv, Met (fun m _ d => m ≠ .shelf ∧ g < 8 ∧ fd < 2 ∧ (d.feed g fd).warn = true ∧ mv ≥ 9800))
    ∧ (∃ t, Met (fun m _ d => m ≠ .shelf ∧ (d.chan t).st = .changeover))
    ∧ (∃ t, Met (fun m _ d => m ≠ .shelf ∧ (d.chan t).st = .on ∧ (d.chan t).feed ≠ some (d.prefFeed t)
      ∧ (byteAt (d.slotCfg t) 1).testBit 1 = true ∧ d.feedGood (t / 8) (d.prefFeed t) = true
      ∧ d.since (d.feed (t / 8) (d.prefFeed t)).good6 ≥ s6))
    ∧ (∃ g i, Met (fun m _ d => m ≠ .shelf ∧ ((groupChans g).filter fun t => (d.chan t).st == .ramping).length < 2
      ∧ rotate 8 (d.clk.cyc % 8) (fun i => (d.chan (8 * g + i)).st == .waiting && (d.chan (8 * g + i)).abandoned.isNone && (d.pickFeed (8 * g + i)).isSome) = some i))
    ∧ (∃ g, Met (fun m _ d => m ≠ .shelf ∧ 2 ≤ ((groupChans g).filter fun t => (d.chan t).st == .ramping).length))
    ∧ (∃ t mv, Met (fun m _ d => m ≠ .shelf ∧ (d.chan t).st = .ramping ∧ mv + 300 ≥ d.chanFeedMv t))
    ∧ (∃ t mv, Met (fun m _ d => m ≠ .shelf ∧ (d.chan t).st = .ramping ∧ (d.chan t).enh = true ∧ 100 * mv ≥ 95 * d.chanFeedMv t
      ∧ d.since (d.chan t).t6 ≤ 4 * ms6))
    ∧ (∃ t, Met (fun m _ d => m ≠ .shelf ∧ (d.chan t).st = .ramping ∧ d.since (d.chan t).t6 ≥ 4 * ms6))
    ∧ (∃ t ma, Met (fun m _ d => m ≠ .shelf ∧ conducting (d.chan t) = true ∧ ma ≥ 2 * d.iLim t)) :=
  ⟨⟨7, 1, 9000, 0, st .runBalanced dev, by decide +kernel⟩,
   ⟨7, 1, 8799, 0, st .runBalanced dev, by decide +kernel⟩,
   ⟨7, 1, 0, st .runBalanced dev, by decide +kernel⟩,
   ⟨7, 1, 9800, 0, st .runBalanced { dev with slots := { feed := [(15, { valid := true, warn := true })] } }, by decide +kernel⟩,
   ⟨63, 0, st .runBalanced { dev with slots := { ch := [(63, { st := .changeover, next := some 1 })] } }, by decide +kernel⟩,
   ⟨0,
     0, st .runBalanced { dev with slots := { ch := [(0, { st := .on, feed := some 1 })], feed := [(0, { valid := true, mv := 12000, good6 := 10 ^ 10 - s6 })] }, conf := { active := [({ op := 0xA001, a := 0 }, [0, 14, 0, 0, 0, 0, 0, 0])] } }, by decide +kernel⟩,
   ⟨7, 7,
     0, st .runBalanced { dev with slots := { ch := [(63, { st := .waiting })], feed := [(14, { valid := true, mv := 12000 }), (15, { valid := true, mv := 12000 })] } }, by decide +kernel⟩,
   ⟨7, 0, st .runBalanced { dev with slots := { ch := [(56, { st := .ramping }), (63, { st := .ramping })] } }, by decide +kernel⟩,
   ⟨63, 11700,
     0, st .runBalanced { dev with slots := { ch := [(63, { st := .ramping, feed := some 0 })], feed := [(14, { valid := true, mv := 12000 })] } }, by decide +kernel⟩,
   ⟨63, 11400,
     0, st .runBalanced { dev with slots := { ch := [(63, { st := .ramping, enh := true, feed := some 0, t6 := 10 ^ 10 - 4 * ms6 })], feed := [(14, { valid := true, mv := 12000 })] } }, by decide +kernel⟩,
   ⟨63, 0, st .runBalanced { dev with slots := { ch := [(63, { st := .ramping, t6 := 10 ^ 10 - 4 * ms6 })] } }, by decide +kernel⟩,
   ⟨63, 2 * dev.iLim 63, 0, st .runBalanced { dev with slots := { ch := [(63, { st := .on })] } }, by decide +kernel⟩⟩

theorem witness_SlotEvents_2 :
    (∃ t ma lasted, Met (fun m _ d => m ≠ .shelf ∧ conducting (d.chan t) = true ∧ 10 * ma ≥ 12 * d.iLim t ∧ lasted ≥ 1000000))
    ∧ (∃ t, Met (fun m _ d => m ≠ .shelf ∧ (d.chan t).st = .retry ∧ d.since (d.chan t).t6 ≥ s6))
    ∧ (∃ t, Met (fun m _ d => m ≠ .shelf ∧ (d.chan t).pg = true ∧ d.since (d.chan t).pgT ≥ 10 * s6))
    ∧ (∃ t a, Met (fun m _ d => m ≠ .shelf ∧ (d.chan t).abandoned = some a ∧ d.since a ≥ ms6))
    ∧ (∃ t mv lasted, Met (fun m _ d => m ≠ .shelf ∧ ((d.chan t).st = .on ∨ (d.chan t).st = .changeover) ∧ mv < 9000
      ∧ lasted ≥ 10000 ∧ ∃ fd < 2, d.permits t fd = true ∧ (d.feed (t / 8) fd).valid = true))
    ∧ (∃ t mv lasted, Met (fun m _ d => m ≠ .shelf ∧ ((d.chan t).st = .on ∨ (d.chan t).st = .changeover) ∧ mv < 9000
      ∧ lasted ≥ 10000 ∧ ∀ fd < 2, d.permits t fd = false ∨ (d.feed (t / 8) fd).valid = false))
    ∧ (∃ t, Met (fun m _ d => m ≠ .shelf ∧ t < 64 ∧ (d.chan t).moving = true))
    ∧ (∃ t, Met (fun m _ d => m ≠ .shelf ∧ t < 64 ∧ (d.chan t).moving = false ∧ byteAt (d.slotCfg t) 5 = 0 ∧ (d.chan t).range16 = false)) :=
  ⟨⟨63, 2 * dev.iLim 63, 1000000, 0, st .runBalanced { dev with slots := { ch := [(63, { st := .on })] } }, by decide +kernel⟩,
   ⟨63, 0, st .runBalanced { dev with slots := { ch := [(63, { st := .retry, t6 := 10 ^ 10 - s6 })] } }, by decide +kernel⟩,
   ⟨63, 0, st .runBalanced { dev with slots := { ch := [(63, { pg := true })] }, clk := { t6 := 10 * s6 } }, by decide +kernel⟩,
   ⟨63, 10 ^ 10 - ms6,
     0, st .runBalanced { dev with slots := { ch := [(63, { abandoned := some (10 ^ 10 - ms6) })] } }, by decide +kernel⟩,
   ⟨63, 8999, 10000,
     0, st .runBalanced { dev with slots := { ch := [(63, { st := .on })], feed := [(14, { valid := true, mv := 12000 })] } }, by decide +kernel⟩,
   ⟨63, 8999, 10000, 0, st .runBalanced { dev with slots := { ch := [(63, { st := .changeover })] } }, by decide +kernel⟩,
   ⟨63, 0, st .runBalanced { dev with slots := { ch := [(63, { moving := true })] } }, by decide +kernel⟩,
   ⟨63,
     0, st .runBalanced { dev with conf := { active := [({ op := 0xA001, a := 63 }, [63, 12, 0, 0, 8, 0, 0, 0])] } }, by decide +kernel⟩⟩

theorem witness_PowerEvents_1 :
    (∃ held, Met (fun m _ d => d.pwr.coreEn = false ∧ held ≥ 1000000 ∧ (m = .shelf ∨ d.clk.t6 ≥ d.pwr.coreEnT + 10 * ms6)))
    ∧ (Met (fun m _ _ => m = .shelf))
    ∧ (∃ (s : State) (held : Nat), s.mode ≠ .shelf ∧ 1000 ≤ held)
    ∧ (∃ held, held < 1000)
    ∧ (∃ (s t : State), exec (.powerGood 0 []) s = .next t)
    ∧ (∃ r lasted, Met (fun m _ _ => m ≠ .shelf ∧ r < railCount ∧ lasted ≥ 10000))
    ∧ (∃ mv, Met (fun m _ d => m ≠ .shelf ∧ (∀ t, d.pwr.avsT = some t → d.since t ≥ ms6) ∧ max 680 d.avsFloor ≤ mv ∧ mv ≤ 780 ∧ mv % 5 = 0))
    ∧ (∃ mv, Met (fun m _ d => m ≠ .shelf ∧ (∀ t, d.pwr.avsT = some t → d.since t ≥ ms6) ∧ max 680 d.avsFloor ≤ mv ∧ mv ≤ 780 ∧ mv % 5 = 0
      ∧ d.pwr.avsFails = 2))
    ∧ (Met (fun m _ _ => m ≠ .shelf))
    ∧ (Met (fun m p d => capped m p = true ∧ d.pwr.fabNext = none ∧ (d.pwr.overMs > 10 ∨ d.pwr.pmbQuiet = true) ∧ d.pwr.fab < 2))
    ∧ (Met (fun m p d => capped m p = true ∧ d.pwr.fabNext = none ∧ d.pwr.overMs ≤ 10 ∧ d.pwr.underMs > 100 ∧ d.pwr.pmbQuiet = false ∧ d.pwr.fab > 0
      ∧ d.pwr.warn = false ∧ d.since d.pwr.clearT ≥ 100 * ms6 ∧ d.pwr.avsFault = false ∧ d.pwr.avsMv ≥ d.avsFor (d.pwr.fab - 1))) :=
  ⟨⟨1000000, 0, st .shelf { dev with pwr := { coreEn := false } }, by decide +kernel⟩,
   ⟨0, st .shelf dev, by decide +kernel⟩,
   ⟨st .coldBoot dev, 1000, by decide⟩,
   ⟨999, by decide⟩,
   ⟨st .shelf dev, _, rfl⟩,
   ⟨0, 10000, 0, st .coldBoot dev, by decide +kernel⟩,
   ⟨780, 0, st .configure dev, by decide +kernel, by decide +kernel, avs_floor_fits _, by decide⟩,
   ⟨780, 0, st .configure { dev with pwr := { avsFails := 2, avsT := some (10 ^ 10 - ms6) } }, by decide +kernel, by decide +kernel, avs_floor_fits _,
     by decide +kernel⟩,
   ⟨0, st .coldBoot dev, by decide +kernel⟩,
   ⟨0, { st .runPowerCapped { dev with pwr := { overMs := 11, fab := 1 } } with profile := .powerCapped }, by decide +kernel⟩,
   ⟨0, { st .runPowerCapped { dev with pwr := { underMs := 101, fab := 1, avsMv := 780 } } with profile := .powerCapped }, by decide +kernel, by decide +kernel, by decide +kernel, by decide +kernel, by decide +kernel, by decide +kernel, by decide +kernel, by decide +kernel, by decide +kernel, avs_fits _ _⟩⟩

theorem witness_PowerEvents_2 :
    (∃ (c : Nat) (off : Int), Met (fun m _ d => m ≠ .shelf ∧ c < 2 ∧ off.natAbs ≤ 3000 ∧ s6 ≤ d.clk.t6
      ∧ d.pwr.valid.getD c false = false))
    ∧ (∃ c, Met (fun m _ d => m ≠ .shelf ∧ c < 2 ∧ d.ctl.bothLost = false ∧ d.pwr.clk ≠ c))
    ∧ (∃ c, Met (fun m _ d => m ≠ .shelf ∧ c < 2 ∧ d.ctl.bothLost = false ∧ d.pwr.clk = c
      ∧ (d.pwr.valid.set c false).getD (1 - c) false = true))
    ∧ (∃ c, Met (fun m _ d => m ≠ .shelf ∧ c < 2 ∧ d.ctl.bothLost = false ∧ d.pwr.clk = c
      ∧ (d.pwr.valid.set c false).getD (1 - c) false = false))
    ∧ (Met (fun m _ d => m ≠ .shelf ∧ d.ctl.bothLost = false))
    ∧ (Met (fun m _ _ => m ≠ .shelf))
    ∧ (∃ k t, Met (fun m p d => m ≠ .shelf ∧ d.pwr.warn = false ∧ d.pwr.hot6.getD k none = some t ∧ ms6 ≤ d.since t ∧ capped m p = false))
    ∧ (∃ t, Met (fun _ _ d => d.pwr.cool6 = some t ∧ d.pwr.warn = true ∧ ms6 ≤ d.since t))
    ∧ (∃ k t, Met (fun m _ d => m ≠ .shelf ∧ d.pwr.hot110.getD k none = some t ∧ 100 * us6 ≤ d.since t))
    ∧ (∃ c, Met (fun m _ d => m = .coldBoot ∧ (d.ctl.bothLost = true ∨ d.pwr.valid.any id = false) ∧ c < 2)) :=
  ⟨⟨1, -3000, 0, st .coldBoot dev, by decide +kernel⟩,
   ⟨1, 0, st .coldBoot dev, by decide +kernel⟩,
   ⟨0, 0, st .coldBoot { dev with pwr := { valid := [true, true] } }, by decide +kernel⟩,
   ⟨0, 0, st .coldBoot { dev with pwr := { valid := [true, false] } }, by decide +kernel⟩,
   ⟨0, st .coldBoot dev, by decide +kernel⟩,
   ⟨0, st .coldBoot dev, by decide +kernel⟩,
   ⟨1, 0, 0, st .safe { dev with pwr := { hot6 := [none, some 0] } }, by decide +kernel⟩,
   ⟨0, 0, st .safe { dev with pwr := { cool6 := some 0, warn := true } }, by decide +kernel⟩,
   ⟨0, 0, 0, st .safe { dev with pwr := { hot110 := [some 0] } }, by decide +kernel⟩,
   ⟨1, 0, st .coldBoot { dev with ctl := { bothLost := true } }, by decide +kernel⟩⟩

theorem witness_BootAndFlashEvents_1 :
    (∃ b : BootResult, Met (fun m _ d => m = .coldBoot ∧ d.pwr.railsBad = [] ∧ d.ctl.bothLost = false ∧ d.ctl.romBad = false
      ∧ b.romOk = true))
    ∧ (∃ b : BootResult, Met (fun m _ d => m = .coldBoot ∧ d.pwr.railsBad = [] ∧ d.ctl.bothLost = false ∧ d.ctl.romBad = false
      ∧ b.romOk = false))
    ∧ (Met (fun m _ d => m = .coldBoot ∧ d.pwr.railsBad ≠ []))
    ∧ (∃ q k, Met (fun m _ d => m = .safe ∧ d.heldInSafe = false ∧ d.ctl.pend = some q ∧ q.target = .load ∧ d.best 2 d.cfgOk = some k))
    ∧ (∃ q, Met (fun m _ d => m = .safe ∧ d.heldInSafe = false ∧ d.ctl.pend = some q ∧ q.target = .load ∧ d.best 2 d.cfgOk = none))
    ∧ (Met (fun m _ d => m = .safe ∧ d.heldInSafe = true))
    ∧ (∃ l, Met (fun m _ d => (m = .safe ∨ m = .configure) ∧ d.tim.up = some l ∧ d.tim.stepped = false ∧ (d.igg l).thetas ≠ []
      ∧ ∀ i ∈ devSet :: List.range 32, (d.set i).accepted = false))
    ∧ (Met (fun m _ d => m = .configure ∧ d.ctl.startProf ≠ .none ∧ d.transition = false ∧ ∀ t < 64, d.tileCode t ≠ 3))
    ∧ (Met (fun m _ d => m = .configure ∧ d.ctl.startProf ≠ .none ∧ d.transition = false ∧ d.tim.stepped = true))
    ∧ (Met (fun m _ d => m.trains = true ∧ 2 * s6 ≤ d.since d.ctl.configureT))
    ∧ (Met (fun m _ d => m ≠ .shelf ∧ d.flt.fatal = true))
    ∧ (Met (fun _ _ d => d.flt.fatal = false)) :=
  ⟨⟨{ romOk := true, failed := 0 }, 0, st .coldBoot dev, by decide +kernel⟩,
   ⟨{ romOk := false, failed := 0 }, 0, st .coldBoot dev, by decide +kernel⟩,
   ⟨0, st .coldBoot { dev with pwr := { railsBad := [3] } }, by decide +kernel⟩,
   ⟨{ target := .load, epoch := 0 }, 3,
     0, st .safe { dev with ctl := { pend := some { target := .load, epoch := 0 } }, img := { copy := [(3, { valid := true, seq := 1 })] } }, by decide +kernel⟩,
   ⟨{ target := .load, epoch := 0 },
     0, st .safe { dev with ctl := { pend := some { target := .load, epoch := 0 } } }, by decide +kernel⟩,
   ⟨0, st .safe { dev with sec := { tamper := true } }, by decide +kernel⟩,
   ⟨4, 0, st .configure { withIg { thetas := [1] } with tim := { up := some 4 } }, by decide +kernel⟩,
   ⟨0, st .configure { dev with ctl := { startProf := .secure }, cxl := {} }, by decide +kernel⟩,
   ⟨0, st .configure { dev with ctl := { startProf := .secure }, tim := { stepped := true } }, by decide +kernel⟩,
   ⟨0, st .configure { dev with clk := { t6 := 2 * s6 } }, by decide +kernel⟩,
   ⟨0, st .configure { dev with flt := { fatal := true } }, by decide +kernel⟩,
   ⟨0, st .configure dev, by decide +kernel⟩⟩

theorem witness_BootAndFlashEvents_2 :
    (Met (fun m _ _ => m.adminServed = true))
    ∧ (∃ k, Met (fun m _ d => m.adminServed = true ∧ k < 128 ∧ (d.taskPass 4).img.retired.contains k = false
      ∧ ((d.taskPass 4).img.fails.upd k 0 (· + 1)).getD k 0 < 2))
    ∧ (∃ k, Met (fun m _ d => m.adminServed = true ∧ k < 128 ∧ (d.taskPass 4).img.retired.contains k = false
      ∧ 2 ≤ ((d.taskPass 4).img.fails.upd k 0 (· + 1)).getD k 0))
    ∧ (Met (fun m _ _ => m.adminServed = true))
    ∧ (∃ k j, Met (fun m _ d => m.adminServed = true ∧ k < 2 ∧ (d.countDev 0x262 k).img.cmd = some j ∧ j.copy % 2 = k))
    ∧ (∃ (k : Nat) (r : FlashRes) (j : FlashJob), Met (fun m _ d => m.adminServed = true ∧ k < 2 ∧ r ≠ .failed ∧ d.img.cmd = some j
      ∧ j.copy % 2 = k ∧ j.op ≠ 0xB001))
    ∧ (∃ l c x, Met (fun m _ d => d.head m l c = some x))
    ∧ (Met (fun m _ _ => m.adminServed = true)) :=
  ⟨⟨0, st .safe dev, by decide +kernel⟩,
   ⟨127, 0, st .safe dev, by decide +kernel⟩,
   ⟨127, 0, st .safe { dev with img := { fails := [(127, 1)] } }, by decide +kernel⟩,
   ⟨0, st .safe dev, by decide +kernel⟩,
   ⟨1, job0, 0, st .safe { dev with img := { cmd := some job0 } }, by decide +kernel⟩,
   ⟨1, .done, job0, 0, st .safe { dev with img := { cmd := some job0 } }, by decide +kernel⟩,
   ⟨8, 3, msg0, 0, st .runBalanced (withQ [msg0]), by decide +kernel⟩,
   ⟨0, st .safe dev, by decide +kernel⟩⟩

theorem witness_SidebandEvents_1 :
    (Met (fun m _ _ => m ≠ .shelf))
    ∧ (∃ eid, Met (fun m _ _ => m ≠ .shelf ∧ 8 ≤ eid ∧ eid < 0xFF))
    ∧ (∃ t, Met (fun m _ _ => m ≠ .shelf ∧ t ∉ [0, 0x05, 0x06, 0x07, 0x7E]))
    ∧ (Met (fun m _ _ => m ≠ .shelf))
    ∧ (∃ st, Met (fun m _ d => m ≠ .shelf ∧ st = d.i3cStatic))
    ∧ (Met (fun m _ _ => m ≠ .shelf))
    ∧ (∃ off len, Met (fun m _ _ => m ≠ .shelf ∧ spiForm off len = true))
    ∧ (∃ off len, Met (fun m _ _ => m ≠ .shelf ∧ spiForm off len = false))
    ∧ (Met (fun m _ _ => m ≠ .shelf))
    ∧ (∃ (off : Nat) (data : Bytes), Met (fun m _ _ => m ≠ .shelf ∧ spiForm off data.length = true))
    ∧ (∃ (off : Nat) (data : Bytes), Met (fun m _ _ => m ≠ .shelf ∧ spiForm off data.length = true))
    ∧ (Met (fun m _ _ => m ≠ .shelf)) :=
  ⟨⟨0, st .coldBoot dev, by decide +kernel⟩,
   ⟨254, 0, st .coldBoot dev, by decide +kernel⟩,
   ⟨1, 0, st .coldBoot dev, by decide +kernel⟩,
   ⟨0, st .coldBoot dev, by decide +kernel⟩,
   ⟨0x3A, 0, st .coldBoot dev, by decide +kernel⟩,
   ⟨0, st .coldBoot dev, by decide +kernel⟩,
   ⟨0, 4, 0, st .coldBoot dev, by decide +kernel⟩,
   ⟨1, 4, 0, st .coldBoot dev, by decide +kernel⟩,
   ⟨0, st .coldBoot dev, by decide +kernel⟩,
   ⟨0x1000, zeros 4, 0, st .coldBoot dev, by decide +kernel⟩,
   ⟨0x1000, zeros 4, 0, st .coldBoot dev, by decide +kernel⟩,
   ⟨0, st .coldBoot dev, by decide +kernel⟩⟩

theorem witness_SidebandEvents_2 :
    (Met (fun m _ _ => m ≠ .shelf))
    ∧ (Met (fun m _ _ => m ≠ .shelf))
    ∧ (Met (fun m p d => m ≠ .shelf ∧ p.isSecure = false ∧ d.sec.debug = true ∧ d.side.uFifo.length < 64))
    ∧ (Met (fun m p _ => m ≠ .shelf ∧ p.isSecure = true))
    ∧ (Met (fun m p _ => m ≠ .shelf ∧ p.isSecure = false))
    ∧ (Met (fun m p _ => m ≠ .shelf ∧ p.isSecure = false))
    ∧ (Met (fun m _ _ => m.adminServed = true))
    ∧ (Met (fun m _ d => m.adminServed = true ∧ d.side.chOk = true ∧ 3 ≤ d.side.badSig))
    ∧ (Met (fun m _ d => m.adminServed = true ∧ d.side.scanned = true ∧ d.side.chOk = false ∧ 16 ≤ d.side.goodSig))
    ∧ (Met (fun m _ d => m.adminServed = true ∧ d.now % 333000000 = 0))
    ∧ (Met (fun m _ _ => m ≠ .shelf))
    ∧ (Met (fun m _ _ => m ≠ .shelf)) :=
  ⟨⟨0, st .coldBoot dev, by decide +kernel⟩,
   ⟨0, st .coldBoot dev, by decide +kernel⟩,
   ⟨0, st .runBalanced { dev with sec := { debug := true }, side := { uFifo := List.replicate 63 0 } }, by decide +kernel⟩,
   ⟨0, { st .runSecure dev with profile := .secure }, by decide +kernel⟩,
   ⟨0, st .coldBoot dev, by decide +kernel⟩,
   ⟨0, st .coldBoot dev, by decide +kernel⟩,
   ⟨0, st .safe dev, by decide +kernel⟩,
   ⟨0, st .safe { dev with side := { chOk := true, badSig := 3 } }, by decide +kernel⟩,
   ⟨0, st .safe { dev with side := { scanned := true, goodSig := 16 } }, by decide +kernel⟩,
   ⟨0, st .safe { dev with clk := {} }, by decide +kernel⟩,
   ⟨0, st .coldBoot dev, by decide +kernel⟩,
   ⟨0, st .coldBoot dev, by decide +kernel⟩⟩

theorem witness_SidebandEvents_3 :
    (Met (fun m _ _ => m ≠ .shelf))
    ∧ (Met (fun m p _ => m ≠ .shelf ∧ p.isSecure = false))
    ∧ (Met (fun m p _ => m ≠ .shelf ∧ p.isSecure = false))
    ∧ (Met (fun m p _ => m ≠ .shelf ∧ p.isSecure = false))
    ∧ (Met (fun m p _ => m ≠ .shelf ∧ p.isSecure = false))
    ∧ (Met (fun m p _ => m ≠ .shelf ∧ p.isSecure = false))
    ∧ (Met (fun m p _ => m ≠ .shelf ∧ p.isSecure = true))
    ∧ (Met (fun m p d => m ≠ .shelf ∧ (d.sec.debug = false ∨ p.isSecure = true)))
    ∧ (Met (fun m _ _ => m ≠ .shelf)) :=
  ⟨⟨0, st .coldBoot dev, by decide +kernel⟩,
   ⟨0, st .coldBoot dev, by decide +kernel⟩,
   ⟨0, st .coldBoot dev, by decide +kernel⟩,
   ⟨0, st .coldBoot dev, by decide +kernel⟩,
   ⟨0, st .coldBoot dev, by decide +kernel⟩,
   ⟨0, st .coldBoot dev, by decide +kernel⟩,
   ⟨0, { st .runSecure dev with profile := .secure }, by decide +kernel⟩,
   ⟨0, st .coldBoot dev, by decide +kernel⟩,
   ⟨0, st .coldBoot dev, by decide +kernel⟩⟩

theorem witness_HotplugEvents_1 :
    (∃ t, Met (fun m _ d => m.adminServed = true ∧ t < 64 ∧ d.newInput (2 * t) 16 = some false))
    ∧ (∃ t, Met (fun m _ d => m = .safe ∧ t < 64 ∧ d.newInput (2 * t) 4 = some true))
    ∧ (∃ t, Met (fun m _ d => m.adminServed = true ∧ m ≠ .safe ∧ t < 64 ∧ d.newInput (2 * t) 4 = some true
      ∧ (d.acceptInput (2 * t)).tileIn t = true))
    ∧ (∃ t, Met (fun m _ d => m.adminServed = true ∧ m ≠ .safe ∧ t < 64 ∧ d.newInput (2 * t) 4 = some true
      ∧ (d.acceptInput (2 * t)).tileIn t = false ∧ (d.acceptInput (2 * t)).cxl.hot = []
      ∧ ((d.acceptInput (2 * t)).chan t).st = .off))
    ∧ (∃ t, Met (fun m _ d => m.adminServed = true ∧ m ≠ .safe ∧ t < 64 ∧ d.newInput (2 * t + 1) 16 = some false
      ∧ (d.acceptInput (2 * t + 1)).newInput (2 * t) 4 ≠ some true
      ∧ ((d.acceptInput (2 * t + 1)).inserted t = true ∨ (d.acceptInput (2 * t + 1)).side.run.getD (2 * t) 0 ≠ 4)
      ∧ (d.acceptInput (2 * t + 1)).hotHas t false = false))
    ∧ (∃ t, Met (fun m _ d => m.adminServed = true ∧ t < 64 ∧ d.newInput (2 * t + 1) 16 = some false
      ∧ (m = .safe ∨ (d.acceptInput (2 * t + 1)).hotHas t false = true)))
    ∧ (∃ t, Met (fun m _ d => m.adminServed = true ∧ t < 64 ∧ d.newInput (2 * t + 1) 16 = some true))
    ∧ (∃ t, Met (fun _ _ d => (d.chan t).pg = true ∧ 100 * ms6 ≤ d.since (d.chan t).pgT ∧ d.pwr.perst.contains t = false
      ∧ ∀ h ∈ d.cxl.hot, h.tile ≠ t ∨ h.add = true ∨ h.step ≠ 3))
    ∧ (∃ v k, Met (fun _ _ d => d.vcsUp v = true ∧ k ≤ 30))
    ∧ (∃ t h hs, Met (fun m _ d => d.cxl.hot = h :: hs ∧ h.tile = t ∧ h.add = true ∧ d.tileIn t = false
      ∧ ((d.chan t).st = .latched ∨ (h.step = 1 ∧ (d.chan t).pg = false ∧ 8 * s6 ≤ d.since h.t6) ∨ (h.step = 2 ∧ m ≠ .diagnostic
      ∧ s6 ≤ d.since h.t6))))
    ∧ (∃ l, Met (fun _ p d => d.isCxl l = true ∧ (d.port l).up = true ∧ (d.cxlDown p l).inserted (l / 4) = true))
    ∧ (∃ t h hs, Met (fun _ _ d => d.cxl.hot = h :: hs ∧ h.tile = t ∧ h.add = false ∧ h.step = 3 ∧ h.surprise = false
      ∧ 100 * us6 ≤ d.since h.t6)) :=
  ⟨⟨63,
     0, st .configure { dev with side := { scanned := true, chOk := true, deb := 2 ^ 128 - 1, last := 2 ^ 128 - 1 - 2 ^ 126, run := [(126, 16)] } }, by decide +kernel⟩,
   ⟨63,
     0, st .safe { dev with side := { scanned := true, chOk := true, deb := 2 ^ 128 - 1 - 2 ^ 126, last := 2 ^ 128 - 1, run := [(126, 4)] } }, by decide +kernel⟩,
   ⟨3,
     0, st .configure { dev with side := { scanned := true, chOk := true, deb := 2 ^ 128 - 1 - 2 ^ 6, last := 2 ^ 128 - 1, run := [(6, 4)] } }, by decide +kernel⟩,
   ⟨63,
     0, st .configure { dev with side := { scanned := true, chOk := true, deb := 2 ^ 128 - 1 - 2 ^ 126, last := 2 ^ 128 - 1, run := [(126, 4)] } }, by decide +kernel⟩,
   ⟨3,
     0, st .configure { dev with side := { scanned := true, chOk := true, deb := 2 ^ 128 - 1 - 2 ^ 6, last := 2 ^ 128 - 1 - 2 ^ 7 - 2 ^ 6, run := [(7, 16)] } }, by decide +kernel⟩,
   ⟨3,
     0, st .safe { dev with side := { scanned := true, chOk := true, deb := 2 ^ 128 - 1, last := 2 ^ 128 - 1 - 2 ^ 7, run := [(7, 16)] } }, by decide +kernel⟩,
   ⟨63,
     0, st .configure { dev with side := { scanned := true, chOk := true, deb := 2 ^ 128 - 1 - 2 ^ 127, last := 2 ^ 128 - 1, run := [(127, 16)] } }, by decide +kernel⟩,
   ⟨63, 0, st .runBalanced { dev with slots := { ch := [(63, { pg := true })] } }, by decide +kernel⟩,
   ⟨0, 30, 0, st .runBalanced dev, by decide +kernel⟩,
   ⟨63, { tile := 63, add := true, step := 1, t6 := 0 }, [],
     0, st .configure { dev with cxl := { hot := [{ tile := 63, add := true, step := 1, t6 := 0 }] }, clk := { t6 := 8 * s6 } }, by decide +kernel⟩,
   ⟨8, 0, st .runBalanced { dev with side := { scanned := true, chOk := true, deb := 0 } }, by decide +kernel⟩,
   ⟨63, { tile := 63, add := false, step := 3, t6 := 10 ^ 10 - 600000 }, [],
     0, st .runBalanced { dev with cxl := { hot := [{ tile := 63, add := false, step := 3, t6 := 10 ^ 10 - 600000 }] } }, by decide +kernel⟩⟩

theorem witness_HotplugEvents_2 :
    (∃ t, Met (fun _ _ d => d.cxl.hot = [] ∧ d.slotVppbs t = []))
    ∧ (∃ v, Met (fun _ _ d => d.ctl.svc = some v ∧ v.begun = true ∧ v.endAt = none ∧ (v.op = 2 ∨ v.op = 4) ∧ v.step = 1))
    ∧ (∃ v, Met (fun _ _ d => d.ctl.svc = some v ∧ v.begun = true ∧ v.endAt = none ∧ v.op = 3 ∧ v.step = 1 ∧ v.inst = 0))
    ∧ (Met (fun _ _ d => d.ctl.svc = none)) :=
  ⟨⟨63, 0, st .runBalanced dev, by decide +kernel⟩,
   ⟨{ op := 4, inst := 3, begun := true },
     0, st .service { dev with ctl := { svc := some { op := 4, inst := 3, begun := true } } }, by decide +kernel⟩,
   ⟨{ op := 3, inst := 0, begun := true },
     0, st .service { dev with ctl := { svc := some { op := 3, inst := 0, begun := true } } }, by decide +kernel⟩,
   ⟨0, st .service dev, by decide +kernel⟩⟩

theorem witness_ModeEvents_1 :
    (Met (fun m _ d => m.adminServed = true ∧ d.safeDue = true))
    ∧ (Met (fun m _ d => m.adminServed = true ∧ d.safeDue = false))
    ∧ (Met (fun m _ _ => m = .shelf ∨ m = .coldBoot))
    ∧ (∃ q t, Met (fun _ _ d => d.ctl.pend = some q ∧ q.begun = false ∧ tGe d.now q.epoch = true ∧ q.target = .toRun t ∧ t ≠ .none
      ∧ d.redundancyLost = false))
    ∧ (∃ q t, Met (fun _ _ d => d.ctl.pend = some q ∧ q.begun = false ∧ tGe d.now q.epoch = true ∧ q.target = .toRun t ∧ t ≠ .none
      ∧ d.redundancyLost = true))
    ∧ (∃ q, Met (fun m _ d => d.ctl.pend = some q ∧ q.begun = false ∧ tGe d.now q.epoch = true ∧ q.target = .service ∧ m.tenant = true))
    ∧ (∃ q, Met (fun _ _ d => d.ctl.pend = some q ∧ tGe d.now q.epoch = false))
    ∧ (∃ e, Met (fun m _ d => d.ctl.pend = none ∧ d.ctl.auto = some (true, e) ∧ tGe d.now e = true ∧ m.isRun = true))
    ∧ (∃ e, Met (fun _ _ d => d.ctl.pend = none ∧ d.ctl.auto = some (false, e) ∧ tGe d.now e = true))
    ∧ (Met (fun m _ d => m.tenant = true ∧ d.draining = true ∧ d.drained = true))
    ∧ (Met (fun _ _ d => d.drained = false))
    ∧ (∃ q, Met (fun m _ d => m = .configure ∧ d.ctl.pend = some q ∧ q.target = .diagnostic true)) :=
  ⟨⟨0, st .configure { dev with ctl := { pend := some { target := .safe, epoch := 0 } } }, by decide +kernel⟩,
   ⟨0, st .configure dev, by decide +kernel⟩,
   ⟨0, st .shelf dev, by decide +kernel⟩,
   ⟨{ target := .toRun .secure, epoch := 0 }, .secure,
     0, st .configure { dev with ctl := { pend := some { target := .toRun .secure, epoch := 0 } } }, by decide +kernel⟩,
   ⟨{ target := .toRun .secure, epoch := 0 }, .secure,
     0, st .configure { dev with ctl := { pend := some { target := .toRun .secure, epoch := 0 } }, flt := { status := 2 ^ 33 } }, by decide +kernel⟩,
   ⟨{ target := .service, epoch := 0 },
     0, st .degraded { dev with ctl := { pend := some { target := .service, epoch := 0 } } }, by decide +kernel⟩,
   ⟨{ target := .safe, epoch := 2 * 10 ^ 9 },
     0, st .configure { dev with ctl := { pend := some { target := .safe, epoch := 2 * 10 ^ 9 } } }, by decide +kernel⟩,
   ⟨0, 0, st .runBalanced { dev with ctl := { auto := some (true, 0) } }, by decide +kernel⟩,
   ⟨0, 0, st .degraded { dev with ctl := { auto := some (false, 0) } }, by decide +kernel⟩,
   ⟨0, st .runBalanced { dev with ctl := { pend := some { target := .configure, epoch := 0, begun := true } } }, by decide +kernel⟩,
   ⟨0, st .runBalanced (withCells [cell0 .lock] [(1, msg0)]), by decide +kernel⟩,
   ⟨{ target := .diagnostic true, epoch := 0 },
     0, st .configure { dev with ctl := { pend := some { target := .diagnostic true, epoch := 0 } } }, by decide +kernel⟩⟩

theorem witness_ModeEvents_2 :
    (∃ q, Met (fun m _ d => m = .diagnostic ∧ d.ctl.pend = some q ∧ q.target = .diagnostic false ∧ d.sec.errState = false)) :=
  ⟨{ target := .diagnostic false, epoch := 0 }, 0, st .diagnostic { dev with ctl := { pend := some { target := .diagnostic false, epoch := 0 } } }, by decide +kernel⟩

/-! ### Ill-formed instructions are refused -/

/-- A fault message whose fields are all at their highest values. -/
def faultTop : FaultMsg :=
  { block := 15, inst := 255, kind := 1023, cls := 3, reach := 63, detail := 2 ^ 52 - 1, time := 2 ^ 40 - 1, seq := 63 }

theorem test_wf_accepts : (Instr.modeGet 0 (frame [])).wf ∧ (Instr.faultMessageTaken 0 faultTop).wf ∧ (Instr.ring 0 (.vcs 255)).wf
    ∧ (Instr.flitReceived 0 255 { flit1 with slots := List.replicate 8 (zeros 64) }).wf ∧ (Instr.amReceived 0 255 9 (mark 9)).wf
    ∧ (Instr.ingressArrival 0 { link := 255, kind := 1, len := 4096 }).wf := by decide

theorem test_wf_frame : (Instr.modeGet 0 { frame [] with flags := 2 ^ 16 }).wf = false
    ∧ (Instr.modeGet 0 { frame [] with tag := 2 ^ 16 }).wf = false ∧ (Instr.modeGet 0 { frame [] with status := 2 ^ 16 }).wf = false
    ∧ (Instr.modeGet 0 { frame [] with sid := 2 ^ 32 }).wf = false ∧ (Instr.modeGet 0 { frame [] with mbx := .reach 32 }).wf = false
    ∧ (Instr.undefinedOpcode 0 (2 ^ 16) (frame [])).wf = false := by decide

theorem test_wf_frame_length : (Frame.wf { frame [] with payload := List.replicate (2 ^ 16) 0 }) = false := by
  simp only [Frame.wf, List.length_replicate]; decide

theorem test_wf_fault : ({ faultTop with block := 16 } : FaultMsg).wf = false ∧ ({ faultTop with inst := 256 } : FaultMsg).wf = false
    ∧ ({ faultTop with kind := 1024 } : FaultMsg).wf = false ∧ ({ faultTop with cls := 4 } : FaultMsg).wf = false
    ∧ ({ faultTop with reach := 64 } : FaultMsg).wf = false ∧ ({ faultTop with detail := 2 ^ 52 } : FaultMsg).wf = false
    ∧ ({ faultTop with time := 2 ^ 40 } : FaultMsg).wf = false ∧ ({ faultTop with seq := 64 } : FaultMsg).wf = false := by decide

theorem test_wf_arrival : ({ link := 256, kind := 1 } : Arrival).wf = false ∧ ({ link := 0, kind := 256 } : Arrival).wf = false
    ∧ ({ link := 0, kind := 1, addr := 2 ^ 64 } : Arrival).wf = false ∧ ({ link := 0, kind := 1, len := 4097 } : Arrival).wf = false := by
  decide

theorem test_wf_arrival_data : ({ link := 0, kind := 1, data := List.replicate 4097 0 } : Arrival).wf = false := by
  simp only [Arrival.wf, List.length_replicate]; decide

theorem test_wf_flit : flit1.wf = false ∧ ({ flit1 with slots := List.replicate 8 (zeros 63) } : Flit).wf = false
    ∧ ({ flit1 with slots := List.replicate 8 (zeros 64), errs := [0] } : Flit).wf = false := by decide

theorem test_wf_mark : (mark 16).wf = false ∧ ({ mark 0 with flags := 256 } : AMark).wf = false
    ∧ ({ mark 0 with rxMask := 256 } : AMark).wf = false := by decide

theorem test_wf_places : (Instr.tilePark 0 64).wf = false ∧ (Instr.ackTimer 0 256).wf = false ∧ (Instr.laneLockLost 0 0 10).wf = false
    ∧ (Instr.ring 0 (.vcs 256)).wf = false ∧ (Instr.railRecovered 0 6).wf = false ∧ (Instr.resyncDone 0 33).wf = false
    ∧ (Instr.stackLost 0 2 0).wf = false ∧ (Instr.basinGibCleared 0 64).wf = false ∧ (Instr.planeLost 0 2 false).wf = false
    ∧ (Instr.basinReturn 0 0 8).wf = false ∧ (Instr.reachResetE2 0 32).wf = false ∧ (Instr.l0pRequest 0 0 3).wf = false := by decide

theorem test_wf_numbers : (Instr.registerWrite 0 .admin 0 3 0).wf = false ∧ (Instr.commandDone 0 .admin (2 ^ 16)).wf = false
    ∧ (Instr.lockoutEnd 0 16).wf = false ∧ (Instr.feedValid 0 8 0 0).wf = false ∧ (Instr.refclkLost 0 2).wf = false
    ∧ (Instr.bridgeTimeout 0 (2 ^ 16)).wf = false ∧ (Instr.pathReserveTimeout 0 (2 ^ 32)).wf = false
    ∧ (Instr.stageTransfer 0 0 3).wf = false ∧ (Instr.hostPowerControlWrite 0 256 0 true).wf = false
    ∧ (Instr.fmApiUnsupportedSet 0 (.cci 256) 0).wf = false ∧ (Instr.spdmRequest 0 (.doe 256) .finish).wf = false
    ∧ (Instr.fmApiUnbindVppb 0 .mctp 0 32 0).wf = false := by decide

/-! ### Values that the spec works out -/

/-- The check values of R468 and the example of chapter 21. -/
theorem test_crc8 : crc8 (nb 9 0x393837363534333231) = 0xF4 ∧ crc8 [0x01, 0x00, 0x10, 0x00, 0x04] = 0xDC
    ∧ crc8 [0x00, 0x03, 0x01, 0x00, 0x00] = 0x51 := by decide +kernel

/-- The check value of R202. -/
theorem test_crc64 : crc64 (nb 9 0x393837363534333231) = 0x62EC59E3F1A4F00A#64 := by decide +kernel

/-- The example of chapter 11 (R257, R259): the first byte of lane 0 after LOCK. -/
theorem test_scramble : (scrambleByte (seed 0) 0).2 = 0xF1#8 ∧ byteSymbols 0xF1 = [2, 2, 0, 1] := by decide

/-- A lane at its 32nd symbol of level 0 stuffs a 3, and the lane beside it at level 2 a 0 (R260). -/
theorem test_stuff : (stuff [{}, {}] (List.replicate 32 [0, 2])).2.drop 31 = [[0, 2], [3, 0]] := by decide

/-- A word with its parity is a codeword, and with one symbol changed it is not (R201). -/
theorem test_parity : rsClean ([1, 2, 3, 4] ++ rsParity [1, 2, 3, 4]) = true ∧ rsClean ([1, 2, 3, 5] ++ rsParity [1, 2, 3, 4]) = false := by
  decide +kernel

/-- A lane of four carries every fourth column of 4 bytes (R203). -/
theorem test_stripe : (stripe 0x33 ((List.range 32).map (BitVec.ofNat 8))).map (fun x => (x.1, x.2.map (·.toNat)))
    = [(0, [0, 1, 2, 3, 16, 17, 18, 19]), (1, [4, 5, 6, 7, 20, 21, 22, 23]), (4, [8, 9, 10, 11, 24, 25, 26, 27]),
       (5, [12, 13, 14, 15, 28, 29, 30, 31])] := by decide +kernel

/-- A marker begins 3, 0 and ends with the complement of its last byte (Table LANE-6). -/
theorem test_marker : (amSymbols { lane := 9, flags := 1, countdown := 16, rxMask := 0xFF, sub := 0xF }).drop 32
    = [0, 0, 2, 2, 0, 0, 0, 0, 3, 3, 0, 2, 3, 3, 3, 2, 3, 2, 3, 3, 1, 1, 1, 1, 3, 3, 1, 1, 3, 3, 3, 3] := by decide +kernel

/-- The first flit of a link that carries one message of one slot (Table LINK-3): seq 0, ack 0xFFF, credit class 0. -/
theorem test_first_flit : ((({} : Ig).addSlot 0x63 (zeros 64)).close.out.map (·.hdr)) = some 0x0000FFF000000000E0E0E0E0E0E0E063#128 := by
  decide +kernel

/-- The example of chapter 9: delay 196.0 ns and theta 3.25 ns. -/
theorem test_theta : recordTimes (zeros 40 ++ nb 6 (1000400 * 16) ++ nb 6 (1000000 * 16) ++ nb 6 (1000192 * 16 + 12)) (1000599 * 16 + 4)
    = some (196 * 16, 52) := by decide +kernel

/-- The example of chapter 5: from link 20 to link 160 the pin is position 59. -/
theorem test_pin : pinPos 20 160 64 = 59 := by decide

/-- The examples of chapter 2: the first commit epoch after each of these times. -/
theorem test_epoch : epochAfter 5000300 = 5003264 ∧ epochAfter 12345678 = 12348416 := by decide

/-- The example of chapter 0: DEV_IDENT of interface 1.3, and with no firmware running. -/
theorem test_ident : ({ dev with img := { major := 1, minor := 3 } } : Dev).ident = 0x4F586410B0000103
    ∧ State.reset.dev.ident = 0x4F586410B0000000 := by decide

/-- The example of chapter 21: Configure in the approved state. -/
theorem test_mode_word : devMode .configure .none { dev with sec := { approved := true } } = 0x103 := by decide

/-- The example of chapter 17: the message that a lost plane sends. -/
theorem test_fault_word : faultWord { block := 2, inst := 1, kind := 0x010, cls := 0, reach := 0x3F, detail := 16, time := 3000000000, seq := 5 }
    = 0x201040FC000000000004002CB4178005 := by decide

/-- The example of chapter 6: red Bulk writes at pressure 127 are refused with p = 95 / 128, green and yellow ones never. -/
theorem test_refusal : refuseBelow (32, 160, 255) 127 = 48640 ∧ refuseBelow (128, 224, 127) 127 = 0 ∧ refuseBelow (224, 255, 63) 127 = 0 := by
  decide

/-- The example of chapter 4: the address whose bits [11:8] are 0xA goes to descriptor 10, link 148. -/
theorem test_rule : let e := leN (put (put (zeros 48) 15 (nb 2 (148 * 16))) 35 (nb 13 (4 * 2 + 0x15FFFFFFF * 2 ^ 8 + 0x100000000 * 2 ^ 48))) 0 48
    eWays e = 4 ∧ eBase e = 0x100000000 ∧ eLimit e = 0x15FFFFFFF ∧ eCovers e 0x100000000A40 = true ∧ eTarget e 0x100000000A40 = 148 * 16 := by
  decide +kernel

/-- R102, R104: a header word of the model checks and is well formed, one changed bit fails its check, and a reserved class or a set
reserved bit is malformed. -/
theorem test_cellHeader :
    (let c : Cell := { id := 1, msg := 1, dst := 160, src := 20, cls := 1, reach := 3, pin := true, kind := 0, loc := .lock }
     headerChecks c.header = true ∧ headerMalformed c.header = false ∧ headerChecks (c.header + 2 ^ 20) = false
     ∧ bits c.header 127 119 = 160 ∧ headerMalformed ({ c with cls := 6 } : Cell).header = true
     ∧ headerMalformed ({ c with kind := 0xB, len := 1 } : Cell).header = true) := by decide +kernel

/-! ### Whole-machine statements: states that meet their hypotheses -/

/-- A request as a command sees it. -/
def cx (f : Frame) (m : Mode := .configure) (d : Dev := dev) : Ctx := { m := m, p := .none, d := d, f := f }

/-- The device with an IDENTIFY at a place among the long commands of the admin mailbox. -/
def longs (n : Nat) : Dev :=
  { dev with mgmt := { mbxs := [(.admin, { longs := (List.range n).map fun k => { tag := 7 + k, opcode := 0x3003 } })] } }

theorem witness_StepRunsFront : (∃ (c : Instr) (rest : List Instr) (s : State), s.pending = c :: rest)
    ∧ (∃ s : State, s.pending = []) := ⟨⟨_, _, State.reset.withPending [.tapReset 0], rfl⟩, ⟨State.reset, rfl⟩⟩

theorem witness_CommandsGoOn : (∃ s : State, s.mode ≠ .shelf ∧ (s.elapse 0).dev.sec.debug = true ∧ s.profile.isSecure = false)
    ∧ (∃ s : State, s.mode ≠ .shelf ∧ (s.elapse 0).dev.sec.debug = false) ∧ (∃ s : State, s.mode = .shelf) :=
  ⟨⟨st .safe { dev with sec := { debug := true } }, by decide⟩, ⟨st .safe dev, by decide⟩, ⟨st .shelf dev, by decide⟩⟩

theorem witness_MachineFrames : (∃ i s t, movesMode i = false ∧ touchesMemory i = false ∧ exec i s = .next t) ∧ (∃ i s t, movesMode i = true ∧ exec i s = .next t) :=
  ⟨⟨.tapReset 0, State.reset, _, by decide, by decide, rfl⟩, ⟨.safeEntry 0 { romOk := true, failed := 0 }, State.reset, _, by decide, rfl⟩⟩

theorem witness_ProfileFits : ∃ s t, profileFits s.mode s.profile = true ∧ step s = .next t :=
  ⟨(st .runBalanced dev).withPending [.tapReset 0], _, by decide, rfl⟩

theorem witness_BasinCanonical : ∃ s t, s.mem.wf ∧ s.mem.byte 3 = 5 ∧ step s = .next t :=
  ⟨{ st .runBalanced dev with mem := { cells := [(3, 5)] }, pending := [.tapReset 0] }, _, by decide, by decide, rfl⟩

theorem witness_MemoryReadsBack : ∃ m : Mem, m.wf ∧ m.byte 3 = 5 := ⟨{ cells := [(3, 5)] }, by decide⟩

theorem witness_BasinStores :
    (∃ (s : State) (x : Msg) (t : State), (s.elapse 0).dev.portMsg 0 1 = some x ∧ x.acc = .write ∧ exec (.basinMemoryAccess 0 0 1) s = .next t)
    ∧ (∃ (s : State) (x : Msg) (t : State), (s.elapse 0).dev.portMsg 0 1 = some x ∧ x.acc ≠ .write ∧ exec (.basinMemoryAccess 0 0 1) s = .next t)
    ∧ (∃ (s : State) (x : Msg) (t : State), (s.elapse 0).dev.portMsg 0 1 = some x ∧ x.acc = .atomic 4 8 ∧ exec (.basinAtomicop 0 0 1) s = .next t)
    ∧ (∃ t, exec (.basinGibCleared 0 23) (st .runBalanced (atPort .read false)) = .next t)
    ∧ (∃ t, exec (.basinFill 0 (frame (zeros 28))) (st .configure dev) = .next t)
    ∧ (∃ t, exec (.dredgerScrub 0 0 0 .clean) (st .runBalanced dev) = .next t) :=
  ⟨⟨st .runBalanced (atPort .write false), basinMsg .write false, _, by decide +kernel, by decide, rfl⟩,
   ⟨st .runBalanced (atPort .read false), basinMsg .read false, _, by decide +kernel, by decide, rfl⟩,
   ⟨st .runBalanced (atPort (.atomic 4 8) false), basinMsg (.atomic 4 8) false, _, by decide +kernel, by decide, rfl⟩,
   ⟨_, rfl⟩, ⟨_, rfl⟩, ⟨_, rfl⟩⟩

theorem witness_BilodOrder_1 : (cx { frame [] with flags := 1 }).f.flags ≠ 0
    ∧ (cx { frame [] with status := 1 }).f.status ≠ 0 ∧ (cx (frame (zeros 4081))).f.payload.length > 4080
    ∧ (cx (frame (zeros 3))).f.payload.length < (cmdModeSet true).len
    ∧ (cx { frame [] with mbx := .reach 0 }).f.sid ≠ 0 ∧ (cx { frame [] with mbx := .tunnel }).f.sid ≠ 0
    ∧ (headerCheck cmdSelfTestRun.len (cx { frame [] with sid := 0 }) = none ∧ cmdSelfTestRun.src.ok 0x1006 (cx { frame [] with sid := 0 }) = false)
    ∧ (headerCheck cmdShelfEnter.len (cx (frame [])) = none ∧ cmdShelfEnter.src.ok 0x2013 (cx (frame [])) = true
        ∧ cmdShelfEnter.mode .configure = false) := by decide +kernel

/-- A request of a payload, in Configure. -/
def req (b : Bytes) (d : Dev := dev) : Ctx := cx (frame b) .configure d

theorem witness_BilodOrder_2 :
    (headerCheck cmdSelfTestRun.len (req (nb 1 1 ++ zeros 3)) = none ∧ cmdSelfTestRun.src.ok 0x1006 (req (nb 1 1 ++ zeros 3)) = true)
    ∧ (headerCheck cmdCredentialGet.len (req (nb 1 16)) = none ∧ cmdCredentialGet.src.ok 0x1005 (req (nb 1 16)) = true
        ∧ firstFail cmdCredentialGet.fields (req (nb 1 16)) = some (invalid 0))
    ∧ (firstFail cmdCredentialGet.fields (req (nb 1 0 ++ nb 1 1)) = none
        ∧ trailing (cmdCredentialGet.len + cmdCredentialGet.ext (req (nb 1 0 ++ nb 1 1))) (req (nb 1 0 ++ nb 1 1)) = some (invalid 1))
    ∧ trailing (cmdCredentialGet.len + cmdCredentialGet.ext (req (nb 1 0 ++ nb 1 0))) (req (nb 1 0 ++ nb 1 0)) = none
    ∧ (∃ l ∈ ((req [] (longs 1)).d.mbx .admin).longs, l.tag = (req [] (longs 1)).f.tag)
    ∧ 16 ≤ ((req [] (longs 16)).d.mbx .admin).longs.length
    ∧ ((req [] (longs 15)).d.mbx .admin).longs.length < 16 ∧ (cx (nb 1 9 |> frame)).u8 0 ∈ [0, 1, 9, 10] := by decide +kernel

theorem witness_RefusedCommands : (∃ st b, Ctx.servable (cx { frame [] with sid := 0 }) 0x1006 = true
      ∧ cmdSelfTestRun.verdict { m := .configure, p := .none, d := dev.served { frame [] with sid := 0 }, f := { frame [] with sid := 0 } } = some (st, b))
    ∧ Ctx.servable (cx (frame []) .diagnostic { dev with mgmt := { paused := true } }) 0x1006 = false :=
  ⟨⟨.accessDenied, [], by decide +kernel⟩, by decide +kernel⟩

theorem witness_AnonymousCallers : cmdSelfTestRun ∈ commandTable ∧ (cx { frame [] with sid := 0 }).f.sid = 0
    ∧ headerCheck cmdSelfTestRun.len (cx { frame [] with sid := 0 }) = none ∧ cmdSelfTestRun.op ∉ [0x0000, 0x0001, 0x0002, 0x1000, 0x1001, 0x1002]
    ∧ cmdIdentify ∈ commandTable ∧ cmdIdentify.op ∈ [0x0000, 0x0001, 0x0002, 0x1000, 0x1001, 0x1002] :=
  ⟨by simp [commandTable], by decide, by decide, by decide, by simp [commandTable], by decide⟩

/-- The device whose session is the factory's, or has been quiet for fifteen minutes. -/
def withSession (last6 : Nat) (factory : Bool) (role : Nat := 4) : Dev :=
  { dev with clk := { t6 := 10 ^ 13 }, sec := { sessions := [{ id := 1, slot := 0, role := role, mbx := .admin, last6 := last6, factory := factory }] } }

theorem witness_SessionsAndRoles :
    (req [] (withSession (10 ^ 13) false 1)).who = .role 1 false ∧ (req [] (withSession (10 ^ 13) false 2)).who = .role 2 false
    ∧ cmdModeGet.src.ok 0x2000 (req [] (withSession (10 ^ 13) false 1)) = true
    ∧ headerCheck cmdModeGet.len (req []) = none ∧ (req [] (withSession 0 false)).d.session 1 ≠ none
    ∧ 900 * s6 ≤ (withSession (10 ^ 13 - 900 * s6) false).since (10 ^ 13 - 900 * s6)
    ∧ (withSession 0 true).session 1 = some { id := 1, slot := 0, role := 4, mbx := .admin, last6 := 0, factory := true }
    ∧ cmdModeGet.op ∉ [0x1000, 0x1003, 0x1004] := by decide +kernel

/-! ### Rules: states and operands that meet their hypotheses -/

theorem witness_ResponseSegments : ∃ r : Resp, r.opcode < 2 ^ 16 ∧ r.tag < 2 ^ 16 ∧ r.sid < 2 ^ 32 ∧ r.seg < 256 ∧ r.payload.length < 2 ^ 32
    ∧ r.dropped = false ∧ r.payload.length ≤ 4080 * 1 ∧ r.frame.length = 20 :=
  ⟨{ opcode := 0xFFFF, tag := 0xFFFF, status := .success, sid := 2 ^ 32 - 1, payload := zeros 4 }, by decide⟩

/-- An event queue with a number of records of another code than COMMAND_DONE. -/
def evs (n : Nat) : Mailbox := { evq := List.replicate n { code := 1, time := 0 } }

theorem evs_length (n : Nat) : ((evs n).evq.filter fun x => decide (x.code ≠ 0x500)).length = n := by simp [evs]

theorem witness_EventQueue : (∃ b : Mailbox, (b.evq.filter fun x => decide (x.code ≠ 0x500)).length = 240)
    ∧ (∃ b : Mailbox, (b.evq.filter fun x => decide (x.code ≠ 0x500)).length < 240) :=
  ⟨⟨evs 240, evs_length 240⟩, ⟨evs 239, by rw [evs_length]; decide⟩⟩

theorem witness_Timebase : (∃ c : Clk, c.slewT < 125 ∧ c.slew ≠ 0 ∧ (c.elapse 125).slew ≠ c.slew)
    ∧ (2 ^ 40 - 1 < 2 ^ 40 ∧ 2 ^ 39 - 1 < 2 ^ 39 ∧ 0 < 2 ^ 39 - 1) := ⟨⟨{ t6 := 0, tb48 := 0, slew := 100, slewT := 124 }, by decide⟩, by decide⟩

theorem witness_FaultWord : faultTop.wf = true ∧ faultOfWord (faultWord faultTop) = faultTop ∧ faultWord faultTop = 2 ^ 128 - 1 := by decide +kernel

/-- The device with a number of messages of one source unsent. -/
def unsentOf (n : Nat) : Dev := { dev with flt := { transit := List.replicate n { faultTop with block := 2, inst := 1 } } }

theorem witness_FaultSources : (∀ n, unsent (unsentOf n) 2 1 = n) ∧ (4 ≤ unsent (unsentOf 4) 2 1) ∧ unsent (unsentOf 3) 2 1 < 4 := by
  have h : ∀ n, unsent (unsentOf n) 2 1 = n := fun n => by simp [unsent, unsentOf]
  exact ⟨h, Nat.le_of_eq (h 4).symm, by have := h 3; omega⟩

/-- The loss of plane 1 (Table FAULT-4). -/
def planeGone (cls reach : Nat) : FaultMsg := { block := 2, inst := 1, kind := 0x10, cls := cls, reach := reach, detail := 0, time := 0, seq := 5 }

theorem witness_FaultTaken : malformed 1 (planeGone 1 0) = false ∧ (planeGone 1 0).reach < dev.nReach ∧ redundancyBit (planeGone 1 0) = some 33
    ∧ malformed 1 (planeGone 3 0x3F) = true ∧ 2 ≤ (planeGone 2 0x3F).cls
    ∧ ({ flt := { hist := List.replicate 64 { msg := planeGone 1 0, flags := 0, index := 0, tTake := 0 } } } : Dev).flt.hist.length = 64 := by
  decide +kernel

theorem witness_FaultClear : (3 : Nat) < 44 ∧ (43 : Nat) < 44 ∧ (31 : Nat) < 32 ∧ (2 : Nat) < 3 ∧ Nat.testBit 4 2 = true ∧ Nat.testBit 4 1 = false
    ∧ (32 : Nat) ≤ 32 := by decide

theorem witness_CounterWrap : (∃ (c : Counter) (n : Nat), c.value + n < 2 ^ 48)
    ∧ (∃ (c : Counter) (n : Nat), c.value < 2 ^ 48 ∧ n ≤ 2 ^ 48 ∧ 2 ^ 48 ≤ c.value + n ∧ c.cfg.testBit 49 = false)
    ∧ (∃ (c : Counter) (n : Nat), c.value < 2 ^ 48 ∧ n ≤ 2 ^ 48 ∧ 2 ^ 48 ≤ c.value + n ∧ c.cfg.testBit 49 = true
      ∧ c.value + n - 2 ^ 48 + c.reload < 2 ^ 48) :=
  ⟨⟨{ value := 2 ^ 48 - 2 }, 1, by decide⟩, ⟨{ value := 2 ^ 48 - 1 }, 1, by decide⟩,
   ⟨{ value := 2 ^ 48 - 1, cfg := 2 ^ 49, reload := 2 ^ 48 - 1 }, 1, by decide⟩⟩

theorem witness_HighAddresses : 2 ^ 52 ≤ 2 ^ 52 ∧ (dev.nReach > 8 ∨ false = true ∨ false = false) ∧ eValid (dev.defaultMap false 0) = false := by
  decide +kernel

/-- A rule that covers page 5, of two ways. -/
def rule5 : Bytes := put (put (put (zeros 48) 35 (nb 1 2)) 36 (nb 10 (5 + 5 * 2 ^ 40))) 47 (nb 1 0x80)

/-- A device with that rule at index 3 of Reach 0. -/
def withRule : Dev := { dev with conf := { active := [({ op := 0x5000, a := 0, b := 3 }, rule5)] } }

theorem witness_RuleMatch : (3, leN rule5 0 48) ∈ withRule.rules false 0 ∧ eCovers (leN rule5 0 48) (5 * 4096 + 4095) = true
    ∧ withRule.ruleAt false 0 (5 * 4096) = some (3, leN rule5 0 48) ∧ 0 < eWays (leN rule5 0 48) ∧ eWays 0 = 0 := by decide +kernel

theorem witness_CalendarCells : (dev.calPick 4 1000 2 [32]).isSome = true := by decide +kernel

theorem witness_SlotLimits : ∃ (dt g : Nat) (s t : State), ((groupChans g).filter fun k => ((s.elapse dt).dev.chan k).st == .ramping).length ≤ 2
    ∧ exec (.rampStart dt g) s = .next t := ⟨0, 7, st .runBalanced dev, _, by decide +kernel, rfl⟩

theorem witness_StagedSets : ∃ (items : List (CfgKey × Option Bytes)) (k : CfgKey) (v : Option Bytes), items.getLast? = some (k, v)
    ∧ (∀ x ∈ items, x.1 ≠ { op := 0x4001 }) := ⟨[({ op := 0x4000 }, some [1])], _, _, rfl, by decide⟩

theorem witness_PageRegisters : dev.viewMbx .admin = some .admin ∧ dev.img.major < 256 ∧ dev.img.minor < 256 := by decide

/-- The device that drains to Configure. -/
def drain0 (q : List Msg) : Dev := { withQ q with ctl := { pend := some { target := .configure, epoch := 0, begun := true } } }

theorem witness_TenantAdmission : (∃ x, (withQ [{ msg0 with cls := 0}]).weirPick .configure 2 = some x)
    ∧ (drain0 [{ msg0 with cls := 0 }]).draining = true ∧ (∃ x, (drain0 [{ msg0 with cls := 0 }]).weirPick .runBalanced 2 = some x)
    ∧ (st .safe dev).mode.tenant = false ∧ (st .safe dev).mode ≠ .configure
    ∧ ((st .runBalanced { dev with weir := { stopped := true } }).elapse 0).dev.weir.stopped = true :=
  ⟨⟨_, rfl⟩, by decide, ⟨_, rfl⟩, by decide, by decide, by decide⟩

end Sys2Proof.Tests
end

section
/-! What the Weir takes up (R21, R28, R403): the head that its arbiter picks is never one that the mode bars, so the conditions under
which a message passes are those of every pick. -/

namespace Sys2Proof.Machine

section
variable {d : Dev} {m : Mode} {x : Msg}

/-- What the mode lets pass: nothing while admission is stopped (R403), in Configure Control and responses alone (R21), in a drain
no new request of a tenant (R28). -/
theorem Dev.barred_eq_false_iff :
    d.barred m x = false ↔
      d.weir.stopped = false ∧ (m.tenant = true ∨ m = .configure ∧ (x.cls = 0 ∨ x.rsp.isSome = true)) ∧
      (d.draining = true → x.cls = 0 ∨ x.rsp.isSome = true ∨ x.acc = .none ∨ x.queued = true) := by
  unfold Dev.barred
  split
  case isTrue hstop => simp only [hstop, Bool.true_eq_false, false_and]
  case isFalse hstop =>
    rw [Bool.not_eq_true] at hstop
    split
    case isTrue hrsp =>
      simp only [hstop, hrsp, Bool.not_eq_false', Bool.or_eq_true, beq_iff_eq, true_or, or_true, implies_true, and_true, true_and]
    case isFalse hrsp =>
      split
      case isTrue hcls =>
        simp only [hstop, hcls, Bool.not_eq_false', Bool.or_eq_true, beq_iff_eq, true_or, implies_true, and_true, true_and]
      case isFalse hcls =>
        simp only [hstop, hrsp, hcls, Bool.or_eq_false_iff, Bool.not_eq_false', Bool.and_eq_false_iff, bne_eq_false_iff_eq,
          false_or, true_and]
        cases d.draining <;> simp only [reduceCtorEq, false_or, or_false, true_or, and_false, false_implies, true_implies]

/-- The head of a FIFO is a message that the mode does not bar. -/
theorem Dev.head_not_barred {l c : Nat} (h : d.head m l c = some x) : d.barred m x = false := by
  have hhead := List.find?_some h
  simp only [Bool.and_eq_true, Bool.not_eq_true'] at hhead
  exact hhead.2

/-- The Weir picks no message that the mode bars. -/
theorem Dev.weirPick_not_barred {t : Nat} (h : d.weirPick m t = some x) : d.barred m x = false := by
  obtain ⟨g, -, hg⟩ := List.exists_of_findSome?_eq_some h
  obtain ⟨k, -, hready⟩ := Option.bind_eq_some_iff.mp hg
  split at hready
  · exact Dev.head_not_barred (Option.filter_eq_some_iff.mp hready).1
  · contradiction

/-- Where the mode bars every message, the Weir picks none. -/
theorem Dev.weirPick_eq_none {t : Nat} (h : ∀ x, d.barred m x = true) : d.weirPick m t = none :=
  Option.eq_none_iff_forall_ne_some.mpr fun x hx => Bool.false_ne_true ((Dev.weirPick_not_barred hx).symm.trans (h x))

/-- A cycle in which the Weir picks no head only lets its time pass (R45). -/
theorem exec_weirEvaluate_of_weirPick_none {dt t : Nat} {s : State} (h : (s.elapse dt).dev.weirPick s.mode t = none) :
    exec (.weirEvaluate dt t) s = .next (s.elapse dt) := by
  have hexec : exec (.weirEvaluate dt t) s = execWeirEvaluate dt t s := rfl
  rw [hexec, execWeirEvaluate, event, State.onDev, h]

end

/-- Settles O60: each pick passes the conditions of `Dev.barred_eq_false_iff`, and where no message can meet them the Weir's cycle
only takes its time. -/
theorem tenantAdmission : Obligations.TenantAdmission := by
  refine ⟨fun d m t x hm hx => ?_, fun d m t x hd hx => ?_, fun dt t s hm hc => ?_, fun dt t s hs => ?_⟩
  · obtain ⟨-, hmode, -⟩ := Dev.barred_eq_false_iff.mp (Dev.weirPick_not_barred hx)
    exact hmode.resolve_left (Bool.eq_false_iff.mp hm)
  · obtain ⟨-, -, hdrain⟩ := Dev.barred_eq_false_iff.mp (Dev.weirPick_not_barred hx)
    exact hdrain hd
  · refine exec_weirEvaluate_of_weirPick_none (Dev.weirPick_eq_none fun x => Bool.of_not_eq_false fun hpass => ?_)
    obtain ⟨-, hmode, -⟩ := Dev.barred_eq_false_iff.mp hpass
    exact hc (hmode.resolve_left (Bool.eq_false_iff.mp hm)).1
  · refine exec_weirEvaluate_of_weirPick_none (Dev.weirPick_eq_none fun x => Bool.of_not_eq_false fun hpass => ?_)
    obtain ⟨hstop, -⟩ := Dev.barred_eq_false_iff.mp hpass
    exact Bool.false_ne_true (hstop.symm.trans hs)

end Sys2Proof.Machine
end

section
/-! The moves of DEV_MODE (R24, R26, Tables MODE-3 and MODE-6): what each row of the opcode table can do to the mode and the profile. Every
invariant of the two follows from these moves alone. -/

namespace Sys2Proof.Machine

/-! ### The modes -/

section
variable {m a b : Mode} {p : Profile}

theorem Profile.mode_isRun (h : p ≠ .none) : p.mode.isRun = true := by
  cases p with
  | none => exact absurd rfl h
  | _ => rfl

theorem Mode.tenant_of_isRun (h : m.isRun = true) : m.tenant = true := by
  cases m with
  | runDeterministic | runBalanced | runThroughput | runSecure | runPowerCapped => rfl
  | _ => nomatch h

theorem Profile.mode_tenant (h : p ≠ .none) : p.mode.tenant = true := Mode.tenant_of_isRun (Profile.mode_isRun h)

/-- The modes with tenant traffic are those with a Run profile (Table MODE-3). -/
theorem profileFits_of_tenant (h : m.tenant = true) :
    profileFits m p = true ↔ p ≠ .none ∧ (m.isRun = true → p.mode = m) := by
  cases m with
  | runDeterministic | runBalanced | runThroughput | runSecure | runPowerCapped => cases p <;> decide
  | degraded | service => cases p <;> decide
  | _ => nomatch h

theorem profileFits_none (h : m.tenant = false) : profileFits m .none = true := by
  cases m with
  | runDeterministic | runBalanced | runThroughput | runSecure | runPowerCapped | degraded | service => nomatch h
  | _ => rfl

theorem profileFits_mode (h : p ≠ .none) : profileFits p.mode p = true :=
  (profileFits_of_tenant (Profile.mode_tenant h)).mpr ⟨h, fun _ => rfl⟩

/-! ### What a commit epoch does -/

/-- The moves of a commanded change at its epoch (Table MODE-6, steps 4, 5, 8 and 14): a Run profile is entered from Configure, into
Degraded while redundancy is lost; it is exchanged for another; Service begins. -/
inductive Commanded : Mode → Profile → Mode → Profile → Prop
  | stays {m : Mode} {p : Profile} : Commanded m p m p
  | runs {p q : Profile} (hq : q ≠ .none) : Commanded .configure p q.mode q
  | degraded {p q : Profile} (hq : q ≠ .none) : Commanded .configure p .degraded q
  | exchanges {m : Mode} {p q : Profile} (hm : m.isRun = true) (hq : q ≠ .none) : Commanded m p q.mode q
  | exchangesUnder {m : Mode} {p q : Profile} (hm : m.tenant = true) (hr : m.isRun = false) (hq : q ≠ .none) : Commanded m p m q
  | serves {m : Mode} {p : Profile} (hm : m.tenant = true) : Commanded m p .service p

/-- The moves that keep the profile (Table MODE-6, steps 6, 7 and 9): into Degraded, and back to the mode that the profile names. -/
inductive Automatic : Mode → Profile → Mode → Prop
  | stays {m : Mode} {p : Profile} : Automatic m p m
  | degrades {m : Mode} {p : Profile} (hm : m.tenant = true) : Automatic m p .degraded
  | returns {m : Mode} {p : Profile} (hm : m.tenant = true) : Automatic m p p.mode

theorem commanded_pendActs (x : Moved) : Commanded x.m x.p (pendActs x).m (pendActs x).p := by
  unfold pendActs
  split
  next q hq =>
    split
    · exact .stays
    · dsimp only
      split
      next p hp =>
        split
        next hrun =>
          rw [hrun.1]
          dsimp only
          split
          · exact .degraded hrun.2
          · exact .runs hrun.2
        · exact .stays
      next p hp =>
        split
        next hnew =>
          dsimp only
          split
          next hrun => exact .exchanges hrun hnew.2
          next hrun => exact .exchangesUnder hnew.1 (Bool.eq_false_iff.mpr hrun) hnew.2
        · exact .stays
      next =>
        split
        next hm => exact .serves hm
        · exact .stays
      · exact .stays
  · exact .stays

theorem automatic_autoActs (x : Moved) : Automatic x.m x.p (autoActs x).m ∧ (autoActs x).p = x.p := by
  unfold autoActs
  split
  next lost e hauto =>
    split
    · exact ⟨.stays, rfl⟩
    · extract_lets d leaving
      split
      · exact ⟨.stays, rfl⟩
      · split
        · refine ⟨?_, rfl⟩
          dsimp only
          split
          next hrun => exact .degrades (Mode.tenant_of_isRun hrun)
          · exact .stays
        · refine ⟨?_, rfl⟩
          dsimp only
          split
          next hdeg => exact .returns (hdeg ▸ rfl)
          · exact .stays
  · exact ⟨.stays, rfl⟩

theorem automatic_serviceActs (x : Moved) : Automatic x.m x.p (serviceActs x).m ∧ (serviceActs x).p = x.p := by
  unfold serviceActs
  split
  next e hend =>
    split
    · exact ⟨.stays, rfl⟩
    next hin =>
      split
      · exact ⟨.stays, rfl⟩
      · have htenant : x.m.tenant = true := by rw [Decidable.of_not_not fun hm => hin (.inr hm)]; rfl
        refine ⟨?_, rfl⟩
        dsimp only
        unfold Dev.serviceLeads
        split
        · exact .degrades htenant
        · exact .returns htenant
  · exact ⟨.stays, rfl⟩

/-- An epoch makes a commanded move, then an automatic one, then the end of Service. -/
theorem epochActs_moves (m : Mode) (p : Profile) (d : Dev) :
    ∃ m₁ m₂, Commanded m p m₁ (epochActs m p d).p ∧ Automatic m₁ (epochActs m p d).p m₂
      ∧ Automatic m₂ (epochActs m p d).p (epochActs m p d).m := by
  obtain ⟨hauto, hautoP⟩ := automatic_autoActs (pendActs { m, p, d := d.svcEpoch })
  obtain ⟨hsvc, hsvcP⟩ := automatic_serviceActs (autoActs (pendActs { m, p, d := d.svcEpoch }))
  have hp : (epochActs m p d).p = (pendActs { m, p, d := d.svcEpoch }).p := hsvcP.trans hautoP
  rw [hautoP] at hsvc
  rw [hp]
  exact ⟨_, _, commanded_pendActs { m, p, d := d.svcEpoch }, hauto, hsvc⟩

theorem Commanded.profileFits {q : Profile} (h : Commanded m p a q) (hfit : profileFits m p = true) : profileFits a q = true := by
  cases h with
  | stays => exact hfit
  | runs hq | exchanges _ hq => exact profileFits_mode hq
  | degraded hq => exact (profileFits_of_tenant rfl).mpr ⟨hq, nofun⟩
  | exchangesUnder hm hr hq => exact (profileFits_of_tenant hm).mpr ⟨hq, fun hrun => nomatch hr.symm.trans hrun⟩
  | serves hm => exact (profileFits_of_tenant rfl).mpr ⟨((profileFits_of_tenant hm).mp hfit).1, nofun⟩

theorem Automatic.profileFits (h : Automatic m p a) (hfit : profileFits m p = true) : profileFits a p = true := by
  cases h with
  | stays => exact hfit
  | degrades hm => exact (profileFits_of_tenant rfl).mpr ⟨((profileFits_of_tenant hm).mp hfit).1, nofun⟩
  | returns hm => exact profileFits_mode ((profileFits_of_tenant hm).mp hfit).1

/-- The paths of Table MODE-6 that a commit epoch can take, in one or several of its moves. -/
def EpochPath (a b : Mode) : Prop :=
  b = a ∨ (a = .configure ∧ (b.isRun = true ∨ b = .degraded)) ∨ (a.tenant = true ∧ (b.tenant = true ∨ b = .configure))

theorem EpochPath.modePath (h : EpochPath a b) : modePath a b = true := by
  simp only [Machine.modePath, Bool.or_eq_true, Bool.and_eq_true, beq_iff_eq]
  obtain rfl | ⟨rfl, hrun | rfl⟩ | ⟨ha, hb⟩ := h
  · simp
  · simp [hrun]
  · simp
  · simp [ha, hb]

theorem Commanded.epochPath {q : Profile} (h : Commanded m p a q) : EpochPath m a := by
  cases h with
  | stays | exchangesUnder => exact .inl rfl
  | runs hq => exact .inr (.inl ⟨rfl, .inl (Profile.mode_isRun hq)⟩)
  | degraded => exact .inr (.inl ⟨rfl, .inr rfl⟩)
  | exchanges hm hq => exact .inr (.inr ⟨Mode.tenant_of_isRun hm, .inl (Profile.mode_tenant hq)⟩)
  | serves hm => exact .inr (.inr ⟨hm, .inl rfl⟩)

/-- An automatic move ends in a Run mode, in Degraded or, without a profile, in Configure. -/
theorem Automatic.cases_mode (h : Automatic m p b) :
    b = m ∨ m.tenant = true ∧ (b.isRun = true ∨ b = .degraded ∨ b = .configure) := by
  cases h with
  | stays => exact .inl rfl
  | degrades hm => exact .inr ⟨hm, .inr (.inl rfl)⟩
  | returns hm =>
    by_cases hp : p = .none
    · exact .inr ⟨hm, .inr (.inr (by rw [hp]; rfl))⟩
    · exact .inr ⟨hm, .inl (Profile.mode_isRun hp)⟩

theorem EpochPath.automatic (h : EpochPath a m) (hb : Automatic m p b) : EpochPath a b := by
  obtain rfl | ⟨hm, hb⟩ := hb.cases_mode
  · exact h
  · have htenant : b.tenant = true ∨ b = .configure :=
      hb.elim (.inl ∘ Mode.tenant_of_isRun) (Or.imp_left (· ▸ rfl))
    obtain rfl | ⟨rfl, -⟩ | ⟨ha, -⟩ := h
    · exact .inr (.inr ⟨hm, htenant⟩)
    · rcases hb with hrun | hdeg | hcfg
      · exact .inr (.inl ⟨rfl, .inl hrun⟩)
      · exact .inr (.inl ⟨rfl, .inr hdeg⟩)
      · exact .inl hcfg
    · exact .inr (.inr ⟨ha, htenant⟩)

theorem epochActs_path (m : Mode) (p : Profile) (d : Dev) : EpochPath m (epochActs m p d).m := by
  obtain ⟨m₁, m₂, hcmd, hauto, hsvc⟩ := epochActs_moves m p d
  exact (hcmd.epochPath.automatic hauto).automatic hsvc

theorem epochActs_profileFits (d : Dev) (h : profileFits m p = true) :
    profileFits (epochActs m p d).m (epochActs m p d).p = true := by
  obtain ⟨m₁, m₂, hcmd, hauto, hsvc⟩ := epochActs_moves m p d
  exact hsvc.profileFits (hauto.profileFits (hcmd.profileFits h))

end

/-! ### What a row does -/

/-- The moves of mode and profile that a row can make: none; a reset of the core (Table MODE-6, steps 1 and 12), the loss of its rails (13),
the end of the boot (2), the load of an image (3), Diagnostic and back (11), the end of a drain (10), and what a commit epoch does. -/
inductive RowMoves : Mode → Profile → Mode → Profile → Prop
  | stays {m : Mode} {p : Profile} : RowMoves m p m p
  | resets {m : Mode} {p : Profile} : RowMoves m p .coldBoot .none
  | unpowered {m : Mode} {p : Profile} : RowMoves m p .shelf .none
  | boots {p : Profile} : RowMoves .coldBoot p .safe .none
  | loads {p : Profile} : RowMoves .safe p .configure .none
  | tests {p : Profile} : RowMoves .configure p .diagnostic .none
  | testsEnd {p : Profile} : RowMoves .diagnostic p .configure .none
  | drains {m : Mode} {p : Profile} (hm : m.tenant = true) : RowMoves m p .configure .none
  | epoch {m : Mode} {p : Profile} (d : Dev) : RowMoves m p (epochActs m p d).m (epochActs m p d).p

section
variable {i : Instr} {s t : State}

/-- A row that Table MODE-6 does not name keeps the mode and the profile. -/
theorem exec_keeps_mode (hi : movesMode i = false) (h : exec i s = .next t) : t.mode = s.mode ∧ t.profile = s.profile := by
  cases i with
  | powerGood | resetNAssert | coreRailsOff | safeEntry | imageLoad | commitEpoch | configureDrainComplete
  | diagnosticTransitionDone | fatalFault | zeroize | debugEnable | tamperEvent => nomatch hi
  | privateDebugInstruction dt code =>
    replace h : execPrivateDebugInstruction dt code s = .next t := h
    unfold execPrivateDebugInstruction at h
    split at h
    · nomatch h
    · obtain rfl := Host.Outcome.next.inj h
      exact ⟨rfl, rfl⟩
  | _ =>
    obtain rfl := Host.Outcome.next.inj h
    exact ⟨rfl, rfl⟩

/-- A load ends in Configure, or where no copy completes in a reset of the core. -/
theorem State.loadEnds_mode (d : Dev) (k : Nat) :
    (s.loadEnds d k).profile = .none ∧ ((s.loadEnds d k).mode = .configure ∨ (s.loadEnds d k).mode = .coldBoot) := by
  unfold State.loadEnds
  split
  · exact ⟨rfl, .inl rfl⟩
  · dsimp only
    split
    · split
      · exact ⟨rfl, .inl rfl⟩
      · exact ⟨rfl, .inr rfl⟩
    · exact ⟨rfl, .inr rfl⟩

/-- The moves of a command after whose answer the device zeroizes (R384, R386). -/
theorem thenZeroize_moves {k : Cmd} {cause : Nat} {after : Dev → Dev} {dt : Nat} {f : Frame}
    (h : thenZeroize k cause after dt f s = .next t) : RowMoves s.mode s.profile t.mode t.profile := by
  obtain rfl := Host.Outcome.next.inj h
  split
  · exact .resets
  · exact .stays

theorem execSafeEntry_moves {dt : Nat} {b : BootResult} (h : execSafeEntry dt b s = .next t) :
    RowMoves s.mode s.profile t.mode t.profile := by
  obtain rfl := Host.Outcome.next.inj h
  split
  · exact .stays
  next hboot =>
    split
    · exact .stays
    · obtain ⟨hm, -⟩ := not_or.mp hboot
      rw [show s.mode = .coldBoot from Decidable.not_not.mp hm]
      exact .boots

theorem execImageLoad_moves {dt : Nat} (h : execImageLoad dt s = .next t) : RowMoves s.mode s.profile t.mode t.profile := by
  unfold execImageLoad at h
  extract_lets s' d asked at h
  obtain rfl := Host.Outcome.next.inj h
  split
  · exact .stays
  next hload =>
    obtain ⟨hm, -⟩ := not_or.mp hload
    rw [show s.mode = .safe from Decidable.not_not.mp hm]
    split
    next k _ =>
      obtain ⟨hp, hm | hm⟩ := State.loadEnds_mode (s := s') d k
      · rw [hp, hm]
        exact .loads
      · rw [hp, hm]
        exact .resets
    · exact .loads

theorem execCommitEpoch_moves {dt : Nat} (h : execCommitEpoch dt s = .next t) : RowMoves s.mode s.profile t.mode t.profile := by
  obtain rfl := Host.Outcome.next.inj h
  split
  · exact .stays
  · split
    · exact .resets
    · exact .epoch _

theorem execDiagnosticTransitionDone_moves {dt : Nat} {ok : Bool} (h : execDiagnosticTransitionDone dt ok s = .next t) :
    RowMoves s.mode s.profile t.mode t.profile := by
  obtain rfl := Host.Outcome.next.inj h
  split
  · split
    · exact .stays
    next hm =>
      rw [show s.mode = .configure from Decidable.not_not.mp hm]
      exact .tests
  · split
    · exact .stays
    next hm =>
      rw [show s.mode = .diagnostic from Decidable.not_not.mp hm]
      exact .testsEnd
  · exact .stays

/-- Every row makes one of the moves. -/
theorem exec_moves (h : exec i s = .next t) : RowMoves s.mode s.profile t.mode t.profile := by
  cases hi : movesMode i with
  | false =>
    obtain ⟨hm, hp⟩ := exec_keeps_mode hi h
    rw [hm, hp]
    exact .stays
  | true =>
    cases i with
    | powerGood =>
      obtain rfl := Host.Outcome.next.inj h
      exact .resets
    | resetNAssert =>
      obtain rfl := Host.Outcome.next.inj h
      split
      · exact .resets
      · exact .stays
    | coreRailsOff =>
      obtain rfl := Host.Outcome.next.inj h
      exact .unpowered
    | safeEntry => exact execSafeEntry_moves h
    | imageLoad => exact execImageLoad_moves h
    | commitEpoch => exact execCommitEpoch_moves h
    | configureDrainComplete =>
      obtain rfl := Host.Outcome.next.inj h
      split
      next hdrained => exact .drains hdrained.2.1
      · exact .stays
    | diagnosticTransitionDone => exact execDiagnosticTransitionDone_moves h
    | fatalFault =>
      obtain rfl := Host.Outcome.next.inj h
      split
      · exact .stays
      · exact .resets
    | zeroize | debugEnable => exact thenZeroize_moves h
    | tamperEvent =>
      obtain rfl := Host.Outcome.next.inj h
      split
      · exact .stays
      · exact .resets
    | _ => nomatch hi

end

section
variable {m m' : Mode} {p p' : Profile}

theorem RowMoves.modePath (h : RowMoves m p m' p') : modePath m m' = true := by
  cases h with
  | epoch d => exact (epochActs_path m p d).modePath
  | drains hm => simp [Machine.modePath, hm]
  | _ => simp [Machine.modePath]

theorem RowMoves.profileFits (h : RowMoves m p m' p') (hfit : profileFits m p = true) : profileFits m' p' = true := by
  cases h with
  | stays => exact hfit
  | epoch d => exact epochActs_profileFits d hfit
  | _ => exact profileFits_none rfl

end

/-- Settles O35: each move of a row follows a path of Table MODE-6. -/
theorem modePaths : Obligations.ModePaths := fun _ _ _ h => (exec_moves h).modePath

/-- Settles O36 (`profileFits` names the model's predicate): each move of a row keeps the profile in agreement with the mode, and a step is
the row at the front of the queue. -/
theorem profileFits_step : Obligations.ProfileFits := by
  intro s t hfit h
  unfold step at h
  split at h
  · obtain rfl := Host.Outcome.next.inj h
    exact hfit
  · exact (exec_moves h).profileFits hfit

end Sys2Proof.Machine
end

section
/-! Rows that are events of the device: where the condition of a claim decides the branches of its row, the row acts as that branch. The
rows of CXL ports, configuration requests, IDE and Reach resets. -/

namespace Sys2Proof.Machine

section
variable {i : Nat → Instr} {ok : Mode → Profile → Dev → Prop} {g act : Mode → Profile → Dev → Dev} {post : Dev → Dev → Prop}
  (row : Nat → State → Host.Outcome State Fault Refusal)

/-- An event row acts as its effect does where its condition holds. -/
theorem Acts.of_event (hrow : ∀ dt s, exec (i dt) s = row dt s ∧ row dt s = event dt s g)
    (hg : ∀ m p d, ok m p d → g m p d = act m p d) : Acts i ok act := by
  intro dt s hok
  rw [(hrow dt s).1, (hrow dt s).2, event, State.onDev, State.onDev, ← hg _ _ _ hok]

/-- An event row leaves what its effect leaves where its condition holds. -/
theorem Leaves.of_event (hrow : ∀ dt s, exec (i dt) s = row dt s ∧ row dt s = event dt s g)
    (hg : ∀ m p d, ok m p d → post d (g m p d)) : Leaves i ok post :=
  fun dt s hok => ⟨_, (hrow dt s).1.trans (hrow dt s).2, hg _ _ _ hok⟩

end

/-- A CXL link trains unless one of these bars it (R254, R279, R280). -/
theorem not_untrainable {d : Dev} {m : Mode} {l : Nat} {tr : Trained} (hcxl : d.isCxl l = true) (htrains : m.trains = true)
    (hpins : d.pinsOut = false) (hdom : d.domOff (l / 4) = false) (hrate : tr.rate ≤ d.maxRate l)
    (hwidth : tr.width ∈ [1, 2, 4, 8]) (hlanes : tr.width ≤ (d.laneRange l).2) (hflit : tr.rate ≤ 4 ∨ tr.flit256 = true) :
    ¬ ((! d.isCxl l) = true ∨ (! m.trains) = true ∨ d.pinsOut = true ∨ d.domOff (l / 4) = true ∨ tr.rate > d.maxRate l
      ∨ (! [1, 2, 4, 8].contains tr.width) = true ∨ tr.width > (d.laneRange l).2 ∨ (tr.rate > 4 ∧ (! tr.flit256) = true)) := by
  have hfast : ¬ (4 < tr.rate ∧ (! tr.flit256) = true) := fun ⟨hfast, hno⟩ =>
    Bool.false_ne_true ((Bool.not_eq_true' _ ▸ hno).symm.trans (hflit.resolve_left (Nat.not_le.mpr hfast)))
  simp only [hcxl, htrains, hpins, hdom, List.contains_iff_mem.mpr hwidth, gt_iff_lt, Nat.not_lt.mpr hrate, Nat.not_lt.mpr hlanes,
    hfast, Bool.not_true, Bool.false_eq_true, or_self, not_false_eq_true]

/-- Settles O18: in each clause the conditions named decide the branches of the row. -/
theorem portEvents : Obligations.PortEvents := by
  refine ⟨?_, ?_, ?_, ?_, ?_, ?_, ?_, ?_, ?_, ?_, ?_, ?_⟩
  · exact fun l tr => .of_event (execCxlLinkTrained · l tr) (fun _ _ => ⟨rfl, rfl⟩)
      fun m p d ⟨hcxl, htrains, hpins, hdom, hrate, hw, hlanes, hflit, hup, hrec⟩ => by
      rw [if_neg (not_untrainable hcxl htrains hpins hdom hrate hw hlanes hflit), if_pos hup]
      exact if_neg (not_not_intro hrec)
  · exact fun l tr => .of_event (execCxlLinkTrained · l tr) (fun _ _ => ⟨rfl, rfl⟩)
      fun m p d ⟨hcxl, htrains, hpins, hdom, hrate, hw, hlanes, hflit, hup, hrole, hlds⟩ => by
      rw [if_neg (not_untrainable hcxl htrains hpins hdom hrate hw hlanes hflit), if_neg (Bool.eq_false_iff.mp hup)]
      refine if_neg ?_
      rintro (hdisabled | ⟨hupstream, hmld⟩)
      · exact hrole hdisabled
      · exact Nat.not_lt.mpr (hlds hupstream) hmld
  · exact fun l off wr => .of_event (execConfigRequest · l .upstream off wr) (fun _ _ => ⟨rfl, rfl⟩)
      fun m _ d ⟨hvcs, hup⟩ => if_neg (by simp [hvcs, hup])
  · exact fun l k off wr => .of_event (execConfigRequest · l (.vppb k) off wr) (fun _ _ => ⟨rfl, rfl⟩)
      fun m _ d ⟨hvcs, hup, hk⟩ => by
      simp [hvcs, hup, hk]
  · exact fun l off w b => .of_event (execConfigRequest · l (.below 0) off (some w)) (fun _ _ => ⟨rfl, rfl⟩)
      fun m _ d ⟨hvcs, hup, hbind, hreach, hshared⟩ => by
      simp [hvcs, hup, hbind, hreach, hshared, b2n]
  · exact fun l k off wr => .of_event (execConfigRequest · l (.below k) off wr) (fun _ _ => ⟨rfl, rfl⟩)
      fun m _ d ⟨hvcs, hup, hk, hbind⟩ => by
      simp [hvcs, hup, hbind]
  · exact fun l => .of_event (execIdeEstablished · l) (fun _ _ => ⟨rfl, rfl⟩)
      fun m p d ⟨hcxl, hup, hide, hseed, herr, hnew, hpol⟩ => by
      simp [hcxl, hup, hide, hseed, herr, hnew, hpol]
  · exact fun l => .of_event (execIdeEstablished · l) (fun _ _ => ⟨rfl, rfl⟩)
      fun m p d ⟨hcxl, hup, hide, hseed, herr, hold, hbusy⟩ => by
      simp [hcxl, hup, hide, hseed, herr, hold, hbusy]
  · exact fun l t => .of_event (execIdeRefreshDue · l) (fun _ _ => ⟨rfl, rfl⟩)
      fun m p d ⟨hcxl, hrole, hide, hbusy, hseed, hretry, ht⟩ => by
      simp [hcxl, hrole, hide, hbusy, hseed, hretry, ht]
  · exact fun l => .of_event (execIdeRefreshDue · l) (fun _ _ => ⟨rfl, rfl⟩)
      fun m p d ⟨hcxl, hrole, hide, hbusy, hseed, hretry, ht⟩ => by
      simp [hcxl, hrole, hide, hbusy, hseed, hretry, ht]
  · exact fun l t => .of_event (execIdeRefreshFailed · l) (fun _ _ => ⟨rfl, rfl⟩)
      fun m p d ⟨hcxl, hbusy, ht⟩ => by
      simp [hcxl, hbusy, ht]
  · exact fun r x => .of_event (execReachResetE2 · r) (fun _ _ => ⟨rfl, rfl⟩)
      fun m p d ⟨hx, he1, hidle⟩ => by
      simp [hx, he1, hidle]

end Sys2Proof.Machine
end

section
/-! The rows of supplies, clocks, resets and temperature (R29, R446 to R458, R511 to R513). -/

namespace Sys2Proof.Machine

/-- Settles O25: in each clause the conditions named decide the branches of the row; a set point is due when none was written before, or a
millisecond ago. -/
theorem powerEvents : Obligations.PowerEvents := by
  refine ⟨?_, ?_, ?_, ?_, ?_, ?_, ?_, ?_, ?_, ?_, ?_, ?_, ?_, ?_, ?_, ?_, ?_, ?_, ?_, ?_, ?_, ?_, ?_, ?_⟩
  · exact fun held => .of_event (execStbyWake · held) (fun _ _ => ⟨rfl, rfl⟩) fun m _ d ⟨hen, hheld, hwhen⟩ => by
      simp [hen, hheld, hwhen]
  · exact .of_event execVstbyPowerOn (fun _ _ => ⟨rfl, rfl⟩) fun m _ d hm => if_pos hm
  · exact fun _ _ _ => rfl
  · intro dt held s hm hheld
    have hexec : exec (.resetNAssert dt held) s = execResetNAssert dt held s := rfl
    simp [hexec, execResetNAssert, hm, hheld]
  · intro dt held s hheld
    have hexec : exec (.resetNAssert dt held) s = execResetNAssert dt held s := rfl
    simp only [hexec, execResetNAssert, ge_iff_le, Nat.not_le.mpr hheld, decide_false, Bool.and_false, Bool.false_eq_true, if_false]
  · intro dt bad s t h
    obtain rfl := Host.Outcome.next.inj h
    exact ⟨rfl, rfl, rfl, rfl⟩
  · exact fun r => .of_event (execRailRecovered · r) (fun _ _ => ⟨rfl, rfl⟩) fun _ _ _ _ => rfl
  · exact fun _ _ => rfl
  · exact fun r lasted => .of_event (execSupplyOutOfRange · r lasted) (fun _ _ => ⟨rfl, rfl⟩) fun m _ d ⟨hm, hr, hlasted⟩ => by
      simp [hm, hr, hlasted]
  · exact fun mv => .of_event (execAvsUpdate · mv true) (fun _ _ => ⟨rfl, rfl⟩) fun m _ d ⟨hm, hdue, hlo, hhi, hstep⟩ => by
      have hin : ¬ mv < max 680 d.avsFloor ∧ ¬ 780 < mv := ⟨Nat.not_lt.mpr hlo, Nat.not_lt.mpr hhi⟩
      cases hT : d.pwr.avsT with
      | none => simp [hm, hT, hin, hstep]
      | some t => simp [hm, hT, hdue t hT, hin, hstep]
  · exact fun mv => .of_event (execAvsUpdate · mv false) (fun _ _ => ⟨rfl, rfl⟩)
      fun m _ d ⟨hm, hdue, hlo, hhi, hstep, hfails⟩ => by
      have hin : ¬ mv < max 680 d.avsFloor ∧ ¬ 780 < mv := ⟨Nat.not_lt.mpr hlo, Nat.not_lt.mpr hhi⟩
      cases hT : d.pwr.avsT with
      | none => simp [hm, hT, hin, hstep, hfails]
      | some t => simp [hm, hT, hdue t hT, hin, hstep, hfails]
  · exact fun rd => .of_event (execPmbusPoll · rd) (fun _ _ => ⟨rfl, rfl⟩) fun m _ d hm => by
      simp [hm]
  · exact .of_event execPowerCapStep (fun _ _ => ⟨rfl, rfl⟩) fun m p d ⟨hcap, hnext, hover, hfab⟩ => by
      simp [hcap, hnext, hover, hfab]
  · exact .of_event execPowerCapStep (fun _ _ => ⟨rfl, rfl⟩)
      fun m p d ⟨hcap, hnext, hover, hunder, hquiet, hfab, hwarn, hclear, hfault, havs⟩ => by
      simp [hcap, hnext, Nat.not_lt.mpr hover, hunder, hquiet, hfab, hwarn, hclear, hfault, havs]
  · exact fun c off => .of_event (execRefclkValid · c off) (fun _ _ => ⟨rfl, rfl⟩) fun m _ d ⟨hm, hc, hoff, ht, hvalid⟩ =>
      if_neg (by simp [-List.getD_eq_getElem?_getD, hm, hc, hoff, ht, hvalid])
  · exact fun c => .of_event (execRefclkLost · c) (fun _ _ => ⟨rfl, rfl⟩) fun m _ d ⟨hm, hc, hboth, hclk⟩ => by
      simp [hm, Nat.not_le.mpr hc, hboth, hclk]
  · exact fun c => .of_event (execRefclkLost · c) (fun _ _ => ⟨rfl, rfl⟩) fun m _ d ⟨hm, hc, hboth, hclk, hother⟩ => by
      simp [-List.getD_eq_getElem?_getD, hm, Nat.not_le.mpr hc, hboth, hclk, hother]
  · exact fun c => .of_event (execRefclkLost · c) (fun _ _ => ⟨rfl, rfl⟩) fun m _ d ⟨hm, hc, hboth, hclk, hother⟩ => by
      simp [-List.getD_eq_getElem?_getD, hm, Nat.not_le.mpr hc, hboth, hclk, hother]
  · exact .of_event execRefclkBothLost (fun _ _ => ⟨rfl, rfl⟩) fun m _ d ⟨hm, hboth⟩ => by
      simp [hm, hboth]
  · exact fun temps => .of_event (execThermalSample · temps) (fun _ _ => ⟨rfl, rfl⟩) fun m _ d hm => by
      simp [hm]
  · exact fun k t => .of_event (execThermalWarning · k) (fun _ _ => ⟨rfl, rfl⟩) fun m p d ⟨hm, hwarn, hhot, ht, hcap⟩ => by
      simp [-List.getD_eq_getElem?_getD, hm, hwarn, hhot, Nat.not_lt.mpr ht, hcap]
  · exact fun t => .of_event execThermalWarningClear (fun _ _ => ⟨rfl, rfl⟩) fun m p d ⟨hcool, hwarn, ht⟩ => by
      simp [hcool, hwarn, ht]
  · exact fun k t => .of_event (execThermalShutdown · k) (fun _ _ => ⟨rfl, rfl⟩) fun m p d ⟨hm, hhot, ht⟩ => by
      simp [-List.getD_eq_getElem?_getD, hm, hhot, Nat.not_lt.mpr ht]
  · exact fun c => .of_event (execRefclkStartTestPass · c) (fun _ _ => ⟨rfl, rfl⟩) fun m p d ⟨hm, hlost, hc⟩ => by
      have hstart : (d.ctl.bothLost || ! d.pwr.valid.any id) = true := by
        rw [Bool.or_eq_true, Bool.not_eq_true']
        exact hlost
      exact if_pos (by rw [hstart, hm, Bool.and_true, decide_eq_true hc]; rfl)

end Sys2Proof.Machine
end

section
/-! Commit epochs and the ends of mode changes (R26, R28, R31, R33, Table MODE-8). -/

namespace Sys2Proof.Machine

theorem exec_commitEpoch (dt : Nat) (s : State) : exec (.commitEpoch dt) s = execCommitEpoch dt s := rfl

section
variable {s : State} {d : Dev} {m : Mode}

/-! ### What Diagnostic reports of the cryptographic module -/

/-- A change of the records alone leaves the cryptographic module. -/
theorem Dev.sec_of_unrecorded {e : Dev} (h : e.unrecorded = d.unrecorded) : e.sec = d.sec := by
  rw [Dev.eq_of_unrecorded h]

/-- The end of a mode change leaves the cryptographic module. -/
@[simp] theorem State.settle_sec : (s.settle m d).dev.sec = d.sec := by
  unfold State.settle
  dsimp only
  rw [Dev.sec_of_unrecorded (Dev.modeNotice_unrecorded ..), Dev.sec_of_unrecorded (Dev.finLong?_unrecorded ..)]
  rfl

section
variable (e : AuditEv) (n : Nat) (b : Option Mbx) (o : Nat)

@[simp] theorem Dev.audit_approved : (d.audit e n b o).sec.approved = d.sec.approved := by
  unfold Dev.audit
  split
  · rw [Dev.onImg_sec]
  · rw [Dev.onSec_sec]

@[simp] theorem Dev.audit_errState : (d.audit e n b o).sec.errState = d.sec.errState := by
  unfold Dev.audit
  split
  · rw [Dev.onImg_sec]
  · rw [Dev.onSec_sec]

end

theorem Dev.tileStart_sec (t : Nat) : (d.tileStart m t).sec = d.sec := by
  unfold Dev.tileStart
  split <;> rfl

/-- Links that train again leave the cryptographic module. -/
@[simp] theorem Dev.leaveTest_sec : (d.leaveTest m).sec = d.sec := by
  have hstart (e : Dev) : ((List.range 64).foldl (fun d t => d.tileStart m t) e).sec = e.sec :=
    foldl_keeps Dev.sec _ (fun a t => a.tileStart_sec t) _ _
  unfold Dev.leaveTest
  dsimp only
  split
  · split
    · exact (Dev.onCxl_sec ..).trans (hstart _)
    · exact hstart _
  · exact hstart _

end

section
variable {s : State} {dt : Nat} {b : Bool}

/-- Diagnostic is entered with approved cleared (Table MODE-6, step 11; R371). -/
theorem diagnosticTransitionDone_enters (hm : s.mode = .configure)
    (hpend : (s.elapse dt).dev.ctl.pend.map ModePend.target = some (.diagnostic true)) :
    ∃ d, exec (.diagnosticTransitionDone dt b) s = .next ((s.elapse dt).settle .diagnostic d) ∧ d.sec.approved = false := by
  have hexec : exec (.diagnosticTransitionDone dt b) s = execDiagnosticTransitionDone dt b s := rfl
  refine ⟨?d, ?hnext, ?happroved⟩
  case hnext =>
    rw [hexec, execDiagnosticTransitionDone]
    dsimp only
    rw [hpend]
    dsimp only
    rw [if_neg (not_not_intro (show (s.elapse dt).mode = .configure from hm))]
  case happroved => rw [Dev.audit_approved, Dev.onSec_sec]

/-- Diagnostic is left with approved set again when the self-tests pass (R25, R371). -/
theorem diagnosticTransitionDone_leaves (hm : s.mode = .diagnostic) (herr : (s.elapse dt).dev.sec.errState = false)
    (hpend : (s.elapse dt).dev.ctl.pend.map ModePend.target = some (.diagnostic false)) :
    ∃ d, exec (.diagnosticTransitionDone dt true) s = .next ((s.elapse dt).settle .configure d) ∧ d.sec.approved = true := by
  have hexec : exec (.diagnosticTransitionDone dt true) s = execDiagnosticTransitionDone dt true s := rfl
  refine ⟨?d, ?hnext, ?happroved⟩
  case hnext =>
    rw [hexec, execDiagnosticTransitionDone]
    dsimp only
    rw [hpend]
    dsimp only
    rw [if_neg (not_not_intro (show (s.elapse dt).mode = .diagnostic from hm))]
  case happroved => rw [Dev.leaveTest_sec, if_pos rfl, Dev.onSec_sec, Dev.audit_errState, herr, Bool.not_false]

end

/-- Settles O29: an epoch in its three cases, then each pending change in the branch that its target and its epoch name. -/
theorem modeEvents : Obligations.ModeEvents := by
  refine ⟨?_, ?_, ?_, ?_, ?_, ?_, ?_, ?_, ?_, ?_, ?_, ?_, ?_⟩
  · intro dt s hserved hdue
    rw [exec_commitEpoch, execCommitEpoch]
    simp only [State.elapse_mode, hserved, hdue, Bool.not_true, Bool.false_eq_true, if_true, if_false]
  · intro dt s hserved hdue
    rw [exec_commitEpoch, execCommitEpoch]
    simp only [State.elapse_mode, State.elapse_profile, hserved, hdue, Bool.not_true, Bool.false_eq_true, if_false]
  · intro dt s hm
    have hserved : s.mode.adminServed = false := by obtain h | h := hm <;> rw [h] <;> rfl
    simp [exec_commitEpoch, execCommitEpoch, hserved]
  · intro p d q t hq hbegun hepoch htarget ht hlost
    simp [pendActs, hq, hbegun, hepoch, htarget, ht, hlost]
  · intro p d q t hq hbegun hepoch htarget ht hlost
    simp [pendActs, hq, hbegun, hepoch, htarget, ht, hlost]
  · intro m p d q hq hbegun hepoch htarget hm
    simp [pendActs, hq, hbegun, hepoch, htarget, hm]
  · intro m p d q hq hepoch
    simp [pendActs, hq, hepoch]
  · intro m p d e hpend hauto hepoch hm
    simp [autoActs, hpend, hauto, hepoch, hm]
  · intro p d e hpend hauto hepoch
    simp [autoActs, hpend, hauto, hepoch]
  · intro dt s hm hdrain hdrained
    exact ⟨_, congrArg Host.Outcome.next (if_pos ⟨hdrain, hm, hdrained⟩)⟩
  · intro dt s hdrained
    exact congrArg Host.Outcome.next (if_neg fun h => Bool.false_ne_true (hdrained.symm.trans h.2.2))
  · intro dt b s q hm hq htarget
    obtain ⟨d, hexec, happroved⟩ := diagnosticTransitionDone_enters (b := b) hm (by rw [hq, Option.map_some, htarget])
    refine ⟨((s.elapse dt).settle .diagnostic d).dev, hexec, ?_⟩
    rw [State.settle_sec, happroved]
  · intro dt s q hm hq htarget herr
    obtain ⟨d, hexec, happroved⟩ := diagnosticTransitionDone_leaves hm herr (by rw [hq, Option.map_some, htarget])
    refine ⟨((s.elapse dt).settle .configure d).dev, hexec, ?_⟩
    rw [State.settle_sec, happroved]

end Sys2Proof.Machine
end

section
/-! Egress calendars (R49, R51, R526): what a plan of `Dev.calPick` holds at every step of its search, and how `placeCells` keeps the phases
of a reservation level. -/

namespace Sys2Proof.Machine

section
variable {d : Dev} {e s0 n : Nat} {takers : List Nat}

/-- The search for the cells of a message: those still to be found and those of the plan are its `n` cells, and each entry of the plan takes
what is free, from a taker of the order, in a slot of the horizon. -/
def Dev.Picking (d : Dev) (e s0 n : Nat) (takers : List Nat) (acc : Nat × List (Nat × Nat × Nat)) : Prop :=
  acc.1 + (acc.2.map fun x => x.2.2).sum = n
  ∧ ∀ x ∈ acc.2, x.2.1 ∈ takers ∧ s0 ≤ x.1 ∧ x.1 < s0 + 4 ∧ 0 < x.2.2 ∧ x.2.2 ≤ d.calFree (d.pattern e) e x.1 x.2.1

/-- A slot of a taker keeps the search: it gives what is free there, but no more than is still to be found. -/
theorem Dev.Picking.take {acc : Nat × List (Nat × Nat × Nat)} {t slot k : Nat} (h : d.Picking e s0 n takers acc) (ht : t ∈ takers)
    (hlo : s0 ≤ slot) (hhi : slot < s0 + 4) (hk : k = min acc.1 (d.calFree (d.pattern e) e slot t)) :
    d.Picking e s0 n takers (acc.1 - k, if k = 0 then acc.2 else acc.2 ++ [(slot, t, k)]) := by
  obtain ⟨hsum, hall⟩ := h
  split
  next hzero => exact ⟨by rw [hzero, Nat.sub_zero, hsum], hall⟩
  next hpos =>
    refine ⟨?_, List.forall_mem_append.mpr ⟨hall, List.forall_mem_singleton.mpr ⟨ht, hlo, hhi, Nat.pos_of_ne_zero hpos, ?_⟩⟩⟩
    · simp only [List.map_append, List.sum_append, List.map_cons, List.map_nil, List.sum_singleton]
      omega
    · exact hk ▸ Nat.min_le_right ..

/-- The plan of a message holds all its cells (R51, R526). -/
theorem Dev.calPick_picking {plan : List (Nat × Nat × Nat)} (h : d.calPick e s0 n takers = some plan) :
    d.Picking e s0 n takers (0, plan) := by
  unfold Dev.calPick at h
  extract_lets pat at h
  split at h
  next left plan' hfold =>
    obtain ⟨rfl, hplan⟩ := Option.ite_none_right_eq_some.mp h
    obtain rfl := Option.some.inj hplan
    rw [← hfold]
    refine List.foldlRecOn _ _ ⟨rfl, by nofun⟩ fun acc hacc x hx => ?_
    obtain ⟨t, ht, hx⟩ := List.mem_flatMap.mp hx
    obtain ⟨i, hi, rfl⟩ := List.mem_map.mp hx
    exact hacc.take ht (Nat.le_add_right ..) (Nat.add_lt_add_left (List.mem_range.mp hi) s0) rfl

end

section
variable {t tot own : List Nat} {p n : Nat}

/-- One more cell in a phase. -/
theorem sum_set_getD_succ (h : p < t.length) : (t.set p (t.getD p 0 + 1)).sum = t.sum + 1 := by
  induction t generalizing p with
  | nil => nomatch h
  | cons a t ih =>
    cases p with
    | zero => simp only [List.set_cons_zero, List.getD_cons_zero, List.sum_cons]; omega
    | succ p =>
      simp only [List.set_cons_succ, List.getD_cons_succ, List.sum_cons, ih (Nat.lt_of_succ_lt_succ h)]
      omega

theorem getD_mem (h : p < t.length) : t.getD p 0 ∈ t := by
  rw [List.getD_eq_getElem?_getD, List.getElem?_eq_getElem h, Option.getD_some]
  exact List.getElem_mem h

theorem exists_getD_eq_of_mem {v : Nat} (h : v ∈ t) : ∃ p < t.length, t.getD p 0 = v := by
  obtain ⟨p, hp, rfl⟩ := List.getElem_of_mem h
  refine ⟨p, hp, ?_⟩
  rw [List.getD_eq_getElem?_getD, List.getElem?_eq_getElem hp, Option.getD_some]

theorem leastPhase_lt (t : List Nat) : leastPhase t < 4 := by
  unfold leastPhase
  cases hp : (List.range 4).find? fun p => t.all fun v => decide (t.getD p 0 ≤ v) with
  | none => decide
  | some p => exact List.mem_range.mp (List.mem_of_find?_eq_some hp)

/-- The cells placed are counted in the totals and in the cells of their taker. -/
theorem placeCells_counts (htot : tot.length = 4) (hown : own.length = 4) :
    (placeCells n tot own).1.length = 4 ∧ (placeCells n tot own).2.length = 4
    ∧ (placeCells n tot own).1.sum = tot.sum + n ∧ (placeCells n tot own).2.sum = own.sum + n := by
  induction n generalizing tot own with
  | zero => exact ⟨htot, hown, rfl, rfl⟩
  | succ n ih =>
    have hp := leastPhase_lt tot
    have hih := ih (tot := tot.set (leastPhase tot) (tot.getD (leastPhase tot) 0 + 1))
      (own := own.set (leastPhase tot) (own.getD (leastPhase tot) 0 + 1)) (by rwa [List.length_set]) (by rwa [List.length_set])
    rw [sum_set_getD_succ (htot ▸ hp), sum_set_getD_succ (hown ▸ hp)] at hih
    simpa only [placeCells, Nat.add_assoc, Nat.add_comm 1] using hih

/-- Phases level within one cell (R526). -/
def Level (t : List Nat) : Prop := ∀ x ∈ t, ∀ y ∈ t, x ≤ y + 1

/-- The phase that takes the next cell holds no more than any other. -/
theorem leastPhase_le (h : t.length = 4) {v : Nat} (hv : v ∈ t) : t.getD (leastPhase t) 0 ≤ v := by
  obtain ⟨p, hp, hmin⟩ := exists_getD_eq_of_mem (List.min_mem (List.ne_nil_of_mem hv))
  have hfound : (t.all fun v => decide (t.getD p 0 ≤ v)) = true :=
    List.all_eq_true.mpr fun v hv => decide_eq_true (hmin ▸ List.min_le_of_mem hv)
  obtain ⟨q, hq⟩ : ∃ q, (List.range 4).find? (fun p => t.all fun v => decide (t.getD p 0 ≤ v)) = some q :=
    Option.isSome_iff_exists.mp (List.find?_isSome.mpr ⟨p, List.mem_range.mpr (h ▸ hp), hfound⟩)
  rw [leastPhase, hq, Option.getD_some]
  have hleast := List.find?_some hq
  exact of_decide_eq_true (List.all_eq_true.mp hleast v hv)

/-- A cell in the phase with the fewest leaves the phases level. -/
theorem Level.place (h : t.length = 4) (hlevel : Level t) : Level (t.set (leastPhase t) (t.getD (leastPhase t) 0 + 1)) := by
  have hmem : t.getD (leastPhase t) 0 ∈ t := getD_mem (h ▸ leastPhase_lt t)
  intro x hx y hy
  obtain hx | rfl := List.mem_or_eq_of_mem_set hx <;> obtain hy | rfl := List.mem_or_eq_of_mem_set hy
  · exact hlevel x hx y hy
  · exact Nat.le_trans (hlevel x hx _ hmem) (Nat.le_succ _)
  · exact Nat.succ_le_succ (leastPhase_le h hy)
  · exact Nat.le_succ _

/-- Cells placed one at a time leave the phases level (R526). -/
theorem placeCells_level (h : tot.length = 4) (hlevel : Level tot) : Level (placeCells n tot own).1 := by
  induction n generalizing tot own with
  | zero => exact hlevel
  | succ n ih => exact ih (by rwa [List.length_set]) (hlevel.place h)

/-- In level phases each holds a quarter of the cells, rounded down or up. -/
theorem Level.quarter (h : t.length = 4) (hlevel : Level t) {x : Nat} (hx : x ∈ t) : t.sum / 4 ≤ x ∧ x ≤ (t.sum + 3) / 4 := by
  have hge := fun y hy => hlevel x hx y hy
  have hle := fun y hy => hlevel y hy x hx
  match t, h with
  | [a, b, c, e], _ =>
    simp only [List.mem_cons, List.not_mem_nil, or_false, forall_eq_or_imp, forall_eq] at hx hge hle
    simp only [List.sum_cons, List.sum_nil]
    omega

end

/-- Settles O55: a plan is kept entry by entry, and each cell of a reservation goes to the phase with the fewest. -/
theorem calendarCells : Obligations.CalendarCells := by
  refine ⟨fun d e s0 n takers plan h => ?_, fun n a b c e => ?_, fun n x hx => ?_⟩
  · obtain ⟨hsum, hall⟩ := Dev.calPick_picking h
    exact ⟨(Nat.zero_add _).symm.trans hsum, hall⟩
  · obtain ⟨htot, hown, hsum, howned⟩ := placeCells_counts (tot := [a, b, c, e]) (own := [0, 0, 0, 0]) (n := n) rfl rfl
    refine ⟨hsum.trans ?_, howned.trans (Nat.zero_add n), htot, hown⟩
    simp only [List.sum_cons, List.sum_nil, Nat.add_assoc, Nat.add_zero]
  · obtain ⟨htot, -, hsum, -⟩ := placeCells_counts (tot := [0, 0, 0, 0]) (own := [0, 0, 0, 0]) (n := n) rfl rfl
    have hlevel : Level [0, 0, 0, 0] := by simp [Level]
    have hquarter := (placeCells_level rfl hlevel).quarter htot hx
    rwa [hsum, show [0, 0, 0, 0].sum = 0 from rfl, Nat.zero_add] at hquarter

end Sys2Proof.Machine
end

section
/-! The path records across Iggevo links (R66, R247, Table WEIR-10), the rows of admission and egress (R36, R48 to R69, R86, R138, R153, R162,
R206, R208), and the table of commands (Table MBX-16). -/

namespace Sys2Proof.Machine

section
variable {i : Nat → Instr} {ok : Mode → Profile → Dev → Prop} {act : Mode → Profile → Dev → Dev}
  {l op : Nat} {msg : Bytes}

/-- A bridge message that a link hears is taken off the link and acts (R247). -/
theorem Acts.of_brgEvent {g : Mode → Profile → Dev → BRx → Dev} (row : Nat → State → Host.Outcome State Fault Refusal)
    (hrow : ∀ dt s, exec (i dt) s = row dt s ∧ row dt s = brgEvent dt l op msg s g) (hhears : ∀ m p d, ok m p d → hears op l msg d)
    (hg : ∀ m p d, ok m p d → g m p (d.brgTake l msg).2 (d.brgTake l msg).1 = act m p d) : Acts i ok act := by
  refine .of_event row hrow fun m p d hok => ?_
  obtain ⟨higg, hmsg, hform, hop⟩ := hhears m p d hok
  rw [← hg m p d hok]
  simp [higg, hmsg, hform, hop]

/-- A path message that a link hears returns its credit and acts (R247). -/
theorem Acts.of_pathRow {g : Mode → Profile → Dev → BRx → Dev} (row : Nat → State → Host.Outcome State Fault Refusal)
    (hrow : ∀ dt s, exec (i dt) s = row dt s ∧ row dt s = pathRow dt l op msg s g) (hhears : ∀ m p d, ok m p d → hears op l msg d)
    (hg : ∀ m p d, ok m p d →
      g m p ((d.brgTake l msg).2.freeCredit l (d.brgTake l msg).1.cred) (d.brgTake l msg).1 = act m p d) : Acts i ok act :=
  .of_brgEvent row hrow hhears hg

end

/-- A hop has no binding for the next part of a path unless its Reach is in service, the egress is a link, and the Reach goes over it: by the
Reach map of an Iggevo link, as an owned part of a CXL link (R247). -/
theorem not_bound_iff (n e r : Nat) (d : Dev) :
    (! (decide (r < n) && d.isLink e && if d.isIggevo e then (d.farReach e r).isSome else d.ownsPart r e)) = true
      ↔ ¬ (r < n ∧ d.isLink e = true ∧ if d.isIggevo e then (d.farReach e r).isSome = true else d.ownsPart r e = true) := by
  rw [Bool.not_eq_true', ← Bool.not_eq_true, Bool.and_eq_true, Bool.and_eq_true, decide_eq_true_iff, and_assoc]
  split <;> rfl

/-- Settles O10: a path message that is heard acts as its hop does, at the origin for PATH_FREE and PATH_RSP; an expiry acts on the path it
names. -/
theorem pathMessages : Obligations.PathMessages := by
  refine ⟨?_, ?_, ?_, ?_, ?_, ?_⟩
  · exact fun l msg => .of_pathRow (execPathHold · l msg) (fun _ _ => ⟨rfl, rfl⟩) (fun _ _ _ h => h) fun m p d _ => by
      refine ite_congr (propext ?_) (fun _ => rfl) fun _ => rfl
      exact or_congr (not_bound_iff ..) (or_congr_left (and_congr_right fun _ => iff_of_eq (Bool.not_eq_true' _)))
  · exact fun l msg => .of_pathRow (execPathActivate · l msg) (fun _ _ => ⟨rfl, rfl⟩) (fun _ _ _ h => h) fun _ _ _ _ => rfl
  · exact fun l msg => .of_pathRow (execPathFree · l msg) (fun _ _ => ⟨rfl, rfl⟩) (fun _ _ _ ⟨hheard, _⟩ => hheard)
      fun _ _ _ ⟨_, horigin⟩ => if_pos horigin
  · exact fun l msg => .of_pathRow (execPathRsp · l msg) (fun _ _ => ⟨rfl, rfl⟩) (fun _ _ _ ⟨hheard, _⟩ => hheard)
      fun _ _ _ ⟨_, horigin⟩ => if_pos horigin
  · exact fun o h y => .of_event (execPathHoldExpiry · o h) (fun _ _ => ⟨rfl, rfl⟩) fun _ _ d ⟨hpath, hactive, hepoch, hlate⟩ => by
      simp [hpath, hactive, hepoch, hlate, Dev.onBrg]
  · exact fun h x => .of_event (execPathReserveTimeout · h) (fun _ _ => ⟨rfl, rfl⟩) fun _ _ d ⟨hpath, hstage, hfreeing, hlate⟩ => by
      simp [hpath, hstage, hfreeing, hlate]

/-- Settles O13: in each clause the conditions named decide the branches of the row. -/
theorem admissionEvents : Obligations.AdmissionEvents := by
  refine ⟨?_, ?_, ?_, ?_, ?_, ?_, ?_, ?_, ?_, ?_, ?_, ?_, ?_, ?_, ?_, ?_⟩
  · exact fun a => .of_event (execIngressArrival · a) (fun _ _ => ⟨rfl, rfl⟩) fun _ _ _ _ => rfl
  · exact fun t x => .of_event (execWeirEvaluate · t) (fun _ _ => ⟨rfl, rfl⟩) fun m p d hpick => by simp only [hpick]
  · exact fun src x => .of_event (execSelfGeneratedAdmission · src) (fun _ _ => ⟨rfl, rfl⟩) fun m p d hfind => by simp only [hfind]
  · exact fun t r i bx by_ k l q => .of_event (execArtLookupAnswer · t r i bx by_ k l q) (fun _ _ => ⟨rfl, rfl⟩)
      fun m p d ⟨hlow, hhigh, hx, hy⟩ => by
      simp [-List.getD_eq_getElem?_getD, hlow, hhigh, hx, hy]
  · exact fun t r i bx by_ z l q => .of_event (execArtLookupAnswer · t r i bx by_ (some z) l q) (fun _ _ => ⟨rfl, rfl⟩)
      fun m p d ⟨hlow, hhigh, hx, hy, hne, hz⟩ => by
      simp [-List.getD_eq_getElem?_getD, hlow, hhigh, hx, hy, hne, hz]
  · exact fun l x t0 => .of_event (execExpeditedDemoted · l) (fun _ _ => ⟨rfl, rfl⟩)
      fun m p d ⟨hhead, hfirst, hheld, hrsp, hacc, hdem, hwhy⟩ => by
      simp only [hhead, hfirst]
      refine if_pos ⟨decide_eq_true hheld, by rw [hdem, Bool.not_false], ?_⟩
      exact hwhy.symm.imp_right fun hcolour => ⟨by rw [hrsp, Option.isNone_none], hacc, hcolour⟩
  · exact .of_event execPressureRecompute (fun _ _ => ⟨rfl, rfl⟩) fun _ _ _ _ => rfl
  · exact fun t => .of_event (execTilePark · t) (fun _ _ => ⟨rfl, rfl⟩) fun m p d ⟨hcap, ht, hbound, hwork, hidle⟩ =>
      if_pos ⟨hcap, ht, by rw [hbound, Bool.not_false], by rw [hwork, Bool.not_false], hidle⟩
  · exact fun t => .of_event (execTileUnpark · t) (fun _ _ => ⟨rfl, rfl⟩) fun _ _ _ ht => if_pos ht
  · exact fun l => .of_event (execTransmitUnit · l) (fun _ _ => ⟨rfl, rfl⟩) fun m p d ⟨hrate, hstall, higg⟩ => by
      simp only [hrate, hstall, higg, Bool.false_and, Bool.false_eq_true, if_false]
  · exact fun l f rest => .of_event (execTransmitUnit · l) (fun _ _ => ⟨rfl, rfl⟩) fun m p d ⟨hrate, hstall, higg, hresend⟩ => by
      simp only [hrate, hstall, higg, hresend, Bool.false_and, Bool.false_eq_true, if_false, if_true]
  · exact fun l => .of_event (execTransmitUnit · l) (fun _ _ => ⟨rfl, rfl⟩) fun m p d ⟨hrate, hstall, higg, hresend, hfull⟩ => by
      simp only [hrate, hstall, higg, hresend, hfull, Bool.false_and, Bool.false_eq_true, if_false, if_true]
  · exact fun l id x i => .of_event (execEgressDeparture · l id) (fun _ _ => ⟨rfl, rfl⟩) fun m p d ⟨hfly, hcells, hsent, htrk⟩ => by
      simp only [hfly, hcells, hsent, htrk, Bool.not_true, Bool.false_eq_true, or_self, if_false]
  · exact fun l id x i => .of_event (execEgressDeparture · l id) (fun _ _ => ⟨rfl, rfl⟩)
      fun m p d ⟨hfly, hcells, hsent, htrk, hrsp⟩ => by
      simp only [hfly, hcells, hsent, htrk, hrsp, Bool.not_true, Bool.false_eq_true, or_self, if_false]
  · exact fun l => .of_event (execShaperRefill · l) (fun _ _ => ⟨rfl, rfl⟩) fun _ _ _ hl => if_pos hl
  · exact fun l => .of_event (execEgressStall · l) (fun _ _ => ⟨rfl, rfl⟩) fun m p d ⟨hrate, hstall⟩ =>
      if_neg (by simp only [hrate, hstall, Bool.false_eq_true, or_self, not_false_eq_true])

/-- Settles O40: each row of the table is read off its command. -/
theorem commandTable_rows : Obligations.CommandTable := by
  rw [Obligations.CommandTable, commandTable]
  rfl

end Sys2Proof.Machine
end

section
/-! Addresses and rules (R76, R78, R81, Table RULE-3): what an address above 52 bits meets, and which rule and which descriptor an address
takes. -/

namespace Sys2Proof.Machine

section
variable {d : Dev} {stg secure priv : Bool} {r acc addr l len e : Nat} {x : Nat × Nat}

/-! ### The rule of an address -/

theorem Dev.ruleAt_eq_some_mem (h : d.ruleAt stg r addr = some x) : x ∈ d.rules stg r ∧ eCovers x.2 addr = true :=
  ⟨List.mem_of_find?_eq_some h, List.find?_some (p := fun x : Nat × Nat => eCovers x.2 addr) h⟩

/-- The rules of a set are its valid entries. -/
theorem Dev.eValid_of_mem_rules (h : x ∈ d.rules stg r) : eValid x.2 = true := (List.mem_filter.mp h).2

/-- An address that a rule covers matches some rule. -/
theorem Dev.exists_ruleAt_eq_some (hx : x ∈ d.rules stg r) (hcov : eCovers x.2 addr = true) : ∃ y, d.ruleAt stg r addr = some y :=
  Option.isSome_iff_exists.mp (List.find?_isSome.mpr ⟨x, hx, hcov⟩)

/-- Descriptor 0 serves a rule that is not interleaved (R81). -/
theorem eTarget_of_eWays_eq_zero (h : eWays e = 0) : eTarget e addr = eDesc e 0 := by
  rw [eTarget, h, Nat.pow_zero, Nat.mod_one]

/-- The address bits that number the descriptor of an interleaved rule (R81). -/
theorem eTarget_eq_bits (h : 0 < eWays e) : eTarget e addr = eDesc e (bits addr (8 + eGran e + eWays e - 1) (8 + eGran e)) := by
  have hwidth : 8 + eGran e + eWays e - 1 + 1 - (8 + eGran e) = eWays e := by omega
  rw [eTarget, bits, hwidth]

/-! ### Addresses above 52 bits -/

theorem eCovers_eq_false_of_high (h : 2 ^ 52 ≤ addr) : eCovers e addr = false := by
  rw [eCovers, decide_eq_false (Nat.not_lt.mpr h), Bool.false_and, Bool.false_and]

theorem Dev.ruleAt_eq_none_of_high (h : 2 ^ 52 ≤ addr) : d.ruleAt stg r addr = none :=
  List.find?_eq_none.mpr fun _ _ hcov => Bool.false_ne_true ((eCovers_eq_false_of_high h).symm.trans hcov)

/-- No window grants an access of at least one byte. -/
theorem Dev.gateGrants_eq_false_of_high (h : 2 ^ 52 ≤ addr) (hlen : 0 < len) : d.gateGrants stg l acc addr len = false := by
  rw [Dev.gateGrants, decide_eq_false (by omega), Bool.false_and]

/-- Without a rule the lookup names none. -/
theorem Dev.lookup_rule_of_ruleAt_eq_none (h : d.ruleAt stg r addr = none) : (d.lookup stg secure r acc priv addr).rule = 0xFFFF := by
  rw [Dev.lookup, h]
  dsimp only
  split
  · split <;> rfl
  · rfl

/-- Without a rule and without a Default Map for the requester, the outcome is a decode fault (Table RULE-3, R90). -/
theorem Dev.lookup_outcome_of_ruleAt_eq_none (h : d.ruleAt stg r addr = none)
    (hmap : d.nReach > 8 ∨ secure = true ∨ priv = false ∨ eValid (d.defaultMap stg r) = false) :
    (d.lookup stg secure r acc priv addr).outcome = 3 := by
  rw [Dev.lookup, h]
  refine congrArg Look.outcome (if_neg ?_)
  simp only [Bool.and_eq_true, decide_eq_true_eq, Bool.not_eq_true']
  rintro ⟨⟨⟨hfew, hopen⟩, hpriv⟩, hvalid⟩
  obtain hmany | hsec | htenant | hnone := hmap
  · exact Nat.not_le.mpr hmany hfew
  · exact Bool.false_ne_true (hopen.symm.trans hsec)
  · exact Bool.false_ne_true (htenant.symm.trans hpriv)
  · exact Bool.false_ne_true (hnone.symm.trans hvalid)

/-- R76 for every access of at least one byte: such an address matches no rule and no gate window, and is handled as matching no rule. -/
theorem highAddress_unmatched (h : 2 ^ 52 ≤ addr) :
    d.ruleAt stg r addr = none ∧ (∀ l len, 0 < len → d.gateGrants stg l acc addr len = false)
    ∧ (d.lookup stg secure r acc priv addr).rule = 0xFFFF
    ∧ ((d.nReach > 8 ∨ secure = true ∨ priv = false ∨ eValid (d.defaultMap stg r) = false) →
        (d.lookup stg secure r acc priv addr).outcome = 3) :=
  have hnone : d.ruleAt stg r addr = none := Dev.ruleAt_eq_none_of_high h
  ⟨hnone, fun _ _ => Dev.gateGrants_eq_false_of_high h, Dev.lookup_rule_of_ruleAt_eq_none hnone,
    Dev.lookup_outcome_of_ruleAt_eq_none hnone⟩

end

/-- The first window of link 0 as GATE_WINDOW_SET stages it: valid, granting reads, from page 0 to the last page below 2^52. -/
def windowOfAllPages : Bytes := nb 2 0 ++ nb 1 0 ++ nb 1 3 ++ nb 5 0 ++ nb 5 (2 ^ 40 - 1) ++ zeros 2

/-- A device with that window. -/
def windowedDev : Dev := { conf := { active := [({ op := 0x5007, a := 0, b := 0 }, windowOfAllPages)] } }

/-- Refutes O53: the length of the access is free there, and an access of no bytes at 2^52 ends where the last page does, so a window over
all pages grants it. `highAddress_unmatched` holds for every access of at least one byte. -/
theorem not_highAddresses : ¬ Obligations.HighAddresses := by
  intro h
  obtain ⟨-, hgate, -⟩ := h windowedDev false false 0 0 false (2 ^ 52) (Nat.le_refl _)
  have hgrants : windowedDev.gateGrants false 0 0 (2 ^ 52) 0 = true := by decide +kernel
  exact Bool.false_ne_true ((hgate 0 0).symm.trans hgrants)

/-- Settles O54: the rule found covers the address, so without overlap it is the given one; the descriptor is read off the interleave. -/
theorem ruleMatch : Obligations.RuleMatch := by
  refine ⟨?_, ?_, fun _ _ => eTarget_eq_bits, fun _ _ => eTarget_of_eWays_eq_zero⟩
  · intro d stg r addr i e hdisjoint hmem hcov
    obtain ⟨y, hy⟩ := Dev.exists_ruleAt_eq_some hmem hcov
    obtain ⟨hymem, hycov⟩ := Dev.ruleAt_eq_some_mem hy
    rw [hy, hdisjoint y hymem (i, e) hmem hycov hcov]
  · intro d stg r addr x hx
    obtain ⟨hmem, hcov⟩ := Dev.ruleAt_eq_some_mem hx
    exact ⟨hmem, Dev.eValid_of_mem_rules hmem, hcov⟩

end Sys2Proof.Machine
end

section
/-! The rows of the two management processors (R339, R340, R362 to R365, R375) and of the resynchronisation (R85). -/

namespace Sys2Proof.Machine

@[simp] theorem Dev.onMgmt_activating (d : Dev) (f : Mgmt → Mgmt) : (d.onMgmt f).activating = d.activating := rfl

/-- A ready standby can take over (R339). -/
theorem Dev.standbyCan_of_ready {d : Dev} (h : d.mgmt.standby = .ready) : d.standbyCan = true := by
  rw [Dev.standbyCan, h]
  rfl

/-- Settles O20: in each clause the conditions named decide the branches of the row. -/
theorem processorEvents : Obligations.ProcessorEvents := by
  refine ⟨?_, ?_, ?_, ?_, ?_, ?_, ?_, ?_, ?_, ?_, ?_, ?_, ?_, ?_, ?_, ?_, ?_⟩
  · exact .of_event execHeartbeat (fun _ _ => ⟨rfl, rfl⟩) fun _ _ _ hm => if_pos hm
  · exact fun b => .of_event (execMpcTakeover · b) (fun _ _ => ⟨rfl, rfl⟩) fun m _ d ⟨hm, hready, hmissed⟩ => by
      simp [hm, Dev.standbyCan_of_ready hready, hmissed]
  · refine .of_event execMpcRestart (fun _ _ => ⟨rfl, rfl⟩) fun m _ d ⟨hm, hcannot⟩ => ?_
    rw [hm, hcannot]
    exact ⟨rfl, rfl, rfl, rfl⟩
  · exact .of_event execMpcRestartComplete (fun _ _ => ⟨rfl, rfl⟩) fun _ _ d ⟨hpaused, hact, hswitch⟩ => by
      simp [hpaused, hact, hswitch]
  · exact .of_event execStandbyReady (fun _ _ => ⟨rfl, rfl⟩) fun _ _ d ⟨hact, hswitch, hnot⟩ => by
      simp [hact, hswitch, hnot]
  · exact .of_event execStandbyReady (fun _ _ => ⟨rfl, rfl⟩) fun _ _ d hswitch => by
      simp [hswitch]
  · exact .of_event execStandbyReady (fun _ _ => ⟨rfl, rfl⟩) fun _ _ d ⟨hact, hver, hswitch, hnot, hend⟩ => by
      simp [hact, hver, hswitch, hnot, hend]
  · exact .of_event execStandbyFailed (fun _ _ => ⟨rfl, rfl⟩) fun m _ d ⟨hm, hready⟩ => by
      simp [hm, hready]
  · exact .of_event execServiceFrame (fun _ _ => ⟨rfl, rfl⟩) fun _ _ _ hdue => if_pos hdue
  · exact fun b => .of_event (execShedLevel · b) (fun _ _ => ⟨rfl, rfl⟩) fun m _ d ⟨hm, hdue, hlo, hhi⟩ => by
      simp only [hm, Nat.not_lt.mpr hdue, ge_iff_le, Nat.not_le.mpr hhi, Nat.not_lt.mpr hlo, Bool.not_true, decide_false, Bool.or_self,
        Bool.false_eq_true, if_false, if_true]
      rfl
  · exact fun b => .of_event (execShedLevel · b) (fun _ _ => ⟨rfl, rfl⟩) fun m _ d ⟨hm, hdue, hbusy, hshed⟩ => by
      have hmin : min 3 (d.mgmt.shed + 1) = d.mgmt.shed + 1 := Nat.min_eq_right hshed
      simp only [hm, Nat.not_lt.mpr hdue, ge_iff_le, hbusy, hmin, Bool.not_true, decide_false, Bool.or_self, Bool.false_eq_true, if_false,
        if_true, Nat.succ_ne_self]
      rfl
  · exact .of_event (execStandbyImageVerified · true) (fun _ _ => ⟨rfl, rfl⟩) fun _ _ d ⟨hact, hver, hvalid, hmajor⟩ => by
      simp [hact, hver, hvalid, hmajor]
  · exact .of_event (execStandbyImageVerified · false) (fun _ _ => ⟨rfl, rfl⟩) fun _ _ d ⟨hact, hver⟩ => by
      simp [hact, hver]
  · exact fun k => .of_event execFirmwareHandover (fun _ _ => ⟨rfl, rfl⟩) fun _ _ d ⟨hact, hswitch⟩ => by
      simp [hact, hswitch]
  · exact .of_event execFirmwareHandover (fun _ _ => ⟨rfl, rfl⟩) fun _ _ d ⟨hact, hver, hready⟩ => by
      simp [hact, hver, hready]
  · exact fun i => .of_event (execResyncStart · i) (fun _ _ => ⟨rfl, rfl⟩) fun _ _ _ _ => rfl
  · exact fun i => .of_event (execResyncDone · i) (fun _ _ => ⟨rfl, rfl⟩) fun _ _ _ hresync => if_pos hresync

end Sys2Proof.Machine
end

section
/-! The rows of the cell fabric (R98, R100, R103 to R125). -/

namespace Sys2Proof.Machine

/-- The aggregated answer of a multicast is due once every copy has answered and none was sent (R117). -/
theorem aggregate_due {t : Trk} (hgroup : t.group.isSome = true) (hleft : t.left = []) (hdone : t.done = false) :
    ¬ (t.group.isNone = true ∨ t.left ≠ [] ∨ t.done = true) := by
  simp only [← Option.not_isSome, hgroup, hleft, hdone, Bool.not_true, ne_eq, not_true_eq_false, Bool.false_eq_true, or_self,
    not_false_eq_true]

/-- Settles O11: in each clause the conditions named decide the branches of the row; a transfer has its branch by the plane and the stage. -/
theorem fabricEvents : Obligations.FabricEvents := by
  refine ⟨?_, ?_, ?_, ?_, ?_, ?_, ?_, ?_, ?_, ?_, ?_, ?_, ?_, ?_⟩
  · exact fun pl => .of_event (execStageTransfer · pl 1) (fun _ _ => ⟨rfl, rfl⟩) fun _ _ d hused =>
      (if_neg (by rw [hused]; decide)).trans (if_pos rfl)
  · exact fun pl => .of_event (execStageTransfer · pl 2) (fun _ _ => ⟨rfl, rfl⟩) fun _ _ d hused =>
      (if_neg (by rw [hused]; decide)).trans ((if_neg (by decide)).trans (if_pos rfl))
  · exact fun id c stage src tile plane => .of_event (execCellArrival · id .failed) (fun _ _ => ⟨rfl, rfl⟩)
      fun _ _ d ⟨hcell, hflies, hdue⟩ => by
      simp only [hcell, hflies, Nat.not_lt.mpr hdue, if_false]
  · exact fun id c stage src tile plane => .of_event (execCellArrival · id .malformed) (fun _ _ => ⟨rfl, rfl⟩)
      fun _ _ d ⟨hcell, hflies, hdue⟩ => by
      simp only [hcell, hflies, Nat.not_lt.mpr hdue, if_false]
  · exact fun id c stage src tile plane => .of_event (execCellArrival · id .ok) (fun _ _ => ⟨rfl, rfl⟩)
      fun _ _ d ⟨hcell, hflies, hdue⟩ => by
      simp only [hcell, hflies, Nat.not_lt.mpr hdue, if_false, reduceCtorEq]
  · exact fun id c stage src tile plane => .of_event (execCellArrival · id .corrected) (fun _ _ => ⟨rfl, rfl⟩)
      fun _ _ d ⟨hcell, hflies, hdue⟩ => by
      simp only [hcell, hflies, Nat.not_lt.mpr hdue, if_true, if_false]
  · exact fun e => .of_event (execLockChamberRelease · e) (fun _ _ => ⟨rfl, rfl⟩) fun _ _ _ _ => rfl
  · exact fun e => .of_event (execLockAck · e) (fun _ _ => ⟨rfl, rfl⟩) fun _ _ d hmoved => by
      refine if_neg fun hnone => ?_
      obtain ⟨x, hx, hadvanced⟩ := List.any_eq_true.mp hmoved
      exact List.filter_eq_nil_iff.mp (List.isEmpty_iff.mp hnone) x hx hadvanced
  · exact fun src e sp seq c => .of_event (execSeqMissing · src e sp seq) (fun _ _ => ⟨rfl, rfl⟩)
      fun _ p d ⟨hsprayed, hnum, hhold, hgate, hwaits, hcell⟩ => by
      simp only [hsprayed, if_false, List.find?_cons, hnum, hhold, hgate, hwaits, hcell, beq_self_eq_true, Bool.not_false, Bool.and_self]
  · exact fun i t => .of_event (execMcastAggregate · i) (fun _ _ => ⟨rfl, rfl⟩) fun _ _ d ⟨htrk, hgroup, hleft, hdone, hinit⟩ => by
      simp only [htrk, aggregate_due hgroup hleft hdone, hinit, if_false]
  · exact fun i t r => .of_event (execMcastAggregate · i) (fun _ _ => ⟨rfl, rfl⟩)
      fun _ _ d ⟨htrk, hgroup, hleft, hdone, hinit, hrepl⟩ => by
      simp only [htrk, aggregate_due hgroup hleft hdone, hinit, hrepl, if_true, if_false]
  · exact fun pl bist => .of_event (execPlaneLost · pl bist) (fun _ _ => ⟨rfl, rfl⟩) fun _ _ d ⟨hpl, hup, hwhy⟩ => by
      have hlost : (bist || decide (16 ≤ ((d.fab.fails.getD pl []).filter fun t => decide (d.since t < ms6)).length)) = true := by
        rwa [Bool.or_eq_true, decide_eq_true_iff]
      simp only [ge_iff_le, Nat.not_le.mpr hpl, hup, hlost, Bool.not_true, Bool.false_eq_true, or_self, if_false]
  · exact fun r => .of_event execPatternEpoch (fun _ _ => ⟨rfl, rfl⟩) fun _ _ d ⟨hrepat, hclosing, howed⟩ => by
      simp only [hrepat, hclosing, howed, Bool.not_false, and_self, if_true]
  · exact fun r => .of_event execPatternChangeTimeout (fun _ _ => ⟨rfl, rfl⟩) fun _ p d ⟨hrepat, hlate⟩ => by
      simp only [hrepat, Nat.not_lt.mpr hlate, if_false]

end Sys2Proof.Machine
end

section
/-! The rows of queues, held cells and the Basin stacks (R119, R129, R135, R137, R141 to R148, R184 to R189, R529). -/

namespace Sys2Proof.Machine

section
variable {dt : Nat} {s : State} {i : Instr} {g : Mode → Profile → Dev → Mem → Dev × Mem}

/-- A row on the device and the Basin memory leaves what its effect gives. -/
theorem exec_of_memEvent {d : Dev} {m : Mem} (hrow : exec i s = memEvent dt s g)
    (hg : g s.mode s.profile (s.elapse dt).dev s.mem = (d, m)) : exec i s = .next { s.elapse dt with dev := d, mem := m } := by
  rw [hrow, memEvent, State.elapse_mode, State.elapse_profile, State.elapse_mem, hg]
  rfl

/-- Where its effect keeps the Basin memory, the row acts on the device alone. -/
theorem exec_of_memEvent_dev {act : Dev → Dev} (hrow : exec i s = memEvent dt s g)
    (hg : g s.mode s.profile (s.elapse dt).dev s.mem = (act (s.elapse dt).dev, s.mem)) : exec i s = .next ((s.elapse dt).onDev act) :=
  exec_of_memEvent hrow hg

/-- A row on the device and the Basin memory that keeps the memory where its condition holds acts as its effect does there. -/
theorem Acts.of_memEvent {i : Nat → Instr} {ok : Mode → Profile → Dev → Prop} {act : Mode → Profile → Dev → Dev}
    (row : Nat → State → Host.Outcome State Fault Refusal) (hrow : ∀ dt s, exec (i dt) s = row dt s ∧ row dt s = memEvent dt s g)
    (hg : ∀ m p d mem, ok m p d → g m p d mem = (act m p d, mem)) : Acts i ok act :=
  fun dt s hok => exec_of_memEvent_dev ((hrow dt s).1.trans (hrow dt s).2) (hg _ _ _ _ hok)

end

/-- A stack is declared lost (R147): the premises bar every way in which the row has no effect. -/
theorem stackLost_due {k cause n : Nat} {st : StackSt} (hk : k < 2) (hst : st ≠ .lost) (hlo : 1 ≤ cause) (hhi : cause ≤ 3)
    (hmany : cause = 2 → 16 ≤ n) : ¬ (k ≥ 2 ∨ st = .lost ∨ cause = 0 ∨ cause > 3 ∨ (cause = 2 ∧ n < 16)) := by
  rintro (hport | hlost | hzero | hfar | ⟨htwo, hfew⟩)
  · exact Nat.not_le.mpr hk hport
  · exact hst hlost
  · exact Nat.ne_of_gt hlo hzero
  · exact Nat.not_lt.mpr hhi hfar
  · exact Nat.not_le.mpr hfew (hmany htwo)

/-- The Dredger reads the lines of a stack in service (R145). -/
theorem scrub_due {k line : Nat} {st : StackSt} (hk : k < 2) (hline : line < stackLines) (hst : st = .inService) :
    ¬ (k ≥ 2 ∨ line ≥ stackLines ∨ st ≠ .inService) := by
  simp only [ge_iff_le, Nat.not_le.mpr hk, Nat.not_le.mpr hline, hst, ne_eq, not_true_eq_false, or_self, not_false_eq_true]

/-- Settles O12: in each clause the conditions named decide the branches of the row, which leave a device and a Basin memory. -/
theorem basinEvents : Obligations.BasinEvents := by
  refine ⟨?_, ?_, ?_, ?_, ?_, ?_, ?_, ?_, ?_, ?_, ?_, ?_, ?_, ?_, ?_, ?_⟩
  · exact .of_event execQueueStateBroadcast (fun _ _ => ⟨rfl, rfl⟩) fun _ _ _ _ => rfl
  · exact fun l q c => .of_event (execBasinReturn · l q) (fun _ _ => ⟨rfl, rfl⟩) fun _ p d ⟨hheld, hback⟩ => by
      simp only [hheld, hback, if_true]
  · exact fun id c st => .of_event (execBasinCellLost · id) (fun _ _ => ⟨rfl, rfl⟩) fun _ p d ⟨hcell, hheld⟩ => by
      simp only [hcell, hheld]
  · exact fun k => .of_event (execBasinSlot · k) (fun _ _ => ⟨rfl, rfl⟩) fun _ _ d ⟨hk, hst⟩ =>
      if_neg (not_or.mpr ⟨Nat.not_le.mpr hk, not_not_intro hst⟩)
  · exact fun port id x => .of_memEvent (execBasinMemoryAccess · port id) (fun _ _ => ⟨rfl, rfl⟩) fun _ _ d m ⟨hmsg, hlost⟩ => by
      simp only [hmsg, hlost, if_true]
  · intro dt s port id x hmsg hst hacc hresv
    refine exec_of_memEvent_dev (show _ = execBasinMemoryAccess dt port id s from rfl) ?_
    simp only [hmsg, hst, hacc, hresv, Bool.false_eq_true, if_false]
  · intro dt s port id x hmsg hst hacc hresv
    refine exec_of_memEvent_dev (show _ = execBasinMemoryAccess dt port id s from rfl) ?_
    simp only [hmsg, hst, hacc, hresv, if_true, if_false]
  · intro dt s port id x hmsg hst hacc hresv
    refine exec_of_memEvent (show _ = execBasinMemoryAccess dt port id s from rfl) ?_
    simp only [hmsg, hst, hacc, hresv, Bool.false_eq_true, if_true, if_false]
  · intro dt s port id x hmsg hst hacc hresv
    refine exec_of_memEvent (show _ = execBasinMemoryAccess dt port id s from rfl) ?_
    simp only [hmsg, hst, hacc, hresv, if_true, if_false]
  · intro dt s port id x aop n v hmsg hst hacc hsize hwrites
    refine exec_of_memEvent (show _ = execBasinAtomicop dt port id s from rfl) ?_
    simp only [hmsg, hst, hacc, hsize, hwrites, decide_true, Bool.not_true, Bool.false_eq_true, if_false]
  · intro dt s port id x aop n hmsg hst hacc hsize
    refine exec_of_memEvent_dev (show _ = execBasinAtomicop dt port id s from rfl) ?_
    simp only [hmsg, hst, hacc, hsize, decide_false, Bool.not_false, if_true, if_false]
  · exact fun k line => .of_memEvent (execDredgerScrub · k line .clean) (fun _ _ => ⟨rfl, rfl⟩) fun _ _ d m ⟨hk, hline, hst⟩ =>
      if_neg (scrub_due hk hline hst)
  · exact fun k line n => .of_memEvent (execDredgerScrub · k line (.corrected n)) (fun _ _ => ⟨rfl, rfl⟩)
      fun _ _ d m ⟨hk, hline, hst⟩ => if_neg (scrub_due hk hline hst)
  · intro dt s k line c off hk hline hst hoff
    refine exec_of_memEvent (show _ = execDredgerScrub dt k line (.uncorrectable c) s from rfl) ?_
    simp only [scrub_due hk hline hst, hoff, Mem.mark, if_false]
  · exact fun k cause => .of_event (execStackLost · k cause) (fun _ _ => ⟨rfl, rfl⟩) fun _ p d ⟨hk, hst, hlo, hhi, hmany⟩ =>
      if_neg (stackLost_due hk hst hlo hhi hmany)
  · intro dt s g hclearing
    exact exec_of_memEvent (show _ = execBasinGibCleared dt g s from rfl) (if_pos hclearing)

end Sys2Proof.Machine
end

section
/-! Reads and writes of the Basin memory (R141, R142): what written bytes read back as, and that the bytes of a memory determine what it
lists. -/

namespace Sys2Proof.Machine

section
variable {l k : List Host.Cell} {c : Host.Cell} {off a : Nat} {x : Byte} {b : Bytes}

theorem cellsAt_cons : cellsAt off (x :: b) = (off, x) :: cellsAt (off + 1) b := by
  simp only [cellsAt, List.zipIdx_cons', List.map_cons, List.map_map, Nat.add_zero, List.cons.injEq, true_and]
  exact List.map_congr_left fun y _ => by simp [Nat.add_assoc, Nat.add_comm 1]

/-- The cells of bytes lie within their range. -/
theorem mem_cellsAt_range (h : c ∈ cellsAt off b) : off ≤ c.1 ∧ c.1 < off + b.length := by
  obtain ⟨⟨v, i⟩, hi, rfl⟩ := List.mem_map.mp h
  obtain ⟨-, hlt, -⟩ := List.mem_zipIdx hi
  exact ⟨Nat.le_add_right off i, Nat.add_lt_add_left (by simpa using hlt) off⟩

theorem Mem.putAll_cons (m : Mem) : m.putAll (c :: l) = (m.putAll [c]).putAll l := rfl

/-- What written bytes and every byte outside them read. -/
theorem Mem.putAll_cellsAt_byte (m : Mem) (off : Nat) (b : Bytes) (h : m.wf) :
    (m.putAll (cellsAt off b)).byte a = if off ≤ a ∧ a < off + b.length then b.getD (a - off) 0 else m.byte a := by
  induction b generalizing m off with
  | nil => exact (if_neg (by simp only [List.length_nil]; omega)).symm
  | cons x b ih =>
    rw [cellsAt_cons, Mem.putAll_cons, ih _ _ (m.putAll_wf _ h), List.length_cons]
    by_cases hat : a = off
    · subst hat
      rw [if_neg (by omega), if_pos (by omega), Nat.sub_self]
      exact memGet_memPut _ _ _ h
    · have hkept : (m.putAll [(off, x)]).byte a = m.byte a := m.putAll_byte_ne _ _ fun c hc => by
        rw [List.mem_singleton.mp hc]
        exact Ne.symm hat
      by_cases hin : off ≤ a ∧ a < off + (b.length + 1)
      · rw [if_pos (by omega), if_pos hin, show a - off = a - (off + 1) + 1 by omega, List.getD_cons_succ]
      · rw [if_neg (by omega), if_neg hin, hkept]

/-- Bytes read back as they were written. -/
theorem Mem.putAll_cellsAt_read (m : Mem) (off : Nat) (b : Bytes) (h : m.wf) : (m.putAll (cellsAt off b)).read off b.length = b := by
  unfold Mem.read
  refine List.ext_getElem (by rw [List.length_map, List.length_range]) fun i _ hi => ?_
  rw [List.getElem_map, List.getElem_range, Mem.putAll_cellsAt_byte m off b h, if_pos (by omega), Nat.add_sub_cancel_left,
    List.getD_eq_getElem?_getD, List.getElem?_eq_getElem hi, Option.getD_some]

/-- A canonical list holds a cell exactly where its byte is not 0. -/
theorem Canonical.mem_iff (h : Canonical l) : c ∈ l ↔ memGet l c.1 = c.2 ∧ c.2 ≠ 0 := by
  obtain ⟨hrise, hnz⟩ := h
  induction l with
  | nil => exact ⟨nofun, fun ⟨hget, hc⟩ => absurd hget.symm hc⟩
  | cons y l ih =>
    obtain ⟨hfirst, hrest⟩ := List.pairwise_cons.mp hrise
    have ih := ih hrest fun c hc => hnz c (List.mem_cons_of_mem y hc)
    rw [List.mem_cons, memGet]
    split
    next hat =>
      refine ⟨?_, fun ⟨hget, _⟩ => .inl (Prod.ext hat.symm hget.symm)⟩
      rintro (rfl | hc)
      · exact ⟨rfl, hnz _ (List.mem_cons_self ..)⟩
      · exact absurd (hfirst c hc) (by rw [hat]; exact Nat.lt_irrefl _)
    next hat => exact (or_iff_right fun hc => hat (by rw [hc])).trans ih

/-- Canonical lists that read alike are equal: both list their bytes other than 0 by rising offset. -/
theorem Canonical.ext (hl : Canonical l) (hk : Canonical k) (h : ∀ a, memGet l a = memGet k a) : l = k := by
  have hnodup {l : List Host.Cell} (hl : Canonical l) : l.Nodup := hl.1.imp fun hlt => ne_of_apply_ne Prod.fst (Nat.ne_of_lt hlt)
  have hperm : l.Perm k := (List.perm_ext_iff_of_nodup (hnodup hl) (hnodup hk)).mpr fun c => by rw [hl.mem_iff, hk.mem_iff, h]
  exact hperm.eq_of_pairwise (fun _ _ _ _ hab hba => absurd hab (Nat.lt_asymm hba)) hl.1 hk.1

end

/-- Settles O38: a write is one cell after another, and a canonical list is what its bytes make it. -/
theorem memoryReadsBack : Obligations.MemoryReadsBack :=
  ⟨fun m off b h => ⟨m.putAll_wf _ h, m.putAll_cellsAt_read off b h⟩, fun m off b _ h => m.putAll_cellsAt_byte off b h,
    fun m off n a h => ⟨m.clear_wf off n h, m.clear_byte off n a⟩, fun _ _ hm hn h => Canonical.ext hm hn h⟩

end Sys2Proof.Machine
end

section
/-! What each row can do to the Basin memory and to the waiting commands (R141 to R148, R184, Table MODE-6): the canonical form and the
bytes that stay follow from these moves alone. -/

namespace Sys2Proof.Machine

section
variable {m n : Mem} {s t : State} {i : Instr} {dt : Nat}

/-- The moves of the Basin memory that a row can make: none; a reset lists nothing; bytes are stored, with any change of poison marks (R145);
a range is cleared (R142, R148). -/
inductive MemMoves (m : Mem) : Mem → Prop
  | keeps : MemMoves m m
  | empties : MemMoves m {}
  | stores {n : Mem} (l : List Host.Cell) (hcells : n.cells = (m.putAll l).cells) : MemMoves m n
  | clears (off len : Nat) : MemMoves m (m.clear off len)

theorem MemMoves.wf (h : MemMoves m n) (hwf : m.wf) : n.wf := by
  cases h with
  | keeps => exact hwf
  | empties => exact ⟨.nil, nofun⟩
  | stores l hcells =>
    rw [Mem.wf, hcells]
    exact m.putAll_wf l hwf
  | clears off len => exact m.clear_wf off len hwf

/-- A byte at no offset stored stays. -/
theorem Mem.byte_of_stores {l : List Host.Cell} {a : Nat} (hcells : n.cells = (m.putAll l).cells) (ha : ∀ c ∈ l, c.1 ≠ a) :
    n.byte a = m.byte a :=
  (congrArg (memGet · a) hcells).trans (m.putAll_byte_ne l a ha)

/-! ### The Basin rows -/

/-- The memory that a row on the device and the Basin memory leaves. -/
theorem memEvent_mem {g : Mode → Profile → Dev → Mem → Dev × Mem} (h : memEvent dt s g = .next t) :
    t.mem = (g s.mode s.profile (s.elapse dt).dev s.mem).2 := by
  obtain rfl := Host.Outcome.next.inj h
  rfl

/-- A Basin memory port stores a write, and nothing else (R141). -/
theorem execBasinMemoryAccess_mem {port id : Nat} (h : execBasinMemoryAccess dt port id s = .next t) :
    t.mem = s.mem ∨ ∃ x, (s.elapse dt).dev.portMsg port id = some x ∧ x.acc = .write
      ∧ t.mem.cells = (s.mem.putAll x.writeCells).cells := by
  rw [memEvent_mem h]
  split
  next x hmsg =>
    dsimp only
    split
    · exact .inl rfl
    · split
      · exact .inl rfl
      · exact .inl rfl
      next hacc =>
        generalize (if x.resv = true then _ else _) = stored
        split
        · exact .inr ⟨x, hmsg, hacc, stored.2.applyWrite_cells s.mem x.init port ..⟩
        · exact .inl rfl
      · exact .inl rfl
  · exact .inl rfl

theorem fit_length (k : Nat) (b : Bytes) : (fit k b).length = k := by
  rw [fit, List.length_append, List.length_take, zeros, List.length_replicate]
  omega

theorem nb_length (k v : Nat) : (nb k v).length = k := by
  induction k generalizing v with
  | zero => rfl
  | succ k ih => rw [nb, List.length_cons, ih]

/-- An AtomicOp writes as many bytes as it reads. -/
theorem aopResult_length {op k : Nat} {old operand v : Bytes} (h : aopResult op k old operand = some v) : v.length = k := by
  unfold aopResult at h
  split at h
  · rw [← Option.some.inj h, nb_length]
  · rw [← Option.some.inj h, fit_length]
  · split at h
    · rw [← Option.some.inj h, slice, fit_length]
    · nomatch h

/-- A Basin memory port stores the bytes of an AtomicOp at its target (R184). -/
theorem execBasinAtomicop_mem {port id : Nat} (h : execBasinAtomicop dt port id s = .next t) :
    t.mem = s.mem ∨ ∃ x op v, (s.elapse dt).dev.portMsg port id = some x ∧ x.acc = .atomic op v.length
      ∧ t.mem.cells = (s.mem.putAll (cellsAt x.off v)).cells := by
  rw [memEvent_mem h]
  split
  next x hmsg =>
    dsimp only
    split
    next op k hacc =>
      split
      · exact .inl rfl
      · split
        · exact .inl rfl
        · split
          next v hv =>
            refine .inr ⟨x, op, v, hmsg, (aopResult_length hv).symm ▸ hacc, ?_⟩
            exact (s.elapse dt).dev.applyWrite_cells s.mem x.init port ..
          · exact .inl rfl
    · exact .inl rfl
  · exact .inl rfl

/-- The Dredger marks lines and stores nothing (R145). -/
theorem execDredgerScrub_cells {k line : Nat} {r : ScrubResult} (h : execDredgerScrub dt k line r s = .next t) :
    t.mem.cells = s.mem.cells := by
  rw [memEvent_mem h]
  split
  · rfl
  · dsimp only
    split
    · rfl
    · rfl
    · split
      · rfl
      · split <;> rfl

theorem execBasinGibCleared_mem {g : Nat} (h : execBasinGibCleared dt g s = .next t) :
    t.mem = s.mem ∨ t.mem = s.mem.clear (g * gib) gib := by
  rw [memEvent_mem h]
  split
  · exact .inr rfl
  · exact .inl rfl

/-- The return of a stack clears its Basin memory; other service operations leave the memory (R148). -/
theorem execServiceOpComplete_mem {ok : Bool} (h : execServiceOpComplete dt ok s = .next t) :
    t.mem = s.mem ∨ ∃ off len, t.mem = s.mem.clear off len := by
  rw [memEvent_mem h]
  split
  · extract_lets fits
    split
    · exact .inl rfl
    · dsimp only
      split
      · dsimp only
        split
        · exact .inr ⟨_, _, rfl⟩
        · exact .inl rfl
      · exact .inl rfl
      · exact .inl rfl
  · exact .inl rfl

/-- The cells that BASIN_FILL writes in one part (R143). -/
def Ctx.partCells (c : Ctx) (x : Piece) : List Host.Cell :=
  (List.range x.len).map fun i => (x.off + i, BitVec.ofNat 8 (byteAt c.f.payload (20 + (x.addr + i) % 8)))

/-- The cells that BASIN_FILL writes: those of every part that passed its checks (R143). -/
def Ctx.fillCells (c : Ctx) : List Host.Cell := (c.fillParts.filter fun x => decide (x.fault = 0)).flatMap c.partCells

theorem Ctx.filled_cells (c : Ctx) (m : Mem) : (c.filled m).cells = (m.putAll c.fillCells).cells := by
  unfold Ctx.filled Ctx.fillCells
  generalize c.fillParts.filter _ = parts
  induction parts generalizing m with
  | nil => rfl
  | cons x parts ih =>
    rw [List.foldl_cons, ih, List.flatMap_cons]
    exact (List.foldl_append ..).symm

/-- The cells of BASIN_FILL lie in the parts that passed. -/
theorem Ctx.mem_fillCells {c : Ctx} {y : Host.Cell} (h : y ∈ c.fillCells) :
    ∃ x ∈ c.fillParts, x.fault = 0 ∧ x.off ≤ y.1 ∧ y.1 < x.off + x.len := by
  obtain ⟨x, hx, hy⟩ := List.mem_flatMap.mp h
  obtain ⟨hpart, hfault⟩ := List.mem_filter.mp hx
  obtain ⟨k, hk, rfl⟩ := List.mem_map.mp hy
  exact ⟨x, hpart, of_decide_eq_true hfault, Nat.le_add_right .., Nat.add_lt_add_left (List.mem_range.mp hk) _⟩

theorem execBasinFill_mem {f : Frame} (h : execBasinFill dt f s = .next t) :
    t.mem = s.mem ∨ t.mem.cells = (s.mem.putAll ((s.elapse dt).ctx f).fillCells).cells := by
  obtain rfl := Host.Outcome.next.inj h
  dsimp only
  split
  · exact .inr (Ctx.filled_cells ..)
  · exact .inl rfl

/-! ### The rows that reset the core -/

/-- The waiting commands stay, and the Basin memory stays or lists nothing (Table PWR-4, assumption 4). -/
def State.KeepsOrEmpties (s t : State) : Prop := t.pending = s.pending ∧ (t.mem = s.mem ∨ t.mem = {})

theorem State.loadEnds_keepsOrEmpties (d : Dev) (k : Nat) : s.KeepsOrEmpties (s.loadEnds d k) := by
  unfold State.loadEnds
  split
  · exact ⟨rfl, .inl rfl⟩
  · dsimp only
    split
    · split
      · exact ⟨rfl, .inl rfl⟩
      · exact ⟨rfl, .inr rfl⟩
    · exact ⟨rfl, .inr rfl⟩

theorem execImageLoad_keepsOrEmpties (h : execImageLoad dt s = .next t) : s.KeepsOrEmpties t := by
  unfold execImageLoad at h
  extract_lets s' d asked at h
  obtain rfl := Host.Outcome.next.inj h
  split
  · exact ⟨rfl, .inl rfl⟩
  · split
    · exact State.loadEnds_keepsOrEmpties (s := s') d _
    · exact ⟨rfl, .inl rfl⟩

theorem execCommitEpoch_keepsOrEmpties (h : execCommitEpoch dt s = .next t) : s.KeepsOrEmpties t := by
  obtain rfl := Host.Outcome.next.inj h
  split
  · exact ⟨rfl, .inl rfl⟩
  · split
    · exact ⟨rfl, .inr rfl⟩
    · exact ⟨rfl, .inl rfl⟩

theorem execFatalFault_keepsOrEmpties (h : execFatalFault dt s = .next t) : s.KeepsOrEmpties t := by
  obtain rfl := Host.Outcome.next.inj h
  split
  · exact ⟨rfl, .inl rfl⟩
  · exact ⟨rfl, .inr rfl⟩

theorem execResetNAssert_keepsOrEmpties {held : Nat} (h : execResetNAssert dt held s = .next t) : s.KeepsOrEmpties t := by
  obtain rfl := Host.Outcome.next.inj h
  split
  · exact ⟨rfl, .inr rfl⟩
  · exact ⟨rfl, .inl rfl⟩

theorem execTamperEvent_keepsOrEmpties {cause : TamperCause} (h : execTamperEvent dt cause s = .next t) : s.KeepsOrEmpties t := by
  obtain rfl := Host.Outcome.next.inj h
  split
  · exact ⟨rfl, .inl rfl⟩
  · exact ⟨rfl, .inr rfl⟩

theorem thenZeroize_keepsOrEmpties {k : Cmd} {cause : Nat} {after : Dev → Dev} {f : Frame}
    (h : thenZeroize k cause after dt f s = .next t) : s.KeepsOrEmpties t := by
  obtain rfl := Host.Outcome.next.inj h
  split
  · exact ⟨rfl, .inr rfl⟩
  · exact ⟨rfl, .inl rfl⟩

/-! ### Every row -/

/-- A row that touches no Basin memory keeps it, and the waiting commands. -/
theorem exec_keeps_mem (hi : touchesMemory i = false) (h : exec i s = .next t) : t.mem = s.mem ∧ t.pending = s.pending := by
  cases i with
  | basinMemoryAccess | basinAtomicop | dredgerScrub | basinFill | basinGibCleared | serviceOpComplete | powerGood | resetNAssert
  | coreRailsOff | imageLoad | commitEpoch | fatalFault | zeroize | debugEnable | tamperEvent => nomatch hi
  | privateDebugInstruction dt code =>
    replace h : execPrivateDebugInstruction dt code s = .next t := h
    unfold execPrivateDebugInstruction at h
    split at h
    · nomatch h
    · obtain rfl := Host.Outcome.next.inj h
      exact ⟨rfl, rfl⟩
  | safeEntry =>
    obtain rfl := Host.Outcome.next.inj h
    split
    · exact ⟨rfl, rfl⟩
    · split <;> exact ⟨rfl, rfl⟩
  | configureDrainComplete =>
    obtain rfl := Host.Outcome.next.inj h
    split <;> exact ⟨rfl, rfl⟩
  | diagnosticTransitionDone =>
    obtain rfl := Host.Outcome.next.inj h
    split
    · split <;> exact ⟨rfl, rfl⟩
    · split <;> exact ⟨rfl, rfl⟩
    · exact ⟨rfl, rfl⟩
  | _ =>
    obtain rfl := Host.Outcome.next.inj h
    exact ⟨rfl, rfl⟩

/-- No row touches the queue. -/
theorem exec_keeps_pending (h : exec i s = .next t) : t.pending = s.pending := by
  cases hi : touchesMemory i with
  | false => exact (exec_keeps_mem hi h).2
  | true =>
    cases i with
    | basinMemoryAccess | basinAtomicop | dredgerScrub | basinFill | basinGibCleared | serviceOpComplete | powerGood | coreRailsOff =>
      obtain rfl := Host.Outcome.next.inj h
      rfl
    | resetNAssert => exact (execResetNAssert_keepsOrEmpties h).1
    | imageLoad => exact (execImageLoad_keepsOrEmpties h).1
    | commitEpoch => exact (execCommitEpoch_keepsOrEmpties h).1
    | fatalFault => exact (execFatalFault_keepsOrEmpties h).1
    | zeroize | debugEnable => exact (thenZeroize_keepsOrEmpties h).1
    | tamperEvent => exact (execTamperEvent_keepsOrEmpties h).1
    | _ => nomatch hi

theorem State.KeepsOrEmpties.memMoves (h : s.KeepsOrEmpties t) : MemMoves s.mem t.mem := by
  obtain ⟨-, hm | hm⟩ := h
  · exact hm ▸ .keeps
  · exact hm ▸ .empties

/-- Every row makes one of the moves. -/
theorem exec_memMoves (h : exec i s = .next t) : MemMoves s.mem t.mem := by
  cases hi : touchesMemory i with
  | false =>
    rw [(exec_keeps_mem hi h).1]
    exact .keeps
  | true =>
    cases i with
    | basinMemoryAccess =>
      obtain hm | ⟨x, -, -, hcells⟩ := execBasinMemoryAccess_mem h
      · exact hm ▸ .keeps
      · exact .stores _ hcells
    | basinAtomicop =>
      obtain hm | ⟨x, op, v, -, -, hcells⟩ := execBasinAtomicop_mem h
      · exact hm ▸ .keeps
      · exact .stores _ hcells
    | dredgerScrub => exact .stores [] (execDredgerScrub_cells h)
    | basinFill =>
      obtain hm | hcells := execBasinFill_mem h
      · exact hm ▸ .keeps
      · exact .stores _ hcells
    | basinGibCleared =>
      obtain hm | hm := execBasinGibCleared_mem h
      · exact hm ▸ .keeps
      · exact hm ▸ .clears ..
    | serviceOpComplete =>
      obtain hm | ⟨off, len, hm⟩ := execServiceOpComplete_mem h
      · exact hm ▸ .keeps
      · exact hm ▸ .clears off len
    | powerGood | coreRailsOff =>
      obtain rfl := Host.Outcome.next.inj h
      exact .empties
    | resetNAssert => exact (execResetNAssert_keepsOrEmpties h).memMoves
    | imageLoad => exact (execImageLoad_keepsOrEmpties h).memMoves
    | commitEpoch => exact (execCommitEpoch_keepsOrEmpties h).memMoves
    | fatalFault => exact (execFatalFault_keepsOrEmpties h).memMoves
    | zeroize | debugEnable => exact (thenZeroize_keepsOrEmpties h).memMoves
    | tamperEvent => exact (execTamperEvent_keepsOrEmpties h).memMoves
    | _ => nomatch hi

end

/-- Settles O37: each move of a row keeps the canonical form, and a step is the row at the front of the queue. -/
theorem basinCanonical : Obligations.BasinCanonical := by
  intro s t hwf h
  unfold step at h
  split at h
  · obtain rfl := Host.Outcome.next.inj h
    exact hwf
  · exact (exec_memMoves h).wf hwf

/-- Settles O34: no row touches the queue, and the rows that Table MODE-6 or the Basin does not name keep mode, profile and memory. -/
theorem machineFrames : Obligations.MachineFrames :=
  ⟨fun _ _ _ => exec_keeps_pending, fun _ _ _ => exec_keeps_mode, fun _ _ _ hi h => (exec_keeps_mem hi h).1⟩

/-- Settles O39: a byte outside what its row stores or clears is at no offset of it. -/
theorem basinStores : Obligations.BasinStores := by
  refine ⟨?_, ?_, ?_, ?_, ?_, fun _ _ _ _ _ _ h => execDredgerScrub_cells h⟩
  · intro dt port id s t x hmsg _ h a ha
    obtain hm | ⟨y, hy, -, hcells⟩ := execBasinMemoryAccess_mem h
    · rw [hm]
    · obtain rfl := Option.some.inj (hmsg.symm.trans hy)
      exact Mem.byte_of_stores hcells ha
  · intro dt port id s t x hmsg hacc h
    obtain hm | ⟨y, hy, hwrite, -⟩ := execBasinMemoryAccess_mem h
    · exact hm
    · obtain rfl := Option.some.inj (hmsg.symm.trans hy)
      exact absurd hwrite hacc
  · intro dt port id s t x op n hmsg hacc h a ha
    obtain hm | ⟨y, aop, v, hy, hatomic, hcells⟩ := execBasinAtomicop_mem h
    · rw [hm]
    · obtain rfl := Option.some.inj (hmsg.symm.trans hy)
      obtain ⟨rfl, rfl⟩ := Acc.atomic.inj (hacc.symm.trans hatomic)
      exact Mem.byte_of_stores hcells fun c hc hca => ha (hca ▸ mem_cellsAt_range hc)
  · intro dt g s t h a ha
    obtain hm | hm := execBasinGibCleared_mem h
    · rw [hm]
    · rw [hm, Mem.clear_byte, if_neg ha]
  · intro dt f s t h a ha
    obtain hm | hcells := execBasinFill_mem h
    · rw [hm]
    · refine Mem.byte_of_stores hcells fun c hc hca => ?_
      obtain ⟨x, hx, hfault, hin⟩ := Ctx.mem_fillCells hc
      exact ha x hx hfault (hca ▸ hin)

end Sys2Proof.Machine
end

section
/-! Reservation monitors (R188 to R190): which monitors a loss, a write, a reserved load and a conditional store leave. -/

namespace Sys2Proof.Machine

section
variable {d : Dev} {i : Init} {r dst off len cause : Nat} {m x : Mon}

/-! ### What a count leaves -/

@[simp] theorem Dev.count_ord (s t r i c : Nat) : (d.count s t r i c).ord = d.ord := by
  rw [Dev.eq_of_unrecorded (Dev.count_unrecorded ..)]

@[simp] theorem Dev.count_clk (s t r i c : Nat) : (d.count s t r i c).clk = d.clk := by
  rw [Dev.eq_of_unrecorded (Dev.count_unrecorded ..)]

@[simp] theorem Dev.count_conf (s t r i c : Nat) : (d.count s t r i c).conf = d.conf := by
  rw [Dev.eq_of_unrecorded (Dev.count_unrecorded ..)]

/-! ### Losses -/

@[simp] theorem Dev.loseMon_clk : (d.loseMon m cause).clk = d.clk := Dev.count_clk ..

@[simp] theorem Dev.loseMon_conf : (d.loseMon m cause).conf = d.conf := Dev.count_conf ..

theorem Dev.mem_loseMon_mons : m ∈ (d.loseMon x cause).ord.mons ↔ m ∈ d.ord.mons ∧ m ≠ x := by
  simp [Dev.loseMon, Dev.onSrec]

theorem Dev.mem_foldl_loseMon_mons {l : List Mon} :
    m ∈ (l.foldl (fun d x => d.loseMon x cause) d).ord.mons ↔ m ∈ d.ord.mons ∧ m ∉ l := by
  induction l generalizing d with
  | nil => simp
  | cons x l ih => rw [List.foldl_cons, ih, Dev.mem_loseMon_mons, and_assoc, List.mem_cons, not_or]

/-- The monitors lost are those for which the predicate holds. -/
theorem Dev.mem_loseMons_mons {p : Mon → Bool} : m ∈ (d.loseMons p cause).ord.mons ↔ m ∈ d.ord.mons ∧ p m = false := by
  rw [Dev.loseMons, Dev.mem_foldl_loseMon_mons, List.mem_filter, ← Bool.not_eq_true]
  exact and_congr_right fun hm => not_congr (and_iff_right hm)

/-- A write ends the monitors whose granule it touches: those of other initiators and then the writer's own. -/
theorem Dev.mem_monWrite_mons : m ∈ (d.monWrite i dst off len).ord.mons ↔ m ∈ d.ord.mons ∧ m.touches dst off len = false := by
  rw [Dev.monWrite, Dev.mem_loseMons_mons, Dev.mem_loseMons_mons, and_assoc]
  refine and_congr_right fun _ => ?_
  by_cases hown : m.init = i <;> simp [hown]

/-! ### Reserved loads -/

/-- The monitor that a reserved load sets (R188). -/
def Dev.reservation (d : Dev) (i : Init) (r dst off : Nat) : Mon :=
  { init := i, gran := off / d.granule r * d.granule r, size := d.granule r, reach := r, t6 := d.clk.t6, dst := dst }

/-- A reserved load leaves its monitor, in place of an older one of its granule or beside the others. -/
theorem Dev.reservation_mem_monSet_mons : d.reservation i r dst off ∈ (d.monSet i r dst off).ord.mons := by
  unfold Dev.monSet
  extract_lets g new mine own all out
  split
  next hmine =>
    obtain ⟨x, hx, hxmine⟩ := List.any_eq_true.mp hmine
    exact List.mem_map.mpr ⟨x, hx, if_pos hxmine⟩
  next => exact List.mem_append_right _ (List.mem_singleton.mpr rfl)

/-- A reserved load leaves the time and the configuration. -/
theorem Dev.monSet_frame : (d.monSet i r dst off).clk = d.clk ∧ (d.monSet i r dst off).conf = d.conf := by
  unfold Dev.monSet
  extract_lets g new mine own all out
  split
  · exact ⟨rfl, rfl⟩
  · clear_value out
    cases out with
    | none => exact ⟨rfl, rfl⟩
    | some x => exact ⟨Dev.loseMon_clk, Dev.loseMon_conf⟩

/-- A reserved load leaves the granules. -/
theorem Dev.monSet_granule : (d.monSet i r dst off).granule r = d.granule r := by
  unfold Dev.granule Dev.cfg
  rw [Dev.monSet_frame.2]

/-! ### Conditional stores -/

theorem Dev.monStore_fst_eq_true_iff : (d.monStore i r dst off).1 = true ↔
    ∃ m ∈ d.ord.mons, m.init = i ∧ m.dst = dst ∧ m.gran = off / d.granule r * d.granule r ∧ d.since m.t6 < 600000 := by
  simp only [Dev.monStore, List.any_eq_true, Bool.and_eq_true, decide_eq_true_eq, and_assoc]

/-- A conditional store releases its initiator's monitor of the granule, whatever its outcome. -/
theorem Dev.mem_monStore_mons : m ∈ (d.monStore i r dst off).2.ord.mons ↔
    m ∈ d.ord.mons ∧ ¬ (m.init = i ∧ m.dst = dst ∧ m.gran = off / d.granule r * d.granule r) := by
  have hcount (c : Prop) [Decidable c] (e : Dev) (t l : Nat) : (if c then e else e.count 0x114 t 0x3F l).ord = e.ord := by
    split
    · rfl
    · exact Dev.count_ord ..
  simp only [Dev.monStore, hcount, Dev.onSrec, Dev.onOrd_ord, List.mem_filter, Bool.not_eq_true', ← Bool.not_eq_true, Bool.and_eq_true,
    decide_eq_true_eq, and_assoc]

/-- A conditional store that follows its reserved load at once finds that load's monitor, of age 0. -/
theorem Dev.monStore_monSet : ((d.monSet i r dst off).monStore i r dst off).1 = true := by
  refine Dev.monStore_fst_eq_true_iff.mpr ⟨d.reservation i r dst off, Dev.reservation_mem_monSet_mons, rfl, rfl, ?_, ?_⟩
  · rw [Dev.monSet_granule]
    rfl
  · rw [Dev.since, Dev.monSet_frame.1, Dev.reservation, Nat.sub_self]
    decide

end

/-- Settles O57: what a write, a conditional store and a reserved load leave of the monitors. -/
theorem monitors : Obligations.Monitors :=
  ⟨fun _ _ _ _ _ _ => Dev.mem_monWrite_mons, fun _ _ _ _ _ => Dev.monStore_fst_eq_true_iff,
    fun _ _ _ _ _ _ => Dev.mem_monStore_mons, fun _ _ _ _ _ => Dev.monStore_monSet⟩

end Sys2Proof.Machine
end

section
/-! The rows of Fabric Flushes, monitors, status pages and the internal network (R181 to R183, R190, R192, R328 to R331), and of bridge
messages and their limits (R184, R226 to R248, R291). -/

namespace Sys2Proof.Machine

/-- Settles O14: in each clause the conditions named decide the branches of the row. -/
theorem orderAndNocEvents : Obligations.OrderAndNocEvents := by
  refine ⟨?_, ?_, ?_, ?_, ?_, ?_, ?_, ?_, ?_, ?_, ?_⟩
  · exact fun l y => .of_event (execFabricFlushRead · l) (fun _ _ => ⟨rfl, rfl⟩) fun m p d ⟨hcxl, hup, hhead, hother⟩ => by
      simp only [hcxl, hup, hhead, hother, Bool.not_true, Bool.false_eq_true, or_self, false_and, if_false]
  · exact fun l y => .of_event (execFabricFlushRead · l) (fun _ _ => ⟨rfl, rfl⟩) fun m p d ⟨hcxl, hup, hhead, hown, hfirst⟩ => by
      simp only [hcxl, hup, hhead, hown, hfirst, Bool.not_true, Bool.not_false, Bool.false_eq_true, or_self, and_self, if_true, if_false]
  · exact fun id f => .of_event (execFlushComplete · id) (fun _ _ => ⟨rfl, rfl⟩) fun _ _ d ⟨hflush, hready⟩ => by
      simp only [hflush, hready, if_true]
  · exact fun id => .of_event (execFlushTimeout · id) (fun _ _ => ⟨rfl, rfl⟩) fun _ _ _ _ => rfl
  · exact .of_event execMonitorAgeExpiry (fun _ _ => ⟨rfl, rfl⟩) fun _ _ _ _ => rfl
  · exact fun l w x a => .of_event (execStatusPageRead · l w) (fun _ _ => ⟨rfl, rfl⟩)
      fun m p d ⟨hhead, hpage, hwindow, hheld⟩ => by
      simp only [hhead, hpage, hwindow, hheld, beq_self_eq_true, Bool.and_self, Bool.not_true, Bool.false_eq_true, or_self, if_false]
  · exact fun net dom b => .of_event (execNocPacketLost · net dom b) (fun _ _ => ⟨rfl, rfl⟩) fun _ _ _ _ => rfl
  · exact fun k cause => .of_event (execSluiceFenceRequest · k cause) (fun _ _ => ⟨rfl, rfl⟩) fun _ _ _ _ => rfl
  · exact fun k t cause => .of_event (execSluiceDrainDone · k) (fun _ _ => ⟨rfl, rfl⟩) fun _ _ d hfencing => by
      simp only [hfencing]
  · exact fun k t cause => .of_event (execSluiceForced · k) (fun _ _ => ⟨rfl, rfl⟩) fun _ _ d ⟨hfencing, hlate⟩ => by
      simp only [hfencing, ge_iff_le, hlate, if_true, Dev.drawNat]
  · exact fun k => .of_event (execDomainPowerOn · k) (fun _ _ => ⟨rfl, rfl⟩) fun _ _ _ _ => rfl

section
variable {i : Nat → Instr} {l op : Nat} {msg : Bytes}

/-- A bridged request that a link hears enters the FIFOs of its link (R229, R231). -/
theorem Acts.of_brgRequestRow (hrow : ∀ dt s, exec (i dt) s = brgRequestRow dt l op msg s) :
    Acts i (fun _ _ d => hears op l msg d) fun _ p d => (d.brgTake l msg).2.brgRequest p l (d.brgTake l msg).1 :=
  .of_brgEvent (brgRequestRow · l op msg) (fun dt s => ⟨hrow dt s, rfl⟩) (fun _ _ _ h => h) fun _ _ _ _ => rfl

/-- An answer that a link hears goes to the entry that it names (R233, R239). -/
theorem Acts.of_brgAnswerRow (hrow : ∀ dt s, exec (i dt) s = brgAnswerRow dt l op msg s) :
    Acts i (fun _ _ d => hears op l msg d) fun _ _ d => (d.brgTake l msg).2.brgAnswerTo l (d.brgTake l msg).1 0 :=
  .of_brgEvent (brgAnswerRow · l op msg) (fun dt s => ⟨hrow dt s, rfl⟩) (fun _ _ _ h => h) fun _ _ _ _ => rfl

/-- A malformed bridge message is discarded whole and its credit returned (R233). -/
theorem Acts.of_brgEvent_malformed {g : Mode → Profile → Dev → BRx → Dev} (row : Nat → State → Host.Outcome State Fault Refusal)
    (hrow : ∀ dt s, exec (i dt) s = row dt s ∧ row dt s = brgEvent dt l op msg s g) :
    Acts i (fun _ _ d => d.isIggevo l = true ∧ msg ≠ [] ∧ brgMalformed msg = true) fun _ _ d =>
      ((d.brgTake l msg).2.brgDiscard l true).freeCredit l (d.brgTake l msg).1.cred :=
  .of_event row hrow fun _ _ d ⟨higg, hmsg, hbad⟩ => by
    simp only [higg, hmsg, hbad, Bool.not_true, Bool.true_eq_false, Bool.false_eq_true, false_and, or_self, if_true, if_false]

end

/-- Settles O16: a message that is heard acts as its operation does; the conditions of a limit decide the branches of its row. -/
theorem bridgeEvents : Obligations.BridgeEvents := by
  refine ⟨?_, ?_, ?_, ?_, ?_, ?_, ?_, ?_, ?_, ?_, ?_, ?_, ?_, ?_, ?_, ?_, ?_, ?_, ?_, ?_, ?_, ?_, ?_⟩
  · exact fun l msg => .of_brgRequestRow fun _ _ => rfl
  · exact fun l msg => .of_brgRequestRow fun _ _ => rfl
  · exact fun l msg => .of_brgRequestRow fun _ _ => rfl
  · exact fun l msg aop n => .of_brgEvent (execAtomic · l msg) (fun _ _ => ⟨rfl, rfl⟩) (fun _ _ _ ⟨hheard, _⟩ => hheard)
      fun m p d ⟨_, hacc, haligned⟩ => by
      simp only [hacc, haligned, if_true]
  · exact fun l msg aop n => .of_brgEvent (execAtomic · l msg) (fun _ _ => ⟨rfl, rfl⟩) (fun _ _ _ ⟨hheard, _⟩ => hheard)
      fun m p d ⟨_, hacc, hodd⟩ => by
      simp only [hacc, hodd, if_false]
  · exact fun l msg => .of_brgEvent (execUnlock · l msg) (fun _ _ => ⟨rfl, rfl⟩) (fun _ _ _ ⟨hheard, _⟩ => hheard)
      fun m p d ⟨_, hfree⟩ => by
      simp only [hfree, Option.filter_none, Option.isSome_none, Bool.false_eq_true, if_false]
  · exact fun l msg k => .of_brgEvent (execUnlock · l msg) (fun _ _ => ⟨rfl, rfl⟩) (fun _ _ _ ⟨hheard, _⟩ => hheard)
      fun m p d ⟨_, hheld, howner, hcxl⟩ => by
      simp only [hheld, howner, hcxl, Option.filter_some, decide_true, Option.isSome_some, Bool.false_eq_true, if_true, if_false]
  · exact fun l msg => .of_brgEvent (execFlush · l msg) (fun _ _ => ⟨rfl, rfl⟩) (fun _ _ _ h => h) fun _ _ _ _ => rfl
  · exact fun l msg => .of_brgEvent (execSnoop · l msg) (fun _ _ => ⟨rfl, rfl⟩) (fun _ _ _ h => h) fun _ _ _ _ => rfl
  · exact fun l msg => .of_brgAnswerRow fun _ _ => rfl
  · exact fun l msg => .of_brgAnswerRow fun _ _ => rfl
  · exact fun l msg => .of_brgAnswerRow fun _ _ => rfl
  · exact fun l msg => .of_brgAnswerRow fun _ _ => rfl
  · exact fun l msg => .of_brgAnswerRow fun _ _ => rfl
  · exact fun l msg => .of_brgAnswerRow fun _ _ => rfl
  · exact fun l msg => .of_brgEvent (execSnoopRsp · l msg) (fun _ _ => ⟨rfl, rfl⟩) (fun _ _ _ h => h) fun _ _ _ _ => rfl
  · exact fun l msg => .of_brgAnswerRow fun _ _ => rfl
  · exact fun l msg => .of_brgEvent_malformed (brgRequestRow · l 0x01 msg) fun _ _ => ⟨rfl, rfl⟩
  · exact fun i t => .of_event (execBridgeTimeout · i) (fun _ _ => ⟨rfl, rfl⟩)
      fun _ _ d ⟨htrk, higg, hgroup, hdone, horphan, hlate⟩ => by
      simp only [htrk, higg, hgroup, hdone, horphan, Nat.not_lt.mpr hlate, Option.isSome_none, Bool.not_true, Bool.false_eq_true, or_self,
        if_false]
  · exact fun i t t0 => .of_event (execDiscardExpired · i) (fun _ _ => ⟨rfl, rfl⟩) fun _ _ d ⟨htrk, horphan, higg, hlate⟩ => by
      simp only [htrk, horphan, higg, ge_iff_le, hlate, and_self, if_true]
  · exact fun r k => .of_event (execLockHoldLimit · r) (fun _ _ => ⟨rfl, rfl⟩) fun _ _ d ⟨hlock, hheld, hlate⟩ => by
      simp only [hlock, hheld, ge_iff_le, hlate, and_self, if_true]
  · exact fun r k => .of_event (execFarLockLimit · r) (fun _ _ => ⟨rfl, rfl⟩) fun _ _ d ⟨hlock, hlate⟩ => by
      simp only [hlock, ge_iff_le, hlate, if_true]
  · exact fun id => .of_event (execFarFlushTimeout · id) (fun _ _ => ⟨rfl, rfl⟩) fun _ _ _ _ => rfl

end Sys2Proof.Machine
end

section
/-! The rows of lanes and of the training of links (R214, R216, R256, R260 to R273). -/

namespace Sys2Proof.Machine

/-- Settles O17: in each clause the conditions named decide the branches of the row. -/
theorem laneEvents : Obligations.LaneEvents := by
  refine ⟨?_, ?_, ?_, ?_, ?_, ?_, ?_, ?_, ?_, ?_, ?_, ?_, ?_, ?_, ?_, ?_, ?_, ?_, ?_, ?_, ?_, ?_, ?_, ?_, ?_, ?_, ?_⟩
  · exact fun l m => .of_event (execLaneChangeAct · l true) (fun _ _ => ⟨rfl, rfl⟩) fun _ _ d ⟨higg, hst, hcd, hmirror⟩ => by
      simp only [higg, hst, hcd, hmirror, Bool.not_true, Bool.false_eq_true, ne_eq, not_true_eq_false, or_self, if_true, if_false]
  · exact fun l m => .of_event (execLaneChangeAct · l false) (fun _ _ => ⟨rfl, rfl⟩) fun _ _ d ⟨higg, hst, hcd, hsub⟩ => by
      simp only [higg, hst, hcd, hsub, Bool.not_true, Bool.false_eq_true, ne_eq, not_true_eq_false, or_self, gt_iff_lt, Nat.lt_irrefl,
        Option.isSome_none, false_and, and_false, if_false]
  · exact fun l los => .of_event (execDetectComplete · l los true) (fun _ _ => ⟨rfl, rfl⟩) fun _ _ d ⟨higg, hst⟩ => by
      simp only [higg, hst, Bool.not_true, Bool.false_eq_true, Bool.true_eq_false, ne_eq, not_true_eq_false, or_self, if_false]
  · exact fun l => .of_event (execDetectTimeout · l) (fun _ _ => ⟨rfl, rfl⟩) fun _ _ d h => if_pos h
  · exact fun l pass inv => .of_event (execPatternComplete · l pass inv) (fun _ _ => ⟨rfl, rfl⟩) fun _ _ d ⟨higg, hst, hpass⟩ => by
      simp only [higg, hst, hpass, Bool.not_true, Bool.false_eq_true, reduceCtorEq, or_false, decide_true, or_self, if_false]
  · exact fun l pass inv => .of_event (execPatternComplete · l pass inv) (fun _ _ => ⟨rfl, rfl⟩) fun _ _ d ⟨higg, hst, hpass⟩ => by
      simp only [higg, hst, hpass, Bool.not_true, Bool.false_eq_true, reduceCtorEq, or_false, decide_true, or_self, if_true, if_false]
  · exact fun l n am => .of_event (execAmReceived · l n am) (fun _ _ => ⟨rfl, rfl⟩) fun _ _ d ⟨higg, hn, h8, hst, hvalid⟩ => by
      simp [higg, Nat.not_le.mpr hn, h8, hst, hvalid]
  · exact fun l am => .of_event (execAmReceived · l 9 am) (fun _ _ => ⟨rfl, rfl⟩) fun _ _ d ⟨higg, hst, hvalid⟩ => by
      simp [higg, hst, hvalid]
  · exact fun l n am => .of_event (execAmReceived · l n am) (fun _ _ => ⟨rfl, rfl⟩) fun _ _ d ⟨higg, hn, h8, hst, hvalid⟩ => by
      simp only [higg, Nat.not_le.mpr hn, h8, hst, hvalid, decide_true, Bool.not_true, Bool.false_eq_true, or_self, if_true, if_false]
  · exact fun l a => .of_event (execLockComplete · l) (fun _ _ => ⟨rfl, rfl⟩)
      fun _ _ d ⟨higg, hst, hlocked, hpartner, htwice, hmask, hid⟩ => by
      simp only [hpartner]
      exact if_neg (by simp [higg, hst, hlocked, htwice, hmask, hid])
  · exact fun t n => .of_event (execLossOfSignal · t n false) (fun _ _ => ⟨rfl, rfl⟩) fun _ _ d ⟨ht, hn, hlos⟩ => by
      simp [Nat.not_le.mpr ht, Nat.not_le.mpr hn, hlos]
  · exact fun t n => .of_event (execLossOfSignal · t n true) (fun _ _ => ⟨rfl, rfl⟩) fun _ p d ⟨ht, hn, hlos⟩ =>
      if_neg (by simp [Nat.not_le.mpr ht, Nat.not_le.mpr hn, hlos])
  · exact fun l => .of_event (execTowpathLockLost · l) (fun _ _ => ⟨rfl, rfl⟩) fun _ p d ⟨higg, hst⟩ =>
      if_neg (by simp [higg, hst])
  · exact fun t n row => .of_event (execLaneFailing · t n row) (fun _ _ => ⟨rfl, rfl⟩) fun _ _ _ _ => rfl
  · exact fun l => .of_event (execSubReady · l) (fun _ _ => ⟨rfl, rfl⟩) fun _ _ d h => if_pos h
  · exact fun l t => .of_event (execSubstitutionTimeout · l) (fun _ _ => ⟨rfl, rfl⟩) fun _ _ d ⟨hsub, hready, hlate⟩ => by
      simp only [hsub, hready, Nat.not_lt.mpr hlate, Bool.false_eq_true, or_self, if_false]
  · exact fun l w => .of_event (execL0pRequest · l w) (fun _ _ => ⟨rfl, rfl⟩) fun _ _ d ⟨hok, hw, hfull⟩ =>
      if_pos ⟨hok, List.contains_iff_mem.mpr hw, hfull⟩
  · exact fun l => .of_event (execL0pNarrow · l) (fun _ _ => ⟨rfl, rfl⟩) fun _ p d h => if_pos h
  · exact fun l => .of_event (execL0pWiden · l) (fun _ _ => ⟨rfl, rfl⟩) fun _ _ d h => if_pos h
  · exact fun t n signs => .of_event (execAdaptationStep · t n signs) (fun _ _ => ⟨rfl, rfl⟩) fun _ _ d hlive => if_pos hlive
  · exact fun t n => .of_event (execOffsetRecalStep · t n) (fun _ _ => ⟨rfl, rfl⟩) fun _ _ d ⟨hlive, haux, hmore⟩ => by
      simp only [hlive, haux, Nat.not_le.mpr hmore, Bool.not_true, Bool.false_eq_true, or_self, if_false]
  · exact fun t n => .of_event (execOffsetRecalStep · t n) (fun _ _ => ⟨rfl, rfl⟩) fun _ _ d ⟨hlive, haux, hlast⟩ => by
      simp only [hlive, haux, hlast, Bool.not_true, Bool.false_eq_true, or_self, if_true, if_false]
  · exact fun t n h w => .of_event (execEyeMonitorMeasure · t n h w) (fun _ _ => ⟨rfl, rfl⟩) fun _ p d ⟨hlive, haux, hwide⟩ => by
      simp only [hlive, haux, hwide, Bool.not_true, Bool.false_eq_true, decide_false, or_self, if_false]
  · exact fun l n timing up steps => .of_event (execLaneMarginRequest · l n timing up steps) (fun _ _ => ⟨rfl, rfl⟩)
      fun _ _ d ⟨hcxl, hup, hmin, hmax, hlive, haux, hsteps⟩ =>
      if_neg (by simp only [hcxl, hup, Nat.not_lt.mpr hmin, gt_iff_lt, Nat.not_lt.mpr hmax, hlive, haux, Nat.not_lt.mpr hsteps,
        Bool.not_true, Bool.false_eq_true, or_self, not_false_eq_true])
  · exact fun t n cs a b c k => .of_event (execEyeScanDone · t n cs) (fun _ _ => ⟨rfl, rfl⟩) fun _ _ d hrun => by
      simp only [hrun]
  · exact fun t n => .of_event (execLaneLockLost · t n) (fun _ _ => ⟨rfl, rfl⟩) fun _ p d ⟨ht, hn, hlive, htile⟩ => by
      simp only [ge_iff_le, Nat.not_le.mpr ht, Nat.not_le.mpr hn, hlive, htile, Bool.true_eq_false, or_self, if_true, if_false]
  · exact fun l => .of_event (execLane9JudgementTimeout · l) (fun _ _ => ⟨rfl, rfl⟩) fun _ _ d ⟨higg, hst, hjudged, hlate⟩ =>
      if_pos ⟨higg, hst, by rw [hjudged, Bool.not_false], hlate⟩

end Sys2Proof.Machine
end

section
/-! The rows of boot, of the load of the configuration, of flash and of the background tasks (R223, R328, R403, R427, R429, R457 to R461,
R493 to R501). -/

namespace Sys2Proof.Machine

/-- The boot gets as far as the outcome of its ROM test: no rail is bad, a reference clock runs and no test failed before (R447, R455). -/
theorem not_bootHeld {t : State} (hm : t.mode = .coldBoot) (hrails : t.dev.pwr.railsBad = []) (hclk : t.dev.ctl.bothLost = false)
    (hrom : t.dev.ctl.romBad = false) :
    ¬ (t.mode ≠ .coldBoot ∨ (! t.dev.pwr.railsBad.isEmpty) = true ∨ t.dev.ctl.bothLost = true ∨ t.dev.ctl.romBad = true) := by
  simp only [hm, hrails, hclk, hrom, ne_eq, not_true_eq_false, List.isEmpty_nil, Bool.not_true, Bool.false_eq_true, or_self,
    not_false_eq_true]

/-- A load that MODE_SET asked for runs in Safe with the best valid copy, or with the factory defaults (Table MODE-6, step 3; R493). -/
theorem exec_imageLoad_of_asked {dt : Nat} {s : State} {q : ModePend} (hm : s.mode = .safe) (hheld : (s.elapse dt).dev.heldInSafe = false)
    (hq : (s.elapse dt).dev.ctl.pend = some q) (hload : q.target = .load) :
    exec (.imageLoad dt) s = .next (((s.elapse dt).dev.best 2 (s.elapse dt).dev.cfgOk).elim
      ((s.elapse dt).enterConfigure (s.elapse dt).dev.defaults) ((s.elapse dt).loadEnds (s.elapse dt).dev)) := by
  have hexec : exec (.imageLoad dt) s = execImageLoad dt s := rfl
  simp only [hexec, execImageLoad, State.elapse_mode, hm, hheld, hq, hload, ne_eq, not_true_eq_false, beq_self_eq_true, Bool.true_or,
    Bool.not_true, Bool.false_eq_true, or_self, if_false]
  cases (s.elapse dt).dev.best 2 (s.elapse dt).dev.cfgOk <;> rfl

/-- The timebase stays in its 40 bits of nanoseconds, counted in forty-eighths (R223). -/
theorem toNat_emod_timebase_lt (x : Int) : (x % ((2 ^ 40 * 48 : Nat) : Int)).toNat < 2 ^ 40 * 48 := by
  have hpos : (0 : Int) < ((2 ^ 40 * 48 : Nat) : Int) := Int.natCast_pos.mpr (by decide)
  exact (Int.toNat_lt (Int.emod_nonneg x (Int.ne_of_gt hpos))).mpr (Int.emod_lt_of_pos x hpos)

/-- Settles O26: in each clause the conditions named decide the branches of the row. -/
theorem bootAndFlashEvents : Obligations.BootAndFlashEvents := by
  refine ⟨?_, ?_, ?_, ?_, ?_, ?_, ?_, ?_, ?_, ?_, ?_, ?_, ?_, ?_, ?_, ?_, ?_, ?_, ?_, ?_, ?_⟩
  · intro dt b s hm hrails hclk hrom hok
    have hrun : ¬ (! b.romOk) = true := by rw [hok]; decide
    exact ⟨_, congrArg Host.Outcome.next ((if_neg (not_bootHeld (t := s.elapse dt) hm hrails hclk hrom)).trans (if_neg hrun))⟩
  · intro dt b s hm hrails hclk hrom hbad
    have hstop : (! b.romOk) = true := by rw [hbad]; rfl
    exact congrArg Host.Outcome.next ((if_neg (not_bootHeld (t := s.elapse dt) hm hrails hclk hrom)).trans (if_pos hstop))
  · intro dt b s hm hrails
    have hbad : (! (s.elapse dt).dev.pwr.railsBad.isEmpty) = true := by rw [List.isEmpty_eq_false_iff.mpr hrails, Bool.not_false]
    exact congrArg Host.Outcome.next (if_pos (.inr (.inl hbad)))
  · intro dt s q k hm hheld hq hload hbest
    rw [exec_imageLoad_of_asked hm hheld hq hload, hbest, Option.elim_some]
  · intro dt s q hm hheld hq hload hbest
    rw [exec_imageLoad_of_asked hm hheld hq hload, hbest, Option.elim_none]
  · intro dt s hm hheld
    exact congrArg Host.Outcome.next (if_pos (.inr (.inl hheld)))
  · exact fun l => .of_event execTimebaseStep (fun _ _ => ⟨rfl, rfl⟩) fun m _ d ⟨hm, hup, hstepped, htheta, hidle⟩ => by
      have harmed : ((devSet :: List.range 32).any fun i => (d.set i).accepted) = false :=
        List.any_eq_false.mpr fun i hi => Bool.not_eq_true _ ▸ hidle i hi
      simp only [hup, hm, hstepped, harmed, List.isEmpty_eq_false_iff.mpr htheta, decide_true, Bool.not_true, Bool.false_eq_true, or_self,
        if_false]
      exact ⟨rfl, rfl, toNat_emod_timebase_lt _, rfl, rfl, rfl⟩
  · exact .of_event execStartProfileCommit (fun _ _ => ⟨rfl, rfl⟩) fun m _ d ⟨hm, hprof, htrans, htiles⟩ => by
      have hnone : ((List.range 64).any fun t => d.tileCode t == 3) = false :=
        List.any_eq_false.mpr fun t ht => mt beq_iff_eq.mp (htiles t (List.mem_range.mp ht))
      exact if_neg (by simp [hm, hprof, htrans, hnone])
  · exact .of_event execStartProfileCommit (fun _ _ => ⟨rfl, rfl⟩) fun m _ d ⟨hm, hprof, htrans, hstepped⟩ =>
      if_neg (by simp [hm, hprof, htrans, hstepped])
  · exact .of_event execConfigureJoinWindowEnd (fun _ _ => ⟨rfl, rfl⟩) fun m _ d h => if_pos h
  · intro dt s hm hfatal
    have hfalls : ¬ ((! (s.elapse dt).dev.flt.fatal) = true ∨ (s.elapse dt).mode = .shelf) := by
      rw [hfatal, State.elapse_mode, Bool.not_true]
      exact not_or.mpr ⟨Bool.false_ne_true, hm⟩
    exact ⟨_, congrArg Host.Outcome.next (if_neg hfalls), rfl, rfl, rfl, rfl⟩
  · intro dt s hfatal
    exact congrArg Host.Outcome.next (if_pos (.inl (by rw [hfatal]; rfl)))
  · exact .of_event (execWearLevelling · none) (fun _ _ => ⟨rfl, rfl⟩) fun m _ d hm => by
      simp only [hm, Bool.not_true, Bool.false_eq_true, if_false]
  · exact fun k => .of_event (execWearLevelling · (some k)) (fun _ _ => ⟨rfl, rfl⟩) fun m _ d ⟨hm, hk, hgood, hfirst⟩ => by
      simp only [hm, ge_iff_le, Nat.not_le.mpr hk, hgood, Bool.not_true, Bool.false_eq_true, or_self, if_false]
      exact if_pos hfirst
  · exact fun k => .of_event (execWearLevelling · (some k)) (fun _ _ => ⟨rfl, rfl⟩) fun m _ d ⟨hm, hk, hgood, hsecond⟩ => by
      simp only [hm, ge_iff_le, Nat.not_le.mpr hk, hgood, Bool.not_true, Bool.false_eq_true, or_self, if_false]
      exact if_neg (Nat.not_lt.mpr hsecond)
  · exact .of_event execLogFlush (fun _ _ => ⟨rfl, rfl⟩) fun m _ d hm => if_pos hm
  · exact fun k j => .of_event (execFlashOpComplete · k .failed) (fun _ _ => ⟨rfl, rfl⟩) fun m _ d ⟨hm, hk, hcmd, hdev⟩ => by
      simp only [hm, ge_iff_le, Nat.not_le.mpr hk, hcmd, hdev, Option.elim_some, ne_eq, not_true_eq_false, Bool.not_true,
        Bool.false_eq_true, or_self, if_true, if_false]
  · exact fun k r j => .of_event (execFlashOpComplete · k r) (fun _ _ => ⟨rfl, rfl⟩) fun m _ d ⟨hm, hk, hr, hcmd, hdev, hop⟩ => by
      simp only [hm, ge_iff_le, Nat.not_le.mpr hk, hr, hcmd, hdev, hop, ne_eq, not_true_eq_false, Bool.not_true, Bool.false_eq_true,
        or_self, if_false]
  · exact fun n l c x => .of_event (execNocRequestTimeout · n (some (l, c))) (fun _ _ => ⟨rfl, rfl⟩) fun m _ d hhead => by
      simp only [hhead]
  · exact fun n => .of_event (execNocRequestTimeout · n none) (fun _ _ => ⟨rfl, rfl⟩) fun _ _ _ _ => rfl
  · exact fun x => .of_event (execTableScrub · x) (fun _ _ => ⟨rfl, rfl⟩) fun m _ d hm => if_pos hm

end Sys2Proof.Machine
end

section
/-! The rows of hot-plug (R284, R295 to R299, R460, R484): debounced inputs, power controls, the steps of the procedures and their limits,
and the service operations that complete. -/

namespace Sys2Proof.Machine

/-- A row of a debounced input acts as its effect does once its new value is accepted (R484). -/
theorem Acts.of_inputRow {i : Nat → Instr} {ok : Mode → Profile → Dev → Prop} {g act : Mode → Profile → Dev → Dev} {k n : Nat} {v : Bool}
    (row : Nat → State → Host.Outcome State Fault Refusal) (hrow : ∀ dt s, exec (i dt) s = row dt s ∧ row dt s = inputRow dt s k n v g)
    (hnew : ∀ m p d, ok m p d → m.adminServed = true ∧ k < 128 ∧ d.newInput k n = some v)
    (hg : ∀ m p d, ok m p d → g m p (d.acceptInput k) = act m p d) : Acts i ok act :=
  .of_event row hrow fun m p d h => (if_pos (hnew m p d h)).trans (hg m p d h)

theorem presenceInput_lt {t : Nat} (ht : t < 64) : 2 * t < 128 := by omega

theorem buttonInput_lt {t : Nat} (ht : t < 64) : 2 * t + 1 < 128 := by omega

section
variable {d : Dev} {t : Nat}

/-- A debounced input leaves the bindings, and so the vPPBs that show a slot (R294). -/
theorem Dev.acceptInput_slotVppbs (k : Nat) : (d.acceptInput k).slotVppbs t = d.slotVppbs t := rfl

/-- No removal of a slot has PERST_N low: its release is not barred (R295). -/
theorem not_perstHeld (hremovals : ∀ h ∈ d.cxl.hot, h.tile ≠ t ∨ h.add = true ∨ h.step ≠ 3) :
    (d.cxl.hot.any fun h => h.tile == t && ! h.add && h.step == 3) = false := by
  refine List.any_eq_false.mpr fun x hx hheld => ?_
  simp only [Bool.and_eq_true, beq_iff_eq, Bool.not_eq_true'] at hheld
  obtain ⟨⟨htile, hremoval⟩, hstep⟩ := hheld
  obtain hother | hadd | hearlier := hremovals x hx
  · exact hother htile
  · exact Bool.false_ne_true (hremoval.symm.trans hadd)
  · exact hearlier hstep

/-- A scan shows no loss of presence of a slot that is inserted or did not just turn absent (R484). -/
theorem not_presenceLost (hnew : d.newInput (2 * t) 4 ≠ some true) (hin : d.inserted t = true ∨ d.side.run.getD (2 * t) 0 ≠ 4) :
    (d.newInput (2 * t) 4 == some true || (! d.inserted t && d.side.run.getD (2 * t) 0 == 4)) = false := by
  rw [beq_eq_false_iff_ne.mpr hnew, Bool.false_or, Bool.and_eq_false_iff]
  exact hin.imp (fun h => by rw [h, Bool.not_true]) beq_eq_false_iff_ne.mpr

end

section
variable {dt : Nat} {s : State} {v : Svc}

/-- A returned plane or bank has its test behind it, well or not, and its operation finishes (R122, R88). -/
theorem exec_serviceOpComplete_planeOrBank {ok : Bool} (hsvc : (s.elapse dt).dev.ctl.svc = some v) (hbegun : v.begun = true)
    (hruns : v.endAt = none) (hop : v.op = 2 ∨ v.op = 4) (hstep : v.step = 1) :
    exec (.serviceOpComplete dt ok) s = .next ((s.elapse dt).onDev fun d =>
      ((d.onCtl fun c => { c with svc := some { v with step := if ok then 3 else v.step } }).svcFinish s.mode ok).hotNext s.mode) := by
  refine exec_of_memEvent_dev (show _ = execServiceOpComplete dt ok s from rfl) ?_
  have hgoes : (! v.begun || v.endAt.isSome || ! (v.step == 1)) = false := by rw [hbegun, hruns, hstep]; rfl
  obtain hplane | hbank := hop
  · simp only [hsvc, hgoes, hplane, Bool.false_eq_true, if_false]
  · simp only [hsvc, hgoes, hbank, Bool.false_eq_true, if_false]

/-- Stack 0 returns in service, the Basin memory of its half zeroed (R148). -/
theorem exec_serviceOpComplete_stack0 (hsvc : (s.elapse dt).dev.ctl.svc = some v) (hbegun : v.begun = true) (hruns : v.endAt = none)
    (hop : v.op = 3) (hstep : v.step = 1) (hinst : v.inst = 0) :
    exec (.serviceOpComplete dt true) s = .next { s.elapse dt with
      dev := ((((s.elapse dt).dev.onCtl fun c => { c with svc := some { v with step := 3 } }).onBas fun b => { b with
        stack := b.stack.set 0 .inService }).svcFinish s.mode true).hotNext s.mode
      mem := s.mem.clear 0 ((s.elapse dt).dev.basinK.1 * gib) } := by
  refine exec_of_memEvent (show _ = execServiceOpComplete dt true s from rfl) ?_
  have hgoes : (! v.begun || v.endAt.isSome || ! (v.step == 1)) = false := by rw [hbegun, hruns, hstep]; rfl
  simp only [hsvc, hgoes, hop, hinst, Bool.false_eq_true, if_true, if_false]
  rfl

end

/-- Settles O28: in each clause the conditions named decide the branches of the row. -/
theorem hotplugEvents : Obligations.HotplugEvents := by
  refine ⟨?_, ?_, ?_, ?_, ?_, ?_, ?_, ?_, ?_, ?_, ?_, ?_, ?_, ?_, ?_, ?_⟩
  · exact fun t => .of_inputRow (execPresenceInserted · t) (fun _ _ => ⟨rfl, rfl⟩)
      (fun _ _ _ ⟨hm, ht, hnew⟩ => ⟨hm, presenceInput_lt ht, hnew⟩) fun _ _ d _ => by rw [d.acceptInput_slotVppbs]
  · exact fun t => .of_inputRow (execPresenceLost · t) (fun _ _ => ⟨rfl, rfl⟩)
      (fun _ _ _ ⟨hm, ht, hnew⟩ => ⟨by rw [hm]; rfl, presenceInput_lt ht, hnew⟩) fun _ _ _ ⟨hm, _⟩ => if_pos hm
  · exact fun t => .of_inputRow (execPresenceLost · t) (fun _ _ => ⟨rfl, rfl⟩)
      (fun _ _ _ ⟨hm, _, ht, hnew, _⟩ => ⟨hm, presenceInput_lt ht, hnew⟩) fun m p d ⟨_, hsafe, _, _, hin⟩ => by
      rw [if_neg hsafe]
      cases (d.acceptInput (2 * t)).cxl.hot.find? fun h => h.tile == t && h.add with
      | some h => exact if_pos hin
      | none => exact if_pos (.inl hin)
  · exact fun t => .of_inputRow (execPresenceLost · t) (fun _ _ => ⟨rfl, rfl⟩)
      (fun _ _ _ ⟨hm, _, ht, hnew, _⟩ => ⟨hm, presenceInput_lt ht, hnew⟩) fun m p d ⟨_, hsafe, _, _, hout, hhot, hoff⟩ => by
      simp only [if_neg hsafe, hhot, hout, hoff, d.acceptInput_slotVppbs, List.find?_nil, Bool.false_eq_true, ne_eq, not_true_eq_false,
        or_self, if_false]
  · exact fun t => .of_inputRow (execAttentionButtonPressed · t) (fun _ _ => ⟨rfl, rfl⟩)
      (fun _ _ _ ⟨hm, _, ht, hnew, _⟩ => ⟨hm, buttonInput_lt ht, hnew⟩) fun m _ d ⟨_, hsafe, _, _, hkept, hin, hfirst⟩ =>
      if_neg (by simp only [not_presenceLost hkept hin, hsafe, hfirst, decide_false, Bool.or_self, Bool.false_eq_true, not_false_eq_true])
  · exact fun t => .of_inputRow (execAttentionButtonPressed · t) (fun _ _ => ⟨rfl, rfl⟩)
      (fun _ _ _ ⟨hm, ht, hnew, _⟩ => ⟨hm, buttonInput_lt ht, hnew⟩) fun m _ d ⟨_, _, _, hbars⟩ => if_pos (by
        rcases hbars with hsafe | hruns
        · rw [decide_eq_true hsafe, Bool.true_or, Bool.true_or]
        · rw [hruns, Bool.or_true])
  · exact fun t => .of_inputRow (execAttentionButtonReleased · t) (fun _ _ => ⟨rfl, rfl⟩)
      (fun _ _ _ ⟨hm, ht, hnew⟩ => ⟨hm, buttonInput_lt ht, hnew⟩) fun _ _ _ _ => rfl
  · exact fun t => .of_event (execPerstRelease · t) (fun _ _ => ⟨rfl, rfl⟩) fun _ _ d ⟨hpg, hlate, hlow, hremovals⟩ =>
      if_pos ⟨hpg, hlate, by rw [hlow, Bool.not_false], by rw [not_perstHeld hremovals, Bool.not_false]⟩
  · exact fun v k on => .of_event (execHostPowerControlWrite · v k on) (fun _ _ => ⟨rfl, rfl⟩) fun _ _ _ h => if_pos h
  · exact fun t h hs => .of_event (execHotplugAddFailed · t) (fun _ _ => ⟨rfl, rfl⟩) fun m _ d ⟨hhot, htile, hadd, hout, hcause⟩ => by
      simp only [hhot]
      exact if_pos ⟨htile, hadd, by simpa only [Bool.not_eq_true'] using hcause, by rw [hout, Bool.not_false]⟩
  · exact fun l => .of_event (execCxlLinkDown · l) (fun _ _ => ⟨rfl, rfl⟩) fun _ p d ⟨hcxl, hup, hpresent⟩ => by
      simp only [hcxl, hup, hpresent, Bool.not_true, Bool.false_eq_true, or_self, false_and, if_false]
  · exact fun t h hs => .of_event (execSlotPowerOff · t) (fun _ _ => ⟨rfl, rfl⟩)
      fun _ _ d ⟨hhot, htile, hremoval, hstep, hmanaged, hlate⟩ => by
      have hdue : h.tile = t ∧ (! h.add) = true ∧ h.step = 3 ∧ d.since h.t6 ≥ 100 * us6 :=
        ⟨htile, by rw [hremoval, Bool.not_false], hstep, hlate⟩
      simp only [hhot, if_pos hdue, hmanaged, Bool.false_eq_true, if_false]
  · exact fun t => .of_event (execRemoveTimeout · t) (fun _ _ => ⟨rfl, rfl⟩) fun _ _ d ⟨hhot, hunbound⟩ => by
      simp only [hhot, hunbound, List.filter_nil, List.foldl_nil]
  · exact fun dt ok s v hsvc hbegun hruns hop hstep => exec_serviceOpComplete_planeOrBank hsvc hbegun hruns hop hstep
  · exact fun dt s v hsvc hbegun hruns hop hstep hinst =>
      ⟨_, exec_serviceOpComplete_stack0 hsvc hbegun hruns hop hstep hinst, rfl, rfl, rfl⟩
  · intro dt ok s hnone
    refine exec_of_memEvent_dev (act := id) (show _ = execServiceOpComplete dt ok s from rfl) ?_
    simp only [hnone, id]

end Sys2Proof.Machine
end

section
/-! The state after a cold reset (R4, R5, R23, R306, R308, R456, Table PWR-4, R459): what the device reads where its configuration lists no
item, and a Basin memory with nothing listed (assumption 4). -/

namespace Sys2Proof.Machine

section
variable {d : Dev} {l : Nat}

/-- A configuration that lists nothing leaves every item at its default. -/
theorem Dev.cfg_of_active_nil (hactive : d.conf.active = []) (k : CfgKey) : d.cfg k = none := by rw [Dev.cfg, hactive, Tbl.get?]

/-- The factory image sets one Reach (R306). -/
theorem Dev.nReach_of_notSet (hcount : d.cfg { op := 0x4040 } = none) : d.nReach = 1 := by rw [Dev.nReach, hcount]; rfl

/-- A link of a tile whose configuration is not the Iggevo one is no Iggevo link (R228). -/
theorem Dev.not_isIggevo_of_tileCode (htile : d.tileCode (l / 4) ≠ 3) : d.isIggevo l = false := by
  rw [Dev.isIggevo, beq_eq_false_iff_ne.mpr htile, Bool.and_false]

/-- A link that is no Iggevo link belongs to Reach 0, with every LD of it, until an assignment names it (R308). -/
theorem Dev.owner_of_notAssigned (hlink : d.isIggevo l = false) (hassigned : ∀ ld, d.cfg { op := 0x4042, a := l, b := ld } = none) (ld : Nat) :
    d.owner l ld = some 0 := by
  simp only [Dev.owner, Dev.ownerIn, Dev.view, Bool.false_eq_true, if_false, hassigned, Option.map_none, Option.getD_none, hlink]
  rfl

end

section
variable {m : Mem}

/-- A memory that lists nothing is in canonical form. -/
theorem Mem.wf_of_cells_nil (hcells : m.cells = []) : m.wf := by
  rw [Mem.wf, hcells]; exact ⟨.nil, List.forall_mem_nil _⟩

/-- A memory that lists nothing reads 0 everywhere. -/
theorem Mem.byte_of_cells_nil (hcells : m.cells = []) (a : Nat) : m.byte a = 0 := by rw [Mem.byte, hcells, memGet]

/-- A memory without a mark has no poisoned line. -/
theorem Mem.not_poisoned_of_poison_nil (hpoison : m.poison = []) (off n : Nat) : m.poisoned off n = false := by
  rw [Mem.poisoned, hpoison, List.any_nil]

end

/-- No configuration item is listed after a cold reset. -/
theorem State.reset_cfg (k : CfgKey) : State.reset.dev.cfg k = none := Dev.cfg_of_active_nil rfl k

/-- No tile is an Iggevo tile after a cold reset. -/
theorem State.reset_not_isIggevo (l : Nat) : State.reset.dev.isIggevo l = false :=
  Dev.not_isIggevo_of_tileCode (show 0 ≠ 3 by decide)

/-- Settles O31: the registers read their defaults, the configuration lists no Reach count and no assignment, and the Basin memory lists
neither a byte nor a mark. -/
theorem resetState : Obligations.ResetState := by
  refine ⟨rfl, rfl, rfl, ?timebase, ?devMode, ?ident, ?reaches, ?owner, ?profile, ?canonical, ?bytes, ?marks⟩
  case timebase => rfl
  case devMode => rfl
  case ident => rfl
  case reaches => exact Dev.nReach_of_notSet (State.reset_cfg _)
  case owner => exact fun l ld => Dev.owner_of_notAssigned (State.reset_not_isIggevo l) (fun _ => State.reset_cfg _) ld
  case profile => rfl
  case canonical => exact Mem.wf_of_cells_nil rfl
  case bytes => exact Mem.byte_of_cells_nil rfl
  case marks => exact fun a => Mem.not_poisoned_of_poison_nil rfl a 1

end Sys2Proof.Machine
end

section
/-! The Bilod commands (R341 to R358): the order of their checks, the callers without a session, the rows that stage, and the step that
takes a row from the queue. -/

namespace Sys2Proof.Machine

/-! ### The order of the checks -/

section
variable {k : Cmd} {c : Ctx} {x : Fail}

@[simp] theorem firstFail_nil : firstFail [] c = none := rfl

@[simp] theorem firstFail_cons (f : Check) (l : List Check) : firstFail (f :: l) c = (f c).or (firstFail l c) := by
  rw [firstFail, List.findSome?_cons]
  cases f c <;> rfl

@[simp] theorem firstFail_append (l l' : List Check) : firstFail (l ++ l') c = (firstFail l c).or (firstFail l' c) :=
  List.findSome?_append

theorem require_of_true {s : Status} {ok : Ctx → Bool} (h : ok c = true) : require s ok c = none := if_pos h

theorem require_of_false {s : Status} {ok : Ctx → Bool} (h : ok c = false) : require s ok c = some (plain s) :=
  if_neg (Bool.eq_false_iff.mp h)

/-- A header that fails its check decides (R351 step 1). -/
theorem Cmd.verdict_of_header (h : headerCheck k.len c = some x) : k.verdict c = some x := by
  simp [Cmd.verdict, h]

/-- The source and the role decide after the header (R351 step 3). -/
theorem Cmd.verdict_of_source (hheader : headerCheck k.len c = none) (hsrc : k.src.ok k.op c = false) :
    k.verdict c = some (plain .accessDenied) := by
  simp [Cmd.verdict, hheader, require_of_false hsrc]

/-- Past the source and the role the mode decides (R351 step 4). -/
theorem Cmd.verdict_of_mode (hheader : headerCheck k.len c = none) (hsrc : k.src.ok k.op c = true) (hmode : k.mode c.m = false) :
    k.verdict c = some (plain .wrongMode) := by
  simp [Cmd.verdict, hheader, require_of_true hsrc, require_of_false (ok := fun c => k.mode c.m) hmode]

/-- Past the mode: the tag of a long command (R349), the fields and the trailing bytes (R351 step 5), the places for long commands (R349),
the state (R351 step 6). -/
theorem Cmd.verdict_of_admitted (hheader : headerCheck k.len c = none) (hsrc : k.src.ok k.op c = true) (hmode : k.mode c.m = true) :
    k.verdict c = (firstFail (if k.long then [tagFree] else []) c).or ((firstFail k.fields c).or
      ((trailing (k.len + k.ext c) c).or ((firstFail (if k.long then [longFree] else []) c).or (firstFail k.state c)))) := by
  simp [Cmd.verdict, hheader, require_of_true hsrc, require_of_true (ok := fun c => k.mode c.m) hmode]

/-- A check of long commands alone passes where it passes for a long command. -/
theorem firstFail_ite_long {f : Check} (h : k.long = true → f c = none) : firstFail (if k.long then [f] else []) c = none := by
  split
  next hlong => simp [h hlong]
  · rfl

theorem tagFree_of_clash (h : ∃ l ∈ (c.d.mbx c.f.mbx).longs, l.tag = c.f.tag) : tagFree c = some (invalidHeader 4) :=
  if_pos (by simpa using h)

theorem longFree_of_lt (h : (c.d.mbx c.f.mbx).longs.length < 16) : longFree c = none := require_of_true (decide_eq_true h)

theorem longFree_of_ge (h : 16 ≤ (c.d.mbx c.f.mbx).longs.length) : longFree c = some (plain .busy) :=
  require_of_false (decide_eq_false (Nat.not_lt.mpr h))

theorem headerCheck_of_flags {n : Nat} (h : c.f.flags ≠ 0) : headerCheck n c = some (invalidHeader 2) := if_pos h

theorem headerCheck_of_status {n : Nat} (hflags : c.f.flags = 0) (h : c.f.status ≠ 0) : headerCheck n c = some (invalidHeader 6) := by
  simp [headerCheck, hflags, h]

theorem headerCheck_of_length {n : Nat} (hflags : c.f.flags = 0) (hstatus : c.f.status = 0)
    (h : c.f.payload.length > 4080 ∨ c.f.payload.length < n) : headerCheck n c = some (invalidHeader 8) := by
  simp only [headerCheck, hflags, hstatus, ne_eq, not_true_eq_false, if_false, if_pos h]

/-- A Reach mailbox and the tunnel have no sessions (R351). -/
theorem headerCheck_of_session {n : Nat} (hflags : c.f.flags = 0) (hstatus : c.f.status = 0) (hmax : c.f.payload.length ≤ 4080)
    (hmin : n ≤ c.f.payload.length) (hmbx : c.f.mbx = .tunnel ∨ ∃ r, c.f.mbx = .reach r) (hsid : c.f.sid ≠ 0) :
    headerCheck n c = some (invalidHeader 12) := by
  have hlen : ¬ (c.f.payload.length > 4080 ∨ c.f.payload.length < n) := by omega
  simp only [headerCheck, hflags, hstatus, ne_eq, not_true_eq_false, if_false, if_neg hlen]
  obtain hmbx | ⟨r, hmbx⟩ := hmbx <;> simp only [hmbx] <;> exact if_pos hsid

/-- The target field of MODE_SET is its first check (R351, R523). -/
theorem modeSet_fields_of_automatic {b : Bool} (h : c.u8 0 ∈ [0, 1, 9, 10]) :
    firstFail (cmdModeSet b).fields c = some (plain .wrongMode) := by
  simp only [List.mem_cons, List.not_mem_nil, or_false] at h
  simp [cmdModeSet, h]

theorem modeSet_fields_of_undefined {b : Bool} (h : 12 ≤ c.u8 0) : firstFail (cmdModeSet b).fields c = some (invalid 0) := by
  have hauto : ¬ (c.u8 0 = 0 ∨ c.u8 0 = 1 ∨ c.u8 0 = 9 ∨ c.u8 0 = 10) := by omega
  simp only [cmdModeSet, firstFail_cons, if_neg hauto, gt_iff_lt, if_pos (Nat.lt_of_succ_le h), Option.some_or]

theorem modeSet_state_of_transition {b : Bool} (h : c.d.transition = true) : firstFail (cmdModeSet b).state c = some (plain .busy) := by
  rw [cmdModeSet, firstFail_cons, require_of_false, Option.some_or]
  rw [h]
  rfl

theorem modeSet_state_of_noPath {b : Bool} (htrans : c.d.transition = false) (hbars : c.d.serviceBars = false)
    (hpath : pathOk c.m (c.u8 0) = false) : firstFail (cmdModeSet b).state c = some (plain .wrongMode) := by
  rw [cmdModeSet, firstFail_cons, firstFail_cons, require_of_true, require_of_false (ok := fun c => pathOk c.m (c.u8 0)) hpath]
  · rfl
  · simp [htrans, hbars]

end

/-- Settles O41: each clause is the check that the checks before it let through. -/
theorem bilodOrder : Obligations.BilodOrder := by
  refine ⟨?flags, ?status, ?length, ?session, ?source, ?mode, ?fields, ?trailing, ?state, ?tag, ?places, ?automatic, ?undefined,
    ?transition, ?noPath⟩
  case flags => exact fun k c h => Cmd.verdict_of_header (headerCheck_of_flags h)
  case status => exact fun k c hflags h => Cmd.verdict_of_header (headerCheck_of_status hflags h)
  case length => exact fun k c hflags hstatus h => Cmd.verdict_of_header (headerCheck_of_length hflags hstatus h)
  case session =>
    exact fun k c hflags hstatus hmax hmin hmbx hsid =>
      Cmd.verdict_of_header (headerCheck_of_session hflags hstatus hmax hmin hmbx hsid)
  case source => exact fun k c => Cmd.verdict_of_source
  case mode => exact fun k c => Cmd.verdict_of_mode
  case fields =>
    intro k c x hheader hsrc hmode htag h
    rw [Cmd.verdict_of_admitted hheader hsrc hmode, firstFail_ite_long htag, h]
    rfl
  case trailing =>
    intro k c x hheader hsrc hmode htag hfields h
    rw [Cmd.verdict_of_admitted hheader hsrc hmode, firstFail_ite_long htag, hfields, h]
    rfl
  case state =>
    intro k c hheader hsrc hmode htag hfields htrailing hplaces
    rw [Cmd.verdict_of_admitted hheader hsrc hmode, firstFail_ite_long htag, hfields, htrailing,
      firstFail_ite_long fun hlong => longFree_of_lt (hplaces hlong)]
    rfl
  case tag =>
    intro k c hheader hsrc hmode hlong hclash
    rw [Cmd.verdict_of_admitted hheader hsrc hmode, if_pos hlong, firstFail_cons, tagFree_of_clash hclash]
    rfl
  case places =>
    intro k c hheader hsrc hmode hlong htag hfields htrailing hfull
    rw [Cmd.verdict_of_admitted hheader hsrc hmode, firstFail_ite_long fun _ => htag, hfields, htrailing, if_pos hlong, firstFail_cons,
      longFree_of_ge hfull]
    rfl
  case automatic => exact fun b c => modeSet_fields_of_automatic
  case undefined => exact fun b c => modeSet_fields_of_undefined
  case transition => exact fun b c => modeSet_state_of_transition
  case noPath => exact fun b c => modeSet_state_of_noPath

/-! ### Callers without a session -/

section
variable {c : Ctx}

theorem Ctx.who_anonymous (hmbx : c.f.mbx = .admin ∨ c.f.mbx = .oob) (hsid : c.f.sid = 0) : c.who = .anonymous := by
  obtain hmbx | hmbx := hmbx <;> simp [Ctx.who, hmbx, hsid]

/-- Without a session the command must be open to unauthenticated callers (R352). -/
theorem Src.ok_anonymous (x : Src) (op : Nat) (hmbx : c.f.mbx = .admin ∨ c.f.mbx = .oob) (hsid : c.f.sid = 0) :
    x.ok op c = x.open_ := by
  rw [Src.ok, Ctx.who_anonymous hmbx hsid]
  obtain hmbx | hmbx := hmbx <;> rw [hmbx]

/-- The six commands open to unauthenticated callers (R352). -/
theorem open_iff : ∀ k ∈ commandTable, k.src.open_ = true ↔ k.op ∈ [0x0000, 0x0001, 0x0002, 0x1000, 0x1001, 0x1002] := by
  decide +kernel

end

/-- Settles O43: an anonymous caller passes the check of the source where the command is open, and the table says which are. -/
theorem anonymousCallers : Obligations.AnonymousCallers := by
  refine ⟨open_iff, fun k hk c hmbx hsid hheader hop => ?_, fun k hk c hmbx hsid hop => ?_⟩
  · have hclosed : k.src.open_ = false := Bool.eq_false_iff.mpr (mt (open_iff k hk).mp hop)
    exact Cmd.verdict_of_source hheader ((Src.ok_anonymous _ _ hmbx hsid).trans hclosed)
  · exact (Src.ok_anonymous _ _ hmbx hsid).trans ((open_iff k hk).mpr hop)

/-! ### Rows that stage, and the step -/

/-- Settles O2: each row serves its command, whose body stages the items named in the set named. -/
theorem stagedCommands : Obligations.StagedCommands := by
  refine ⟨?_, ?_, ?_, ?_, ?_, ?_, ?_, ?_, ?_, ?_, ?_, ?_, ?_, ?_, ?_, ?_, ?_, ?_, ?_, ?_, ?_, ?_, ?_, ?_, ?_, ?_, ?slots⟩
  case slots =>
    refine .of_body (fun _ _ _ => rfl) fun c => congrArg (fun items => (c.d.stage devSet items, Reply.done [])) ?_
    dsimp only
    split <;> rfl
  all_goals exact .of_body (fun _ _ _ => rfl) fun _ => rfl

/-- Settles O30: the cases of `step` are those of the queue. -/
theorem stepRunsFront : Obligations.StepRunsFront := by
  refine ⟨fun c rest s h => ?_, fun c s => rfl, fun s h => ?_⟩
  all_goals rw [step, h]

end Sys2Proof.Machine
end

section
/-! The mailboxes (R341 to R349, R355, R366): the segments of a response, the event queue, and the rows of the page and of completions. -/

namespace Sys2Proof.Machine

/-! ### Fields of byte strings -/

theorem leN_one (b : Bytes) (off : Nat) : leN b off 1 = byteAt b off := rfl

/-- A field beyond a prefix is the field of what follows the prefix. -/
theorem leN_append_of_le {a b : Bytes} {off n : Nat} (h : a.length ≤ off) : leN (a ++ b) off n = leN b (off - a.length) n := by
  induction n generalizing off with
  | zero => rfl
  | succ n ih =>
    rw [leN, leN, ih (Nat.le_succ_of_le h), Nat.succ_sub h, byteAt, byteAt, List.getD_eq_getElem?_getD, List.getD_eq_getElem?_getD,
      List.getElem?_append_right h]

/-- A number reads back from the bytes that `nb` spells, modulo the range of the field (R350). -/
theorem leN_nb_append (n v : Nat) (b : Bytes) : leN (nb n v ++ b) 0 n = v % 256 ^ n := by
  induction n generalizing v with
  | zero => rw [Nat.pow_zero, Nat.mod_one, leN]
  | succ n ih =>
    have hrest : leN (nb (n + 1) v ++ b) 1 n = v / 256 % 256 ^ n := by
      rw [← ih, nb, ← List.singleton_append, List.append_assoc]
      exact leN_append_of_le (Nat.le_refl 1)
    have hfirst : byteAt (nb (n + 1) v ++ b) 0 = v % 256 := by
      rw [byteAt, nb, List.cons_append, List.getD_cons_zero, BitVec.toNat_ofNat]
    rw [leN, hfirst, hrest, Nat.pow_succ', Nat.mod_mul]

/-! ### The segments of a response -/

theorem Status.code_lt (st : Status) : st.code < 14 := by cases st <;> decide

/-- Pieces of one length, taken in order, are the front of the list. -/
theorem flatMap_range_pieces {α : Type} (l : List α) (m n : Nat) :
    ((List.range n).flatMap fun k => (l.drop (m * k)).take m) = l.take (m * n) := by
  induction n with
  | zero => rfl
  | succ n ih => rw [List.range_succ, List.flatMap_append, ih, List.flatMap_singleton, Nat.mul_succ, List.take_add]

section
variable (r : Resp)

/-- The header of a segment is 16 bytes, and its payload follows (Table MBX-8). -/
theorem Resp.frame_drop_header : r.frame.drop 16 = (r.payload.drop (4080 * r.seg)).take 4080 :=
  List.drop_left' (by simp only [List.length_append, nb_length])

/-- The fields of the header, each in the bytes of Table MBX-8. -/
theorem Resp.frame_header :
    leN r.frame 0 2 = r.opcode % 2 ^ 16 ∧ byteAt r.frame 2 = 1 + 2 * b2n r.more ∧ byteAt r.frame 3 = r.seg % 256
    ∧ leN r.frame 4 2 = r.tag % 2 ^ 16 ∧ leN r.frame 6 2 = r.status.code ∧ leN r.frame 8 4 = r.payload.length % 2 ^ 32
    ∧ leN r.frame 12 4 = r.sid % 2 ^ 32 := by
  have hcode : r.status.code % 65536 = r.status.code := Nat.mod_eq_of_lt (Nat.lt_trans r.status.code_lt (by decide))
  have hflags : (1 + 2 * b2n r.more) % 256 = 1 + 2 * b2n r.more := by cases r.more <;> rfl
  simp only [← leN_one, Resp.frame, List.append_assoc]
  simp [leN_append_of_le, leN_nb_append, nb_length, hcode, hflags]

theorem Resp.more_iff (h : r.dropped = false) : r.more = true ↔ 4080 * (r.seg + 1) < r.payload.length := by
  rw [Resp.more, h, Nat.mul_comm, Bool.not_false, Bool.true_and, decide_eq_true_iff]

end

/-- Settles O45: the header's fields lie below their ranges, and the segments are pieces of the payload. -/
theorem responseSegments : Obligations.ResponseSegments := by
  refine ⟨fun r hop htag hsid hseg hlen => ?_, Resp.more_iff, fun r n hn => ?_⟩
  · obtain ⟨h0, h2, h3, h4, h6, h8, h12⟩ := r.frame_header
    rw [Nat.mod_eq_of_lt hop] at h0
    rw [Nat.mod_eq_of_lt hseg] at h3
    rw [Nat.mod_eq_of_lt htag] at h4
    rw [Nat.mod_eq_of_lt hlen] at h8
    rw [Nat.mod_eq_of_lt hsid] at h12
    exact ⟨h0, h2, h3, h4, h6, h8, h12, r.frame_drop_header⟩
  · simp only [Resp.frame_drop_header, flatMap_range_pieces]
    exact List.take_of_length_le hn

/-! ### The event queue -/

/-- The records of a queue that are not COMMAND_DONE, which share 240 places (R355). -/
def Mailbox.others (b : Mailbox) : List EvRec := b.evq.filter fun x => decide (x.code ≠ 0x500)

/-- The COMMAND_DONE records of a queue. -/
def Mailbox.dones (b : Mailbox) : List EvRec := b.evq.filter fun x => decide (x.code = 0x500)

section
variable {r : EvRec} {b : Mailbox}

theorem enqueue_done (h : r.code = 0x500) : b.enqueue r = { b with evq := b.evq ++ [r] } := if_pos h

theorem enqueue_fits (h : b.others.length < 240) : b.enqueue r = { b with evq := b.evq ++ [r] } := by
  unfold Mailbox.enqueue
  split
  · rfl
  · exact if_pos h

theorem enqueue_full (hcode : r.code ≠ 0x500) (h : 240 ≤ b.others.length) : b.enqueue r = { b with lost := true } :=
  (if_neg hcode).trans (if_neg (Nat.not_lt.mpr h))

/-- What a record does to the queue (R355): it joins it, as COMMAND_DONE or in one of the 240 places, or it is another one and is lost. -/
theorem enqueue_cases (r : EvRec) (b : Mailbox) :
    (b.enqueue r = { b with evq := b.evq ++ [r] } ∧ (r.code = 0x500 ∨ b.others.length < 240)) ∨
    (b.enqueue r = { b with lost := true } ∧ r.code ≠ 0x500) := by
  by_cases hcode : r.code = 0x500
  · exact .inl ⟨enqueue_done hcode, .inl hcode⟩
  · obtain hfits | hfull := Nat.lt_or_ge b.others.length 240
    · exact .inl ⟨enqueue_fits hfits, .inr hfits⟩
    · exact .inr ⟨enqueue_full hcode hfull, hcode⟩

theorem others_enqueue_le (h : b.others.length ≤ 240) : (b.enqueue r).others.length ≤ 240 := by
  obtain ⟨heq, hroom⟩ | ⟨heq, -⟩ := enqueue_cases r b
  · rw [heq, Mailbox.others, List.filter_append, List.length_append]
    obtain hdone | hfits := hroom
    · have hnone : ([r].filter fun x => decide (x.code ≠ 0x500)) = [] := by simp [hdone]
      rw [hnone]
      exact h
    · exact Nat.le_trans (Nat.add_le_add_left (List.length_filter_le _ [r]) _) hfits
  · rw [heq]
    exact h

theorem dones_enqueue : (b.enqueue r).dones = b.dones ++ [r].filter fun x => decide (x.code = 0x500) := by
  obtain ⟨heq, -⟩ | ⟨heq, hother⟩ := enqueue_cases r b
  · rw [heq, Mailbox.dones, List.filter_append]
    rfl
  · rw [heq, List.filter_cons_of_neg (by rw [decide_eq_false hother]; exact Bool.false_ne_true), List.filter_nil]
    exact (List.append_nil _).symm

end

theorem others_foldl_enqueue_le {l : List EvRec} {b : Mailbox} (h : b.others.length ≤ 240) :
    (l.foldl (fun b r => b.enqueue r) b).others.length ≤ 240 := by
  induction l generalizing b with
  | nil => exact h
  | cons r l ih => exact ih (others_enqueue_le h)

theorem dones_foldl_enqueue (l : List EvRec) (b : Mailbox) :
    (l.foldl (fun b r => b.enqueue r) b).dones = b.dones ++ l.filter fun x => decide (x.code = 0x500) := by
  induction l generalizing b with
  | nil => exact (List.append_nil _).symm
  | cons r l ih => rw [List.foldl_cons, ih, dones_enqueue, List.append_assoc, ← List.filter_append, List.singleton_append]

/-- Settles O46: each record keeps the bound and the order, and so does any list of records. -/
theorem eventQueue : Obligations.EventQueue :=
  ⟨fun l b h => ⟨others_foldl_enqueue_le h, dones_foldl_enqueue l b⟩, fun _ _ hcode h => enqueue_full hcode (Nat.le_of_eq h.symm),
    fun _ _ => enqueue_fits⟩

/-! ### The rows -/

/-- Changes of a mailbox that agree on the one there is are the same change. -/
theorem Dev.onMbx_congr {d : Dev} {b : Mbx} {f g : Mailbox → Mailbox} (h : f (d.mbx b) = g (d.mbx b)) : d.onMbx b f = d.onMbx b g := by
  have hupd : d.mgmt.mbxs.upd b {} f = d.mgmt.mbxs.upd b {} g := congrArg (d.mgmt.mbxs.set b) h
  rw [Dev.onMbx, Dev.onMgmt, hupd]
  rfl

/-- A doorbell row acts on the mailbox of its view outside Shelf (R342, R345). -/
theorem Acts.of_doorbellRow {i : Nat → Instr} {ok : Mode → Profile → Dev → Prop} {act : Mode → Profile → Dev → Dev} {v : View}
    {b : Mbx} {g : Mode → Dev → Mbx → Dev} (row : Nat → State → Host.Outcome State Fault Refusal)
    (hrow : ∀ dt s, exec (i dt) s = row dt s ∧ row dt s = doorbellRow dt v s g)
    (hg : ∀ m p d, ok m p d → g m d b = act m p d) : Acts i (fun m p d => m ≠ .shelf ∧ d.viewMbx v = some b ∧ ok m p d) act :=
  .of_event row hrow fun m p d ⟨hshelf, hview, hok⟩ => by simp only [hview, if_neg hshelf, hg m p d hok]

section
variable {m : Mode} {d : Dev} {v : View} {b : Mbx} {r : Resp}

theorem Dev.ring_submits (hserved : servedIn m d b = true) (hholds : (d.mbx b).holds v = true) (hidle : (d.mbx b).busy = false) :
    d.ring m v b = d.onMbx b fun x => { x with rung := some ((d.mbx b).frame b), resp := none, claimT := d.clk.t6 } := by
  rw [Dev.ring, hserved]
  exact Dev.onMbx_congr (by simp [hholds, hidle])

theorem Dev.ring_protocolError (hserved : servedIn m d b = true) (h : (d.mbx b).holds v = false ∨ (d.mbx b).busy = true) :
    d.ring m v b = d.onMbx b (Mailbox.perrSet v) := by
  rw [Dev.ring, hserved]
  exact Dev.onMbx_congr (if_pos (by simpa using h))

theorem Dev.ring_not_served (h : servedIn m d b = false) : d.ring m v b = d := by
  rw [Dev.ring, h]
  rfl

theorem Dev.nextSeg_of_more (hresp : (d.mbx b).resp = some r) (hholds : (d.mbx b).holds v = true) (hidle : (d.mbx b).busy = false)
    (hmore : r.more = true) : d.nextSeg v b = d.onMbx b fun x => { x with
      resp := some { r with seg := r.seg + 1 }, area := put x.area 0 ({ r with seg := r.seg + 1 } : Resp).frame, claimT := d.clk.t6 } :=
  Dev.onMbx_congr (by simp [hresp, hholds, hidle, hmore])

theorem Dev.dropSegs_of_more (hresp : (d.mbx b).resp = some r) (hholds : (d.mbx b).holds v = true) (hidle : (d.mbx b).busy = false)
    (hmore : r.more = true) :
    d.dropSegs v b = d.onMbx b fun x => { x with resp := some { r with dropped := true }, claimT := d.clk.t6 } :=
  Dev.onMbx_congr (by simp [hresp, hholds, hidle, hmore])

/-- In Shelf no mailbox is served (Table MODE-1). -/
theorem Mode.ne_shelf_of_adminServed (h : m.adminServed = true) : m ≠ .shelf := fun hm => by
  rw [hm] at h
  nomatch h

end

/-- Settles O19: in each clause the conditions named decide the branches of the row. -/
theorem mailboxEvents : Obligations.MailboxEvents := by
  refine ⟨?undefined, ?refused, ?tunnel, ?ring, ?ringError, ?ringIgnored, ?next, ?drop, ?claim, ?claimed, ?release, ?claimAdmin,
    ?releaseAdmin, ?write, ?timeout, ?done, ?oob, ?oobDropped⟩
  case undefined =>
    exact fun op f => .of_event (execUndefinedOpcode · op f) (fun _ _ => ⟨rfl, rfl⟩) fun m p d ⟨hserv, hheader⟩ => by
      simp only [hserv, hheader, if_true]
  case refused =>
    exact fun op f st b => .of_event (execUndefinedOpcode · op f) (fun _ _ => ⟨rfl, rfl⟩) fun m p d ⟨hserv, hheader⟩ => by
      simp only [hserv, hheader, if_true]
  case tunnel =>
    exact fun src op f => .of_event (execFmApiTunnelFrame · src op f) (fun _ _ => ⟨rfl, rfl⟩) fun m p d ⟨hserved, hsrc, hidle⟩ =>
      if_pos (by simp [hserved, hsrc, hidle])
  case ring =>
    exact fun v b => .of_doorbellRow (execRing · v) (fun _ _ => ⟨rfl, rfl⟩)
      fun m p d ⟨hserved, hholds, hidle⟩ => Dev.ring_submits hserved hholds hidle
  case ringError =>
    exact fun v b => .of_doorbellRow (execRing · v) (fun _ _ => ⟨rfl, rfl⟩)
      fun m p d ⟨hserved, herr⟩ => Dev.ring_protocolError hserved herr
  case ringIgnored =>
    exact fun v b => .of_doorbellRow (execRing · v) (fun _ _ => ⟨rfl, rfl⟩)
      fun m p d hserved => Dev.ring_not_served hserved
  case next =>
    exact fun v b r => .of_doorbellRow (execNext · v) (fun _ _ => ⟨rfl, rfl⟩)
      fun m p d ⟨hresp, hholds, hidle, hmore⟩ => Dev.nextSeg_of_more hresp hholds hidle hmore
  case drop =>
    exact fun v b r => .of_doorbellRow (execDrop · v) (fun _ _ => ⟨rfl, rfl⟩)
      fun m p d ⟨hresp, hholds, hidle, hmore⟩ => Dev.dropSegs_of_more hresp hholds hidle hmore
  case claim =>
    exact fun n b => .of_doorbellRow (execClaim · (.vcs n)) (fun _ _ => ⟨rfl, rfl⟩)
      fun m p d hfree => Dev.onMbx_congr (by simp [hfree])
  case claimed =>
    exact fun n b k => .of_doorbellRow (execClaim · (.vcs n)) (fun _ _ => ⟨rfl, rfl⟩)
      fun m p d hheld => Dev.onMbx_congr (by simp [hheld])
  case release =>
    exact fun n b => .of_doorbellRow (execRelease · (.vcs n)) (fun _ _ => ⟨rfl, rfl⟩)
      fun m p d hheld => Dev.onMbx_congr (by simp [hheld, Mailbox.unclaim])
  case claimAdmin =>
    exact .of_event (g := fun m _ d => if m = .shelf then d else d) (execClaim · .admin) (fun _ _ => ⟨rfl, rfl⟩)
      fun _ _ d _ => ite_self d
  case releaseAdmin =>
    exact .of_event (g := fun m _ d => if m = .shelf then d else d) (execRelease · .admin) (fun _ _ => ⟨rfl, rfl⟩)
      fun _ _ d _ => ite_self d
  case write => exact fun v off w x => .of_event (execRegisterWrite · v off w x) (fun _ _ => ⟨rfl, rfl⟩) fun _ _ _ _ => rfl
  case timeout =>
    exact fun r => .of_event (execClaimTimeout · r) (fun _ _ => ⟨rfl, rfl⟩) fun m p d ⟨hclaim, hidle, hdue⟩ => by
      simp only [hclaim, hidle, ge_iff_le, hdue, Bool.not_false, decide_true, Bool.and_self, if_true]
      rfl
  case done =>
    refine fun mb tag l st b => .of_event (execCommandDone · mb tag) (fun _ _ => ⟨rfl, rfl⟩) fun m p d ⟨hfind, hfin⟩ => ?_
    unfold Dev.commandDone
    split
    next l' hfind' =>
      obtain rfl := Option.some.inj (hfind.symm.trans hfind')
      split
      next st' b' hfin' =>
        obtain ⟨rfl, rfl⟩ := Prod.mk.inj (Option.some.inj (hfin.symm.trans hfin'))
        rfl
      next hnone => nomatch hfin.symm.trans hnone
    next hnone => nomatch hfind.symm.trans hnone
  case oob =>
    exact fun op f => .of_event (execMctpBilodRequest · op f true) (fun _ _ => ⟨rfl, rfl⟩) fun m p d ⟨hserved, hidle⟩ => by
      simp [Mode.ne_shelf_of_adminServed hserved, hserved, hidle]
  case oobDropped =>
    exact fun op f w => .of_event (execMctpBilodRequest · op f w) (fun _ _ => ⟨rfl, rfl⟩) fun m p d ⟨hshelf, hdrop⟩ =>
      (if_neg hshelf).trans (if_pos (by simpa using hdrop))

end Sys2Proof.Machine
end

section
/-! Bits of register words: the word with one bit set, and the word that a predicate spells. -/

namespace Sys2Proof.Machine

/-- Setting a bit that is clear adds its weight, which reaches no other bit. -/
theorem testBit_add_two_pow {v k : Nat} (h : v.testBit k = false) (j : Nat) : (v + 2 ^ k).testBit j = (v.testBit j || decide (j = k)) := by
  obtain hlt | rfl | hgt := Nat.lt_trichotomy j k
  · rw [Nat.add_comm, Nat.testBit_two_pow_add_gt hlt, decide_eq_false (Nat.ne_of_lt hlt), Bool.or_false]
  · rw [Nat.add_comm, Nat.testBit_two_pow_add_eq, h, decide_eq_true rfl]
    rfl
  · have heven : v / 2 ^ k % 2 = 0 := by simpa [Nat.testBit_eq_decide_div_mod_eq] using h
    have hhigh : (v + 2 ^ k) / 2 ^ (k + 1) = v / 2 ^ (k + 1) := by
      rw [Nat.pow_succ, ← Nat.div_div_eq_div_mul, ← Nat.div_div_eq_div_mul, Nat.add_div_right _ (Nat.two_pow_pos k)]
      omega
    obtain ⟨n, rfl⟩ := Nat.exists_eq_add_of_lt hgt
    rw [decide_eq_false (Nat.ne_of_gt hgt), Bool.or_false, Nat.testBit_eq_decide_div_mod_eq, Nat.testBit_eq_decide_div_mod_eq,
      Nat.add_right_comm, Nat.pow_add, ← Nat.div_div_eq_div_mul, ← Nat.div_div_eq_div_mul, hhigh]

@[simp] theorem testBit_setBit (v k j : Nat) : (setBit v k).testBit j = (v.testBit j || decide (j = k)) := by
  unfold setBit
  split
  next hset =>
    by_cases hj : j = k
    · rw [hj, hset, Bool.true_or]
    · rw [decide_eq_false hj, Bool.or_false]
  next hclear => exact testBit_add_two_pow (Bool.eq_false_iff.mpr hclear) j

theorem setBit_of_testBit {v k : Nat} (h : v.testBit k = true) : setBit v k = v := if_pos h

theorem bitsOf_lt (p : Nat → Bool) (n : Nat) : bitsOf p n < 2 ^ n := by
  induction n with
  | zero => exact Nat.one_pos
  | succ n ih =>
    rw [bitsOf, Nat.pow_succ]
    split <;> omega

@[simp] theorem testBit_bitsOf (p : Nat → Bool) (n k : Nat) : (bitsOf p n).testBit k = (decide (k < n) && p k) := by
  induction n with
  | zero => simp [bitsOf]
  | succ n ih =>
    have hclear : (bitsOf p n).testBit n = false := Nat.testBit_lt_two_pow (bitsOf_lt p n)
    have hsucc : (bitsOf p (n + 1)).testBit k = ((bitsOf p n).testBit k || (p n && decide (k = n))) := by
      rw [bitsOf]
      cases hp : p n with
      | false => simp
      | true => rw [if_pos rfl, testBit_add_two_pow hclear, Bool.true_and]
    rw [hsucc, ih]
    by_cases hk : k = n
    · simp [hk]
    · simp [hk, Nat.le_iff_lt_or_eq]

end Sys2Proof.Machine
end

section
/-! The fault messages (R389, R393): the 128 bits of a message, and what its source sends. -/

namespace Sys2Proof.Machine

/-! ### The 128-bit message (Table FAULT-1) -/

section
variable (m : FaultMsg)

theorem faultWord_lt : faultWord m < 2 ^ 128 := by
  unfold faultWord
  omega

/-- Each field of the word reads back, cut to its width. -/
theorem bits_faultWord :
    bits (faultWord m) 127 124 = m.block % 16 ∧ bits (faultWord m) 123 116 = m.inst % 256 ∧ bits (faultWord m) 115 106 = m.kind % 1024
    ∧ bits (faultWord m) 105 104 = m.cls % 4 ∧ bits (faultWord m) 103 98 = m.reach % 64 ∧ bits (faultWord m) 97 46 = m.detail % 2 ^ 52
    ∧ bits (faultWord m) 45 6 = m.time % 2 ^ 40 ∧ bits (faultWord m) 5 0 = m.seq % 64 := by
  unfold faultWord bits
  refine ⟨?_, ?_, ?_, ?_, ?_, ?_, ?_, ?_⟩
  all_goals omega

end

/-- The fields of a 128-bit word spell it again. -/
theorem faultWord_faultOfWord {w : Nat} (h : w < 2 ^ 128) : faultWord (faultOfWord w) = w := by
  simp only [faultWord, faultOfWord, bits]
  omega

/-- Settles O48 (`faultWord` names the model's word): the fields lie side by side below 2^128, and 16 bytes hold the word. -/
theorem faultWord_fields : Obligations.FaultWord := by
  refine ⟨fun m hseq htime hdetail hreach hcls hkind hinst hblock => ?_, fun w => faultWord_faultOfWord, fun h => ⟨?_, ?_⟩⟩
  · have hbits := bits_faultWord m
    rw [Nat.mod_eq_of_lt hblock, Nat.mod_eq_of_lt hinst, Nat.mod_eq_of_lt hkind, Nat.mod_eq_of_lt hcls, Nat.mod_eq_of_lt hreach,
      Nat.mod_eq_of_lt hdetail, Nat.mod_eq_of_lt htime, Nat.mod_eq_of_lt hseq] at hbits
    refine ⟨?_, faultWord_lt m, hbits⟩
    obtain ⟨block, inst, kind, cls, reach, detail, time, seq⟩ := hbits
    rw [faultOfWord, block, inst, kind, cls, reach, detail, time, seq]
  · rw [Hist.bytes, List.append_assoc, List.append_assoc, leN_nb_append]
    exact Nat.mod_eq_of_lt (faultWord_lt h.msg)
  · simp only [Hist.bytes, List.length_append, nb_length]

/-! ### What a source sends (R389, R393) -/

section
variable (d : Dev) (block inst kind cls reach detail : Nat)

/-- The message that a source sends next. -/
def Dev.nextFault : FaultMsg :=
  { block, inst, kind, cls, reach, detail := detail % 2 ^ 52, time := d.now, seq := d.flt.seqTx.getD (block, inst) 0 }

@[simp] theorem Dev.sendFault_seqTx : (d.sendFault block inst kind cls reach detail).flt.seqTx =
    d.flt.seqTx.set (block, inst) ((d.flt.seqTx.getD (block, inst) 0 + 1) % 64) := rfl

@[simp] theorem Dev.sendFault_transit : (d.sendFault block inst kind cls reach detail).flt.transit =
    if unsent d block inst < 4 then d.flt.transit ++ [d.nextFault block inst kind cls reach detail] else d.flt.transit := rfl

@[simp] theorem Dev.sendFault_line : (d.sendFault block inst kind cls reach detail).flt.line =
    if (cls == 2 && d.flt.line.isNone) = true then some d.clk.t6 else d.flt.line := rfl

/-- A message that joins counts for its own source alone. -/
theorem unsent_of_transit_append {d e : Dev} {m : FaultMsg} (h : e.flt.transit = d.flt.transit ++ [m]) (b i : Nat) :
    unsent e b i = unsent d b i + if m.block = b ∧ m.inst = i then 1 else 0 := by
  rw [unsent, h, List.filter_append, List.length_append, unsent]
  congr 1
  split
  next hsrc => simp [hsrc]
  next hsrc => simpa using hsrc

/-- No source comes to hold more than four messages. -/
theorem Dev.unsent_sendFault_le {b i : Nat} (h : unsent d b i ≤ 4) : unsent (d.sendFault block inst kind cls reach detail) b i ≤ 4 := by
  by_cases hroom : unsent d block inst < 4
  · rw [unsent_of_transit_append ((d.sendFault_transit ..).trans (if_pos hroom))]
    split
    next hsrc =>
      obtain ⟨rfl, rfl⟩ := hsrc
      exact hroom
    · exact h
  · rwa [unsent, Dev.sendFault_transit, if_neg hroom, ← unsent]

end

/-- Settles O49: the number advances for the source named, and its message joins where fewer than four of it wait. -/
theorem faultSources : Obligations.FaultSources := by
  intro d block inst kind cls reach detail
  refine ⟨?number, ?others, ?four, ?lost, ?sent, ?line⟩
  case number => exact Tbl.getD_set ..
  case others => exact fun k hk => Tbl.getD_set_ne _ _ _ _ _ hk
  case four => exact fun h b i => d.unsent_sendFault_le block inst kind cls reach detail (h b i)
  case lost => exact fun h => (d.sendFault_transit ..).trans (if_neg (Nat.not_lt.mpr h))
  case sent => exact fun h => (d.sendFault_transit ..).trans (if_pos h)
  case line => simp

end Sys2Proof.Machine
end

section
/-! The fault collector (R391, R395, R399, R403): what a message leaves in it. -/

namespace Sys2Proof.Machine

/-! ### What records, counts and reports leave of the collector -/

section
variable {d e : Dev}

/-- Records, counts and answers leave the collector and the admission as they are. -/
theorem Dev.flt_of_unrecorded (h : e.unrecorded = d.unrecorded) : e.flt = d.flt := by
  rw [Dev.eq_of_unrecorded h]

theorem Dev.conf_of_unrecorded (h : e.unrecorded = d.unrecorded) : e.conf = d.conf := by
  rw [Dev.eq_of_unrecorded h]

end

section
variable (d : Dev)

@[simp] theorem Dev.countDev_flt (s i r : Nat) : (d.countDev s i r).flt = d.flt := Dev.flt_of_unrecorded (d.countDev_unrecorded s i r)
@[simp] theorem Dev.countDev_conf (s i r : Nat) : (d.countDev s i r).conf = d.conf :=
  Dev.conf_of_unrecorded (d.countDev_unrecorded s i r)
@[simp] theorem Dev.count_flt (s t r i c : Nat) : (d.count s t r i c).flt = d.flt := Dev.flt_of_unrecorded (d.count_unrecorded s t r i c)
@[simp] theorem Dev.traceRec_flt (t a b : Nat) (c : Bytes) : (d.traceRec t a b c).flt = d.flt :=
  Dev.flt_of_unrecorded (d.traceRec_unrecorded t a b c)
@[simp] theorem Dev.postTo_flt (m : Mbx) (r : EvRec) : (d.postTo m r).flt = d.flt := Dev.flt_of_unrecorded (d.postTo_unrecorded m r)
@[simp] theorem Dev.post_flt (r : EvRec) : (d.post r).flt = d.flt := Dev.flt_of_unrecorded (d.post_unrecorded r)

@[simp] theorem Dev.decideDegraded_flt (m : Mode) : (d.decideDegraded m).flt = d.flt := by
  unfold Dev.decideDegraded
  split
  · rfl
  · split <;> rfl

/-- Setting a redundancy bit changes the status alone of the collector (R402). -/
@[simp] theorem Dev.setRedundancy_flt (m : Mode) (b : Nat) :
    (d.setRedundancy m b).flt = { d.flt with status := setBit d.flt.status b } := by
  unfold Dev.setRedundancy
  split
  next hset => rw [setBit_of_testBit hset]
  next => simp

/-- In-band reporting writes the AER bits alone (Table FAULT-8). -/
theorem Dev.reportInBand_flt (m : FaultMsg) : ∃ aer, (d.reportInBand m).flt = { d.flt with aer := aer } := by
  have hfold (l : List Nat) (e : Dev) : ∃ aer, (l.foldl (fun d v => d.aerSet v 22) e).flt = { e.flt with aer := aer } := by
    induction l generalizing e with
    | nil => exact ⟨_, rfl⟩
    | cons v l ih => exact ih (e.aerSet v 22)
  unfold Dev.reportInBand
  split
  · exact ⟨_, rfl⟩
  · split
    · exact ⟨_, rfl⟩
    · split
      · exact ⟨_, rfl⟩
      · split
        · exact hfold _ _
        · exact ⟨_, rfl⟩

end

/-! ### The parts of taking a message -/

section
variable (mode : Mode) (m : FaultMsg) (inj : Bool) (h : Hist) (snapDev snapReach posted : Bool) (d : Dev)

/-- The missing messages of the source between the last one heard and this one (R393). -/
def Dev.faultGap : Nat := if inj then 0 else (m.seq + 64 - d.flt.seqRx.getD (m.block, m.inst) 0) % 64

/-- The first part of taking a message: its source's sequence, what was lost of it, and its form (R391, R393). -/
def Dev.hearFault : Dev :=
  let e := if inj then d else d.onFlt fun f => { f with seqRx := f.seqRx.set (m.block, m.inst) ((m.seq + 1) % 64) }
  let e := if d.faultGap m inj = 0 then e
    else (e.onFlt fun f => { f with lost := (f.lost + d.faultGap m inj) % 2 ^ 48, status := setBit f.status 3 }).countDev 0x20A
  if malformed d.nReach m then (e.onFlt fun f => { f with status := setBit f.status 4 }).count 0x126 64 else e

/-- The status after the first part: bit 3 where messages were lost, bit 4 for a malformed one. -/
def Dev.heardStatus : Nat :=
  let st := if d.faultGap m inj = 0 then d.flt.status else setBit d.flt.status 3
  if malformed d.nReach m then setBit st 4 else st

/-- The second part: its entry in the ring, its counts, its class bits and snapshots (R395, R398, R399). -/
def Dev.fileFault : Dev :=
  let cls := recordedClass m
  let inReach := decide (m.reach < d.nReach)
  (d.onFlt fun f => f.push h).onFlt fun f => { f with
    fam := f.fam.upd (m.block, cls) 0 (fun v => (v + 1) % 2 ^ 48)
    cnt := if inReach then f.cnt.upd (m.reach, cls) 0 (fun v => (v + 1) % 2 ^ 48) else f.cnt
    status := setBit f.status cls
    rstat := if inReach then f.rstat.upd m.reach 0 (fun v => setBit v cls) else f.rstat
    snaps :=
      let s := if snapDev then f.snaps.set (32, cls) h else f.snaps
      if snapReach then s.set (m.reach, cls) h else s
    nvWait := if cls ≥ 1 then f.nvWait ++ [h] else f.nvWait }

/-- The redundancy bit that a message sets, if any (R391, R402, R410). -/
def lostRedundancy (n : Nat) : Option Nat := if malformed n m || inj then none else redundancyBit m

/-- The third part: the redundancy bit. -/
def Dev.loseRedundancy (b : Option Nat) : Dev :=
  match b with
  | some b => d.setRedundancy mode b
  | none => d

/-- The last part before what a fatal class stops: the counts, the trace record, the posting and the in-band report (R395, R400). -/
def Dev.announceFault (bad : Bool) : Dev :=
  let cls := recordedClass m
  let d := if cls = 1 then d.countDev 0x207 else d
  let d := if cls ≥ 1 then d.traceRec 0x03 0xFF (m.block + 256 * (m.kind % 256))
      (nb 1 m.cls ++ nb 1 m.inst ++ nb 1 m.reach) else d
  let d := if ! posted then d
    else if bad then
      (((d.postTo .admin (d.faultRecord m)).postTo .oob (d.faultRecord m)).postTo .tunnel (d.faultRecord m))
    else d.post (d.faultRecord m)
  if cls = 1 && ! bad && ! inj then d.reportInBand m else d

/-- What a fatal message stops (R403). -/
def Dev.stopIfFatal : Dev :=
  if recordedClass m = 2 then { d with flt := { d.flt with fatal := true }, weir := { d.weir with stopped := true } } else d

/-- Taking a message is these parts in order, with an entry that holds the message under the next index. -/
theorem Dev.takeFault_eq : ∃ (h : Hist) (snapDev snapReach posted : Bool), h.msg = m ∧ h.index = (d.hearFault m inj).flt.next ∧
    d.takeFault mode m inj = (((((d.hearFault m inj).fileFault m h snapDev snapReach).loseRedundancy mode
      (lostRedundancy m inj d.nReach)).announceFault m inj posted (malformed d.nReach m)).stopIfFatal m) :=
  ⟨_, _, _, _, rfl, rfl, rfl⟩

/-- The first part writes the source's sequence, the count of lost messages and the status. -/
theorem Dev.hearFault_flt : (d.hearFault m inj).flt = { d.flt with
    seqRx := if inj then d.flt.seqRx else d.flt.seqRx.set (m.block, m.inst) ((m.seq + 1) % 64)
    lost := if d.faultGap m inj = 0 then d.flt.lost else (d.flt.lost + d.faultGap m inj) % 2 ^ 48
    status := d.heardStatus m inj } := by
  unfold Dev.hearFault Dev.heardStatus
  dsimp only
  cases inj with
  | true =>
    have hgap : d.faultGap m true = 0 := rfl
    cases malformed d.nReach m <;> simp [hgap]
  | false =>
    by_cases hgap : d.faultGap m false = 0
    · cases malformed d.nReach m <;> simp [hgap]
    · cases malformed d.nReach m <;> simp [hgap]

@[simp] theorem Dev.hearFault_conf : (d.hearFault m inj).conf = d.conf := by
  unfold Dev.hearFault
  dsimp only
  cases inj <;> split <;> split <;> simp

@[simp] theorem Dev.hearFault_nReach : (d.hearFault m inj).nReach = d.nReach := by
  rw [Dev.nReach, Dev.nReach, Dev.cfg, Dev.cfg, Dev.hearFault_conf]

theorem Dev.announceFault_flt (bad : Bool) : ∃ aer, (d.announceFault m inj posted bad).flt = { d.flt with aer := aer } := by
  have hcount : (if recordedClass m = 1 then d.countDev 0x207 else d).flt = d.flt := by split <;> simp
  have htrace (e : Dev) : (if recordedClass m ≥ 1 then e.traceRec 0x03 0xFF (m.block + 256 * (m.kind % 256))
      (nb 1 m.cls ++ nb 1 m.inst ++ nb 1 m.reach) else e).flt = e.flt := by split <;> simp
  have hpost (e : Dev) : (if ! posted then e
      else if bad then (((e.postTo .admin (e.faultRecord m)).postTo .oob (e.faultRecord m)).postTo .tunnel (e.faultRecord m))
      else e.post (e.faultRecord m)).flt = e.flt := by
    split
    · rfl
    · split <;> simp
  unfold Dev.announceFault
  dsimp only
  split
  · obtain ⟨aer, hreport⟩ := Dev.reportInBand_flt _ m
    exact ⟨aer, by rw [hreport, hpost, htrace, hcount]⟩
  · exact ⟨_, by rw [hpost, htrace, hcount]⟩

theorem Dev.fileFault_flt : ∃ fam cnt snaps nvWait, (d.fileFault m h snapDev snapReach).flt = { d.flt with
    hist := (d.flt.hist ++ [h]).drop (d.flt.hist.length + 1 - 64), next := (d.flt.next + 1) % 2 ^ 32
    status := setBit (if d.flt.hist.length ≥ 64 then setBit d.flt.status 5 else d.flt.status) (recordedClass m)
    rstat := if decide (m.reach < d.nReach) then d.flt.rstat.upd m.reach 0 (fun v => setBit v (recordedClass m)) else d.flt.rstat
    fam := fam, cnt := cnt, snaps := snaps, nvWait := nvWait } := ⟨_, _, _, _, rfl⟩

theorem Dev.loseRedundancy_flt (b : Option Nat) :
    (d.loseRedundancy mode b).flt = { d.flt with status := b.elim d.flt.status (setBit d.flt.status) } := by
  cases b with
  | none => rfl
  | some b => exact d.setRedundancy_flt mode b

theorem Dev.stopIfFatal_flt : (d.stopIfFatal m).flt = { d.flt with fatal := decide (recordedClass m = 2) || d.flt.fatal } := by
  unfold Dev.stopIfFatal
  split
  next hfatal => simp [hfatal]
  next hcls => simp [hcls]

/-- The status after the entry: bit 5 where the ring was full, and the bit of the class. -/
def Dev.filedStatus : Nat :=
  setBit (if d.flt.hist.length ≥ 64 then setBit (d.heardStatus m inj) 5 else d.heardStatus m inj) (recordedClass m)

/-- What taking a message leaves of the collector (R391, R395, R399, R403). -/
theorem Dev.takeFault_flt : ∃ h : Hist, h.msg = m ∧ h.index = d.flt.next ∧
    let f := (d.takeFault mode m inj).flt
    f.next = (d.flt.next + 1) % 2 ^ 32
    ∧ f.hist = (d.flt.hist ++ [h]).drop (d.flt.hist.length + 1 - 64)
    ∧ f.seqRx = (if inj then d.flt.seqRx else d.flt.seqRx.set (m.block, m.inst) ((m.seq + 1) % 64))
    ∧ f.rstat = (if decide (m.reach < d.nReach) then d.flt.rstat.upd m.reach 0 (fun v => setBit v (recordedClass m)) else d.flt.rstat)
    ∧ f.status = (lostRedundancy m inj d.nReach).elim (d.filedStatus m inj) (setBit (d.filedStatus m inj))
    ∧ f.fatal = (decide (recordedClass m = 2) || d.flt.fatal) := by
  obtain ⟨h, snapDev, snapReach, posted, hmsg, hindex, htake⟩ := d.takeFault_eq mode m inj
  obtain ⟨fam, cnt, snaps, nvWait, hfile⟩ := Dev.fileFault_flt m h snapDev snapReach (d.hearFault m inj)
  obtain ⟨aer, hannounce⟩ := Dev.announceFault_flt m inj posted
    (((d.hearFault m inj).fileFault m h snapDev snapReach).loseRedundancy mode (lostRedundancy m inj d.nReach)) (malformed d.nReach m)
  have hheard := d.hearFault_flt m inj
  refine ⟨h, hmsg, by rw [hindex, hheard], ?_⟩
  dsimp only
  rw [htake, Dev.stopIfFatal_flt, hannounce, Dev.loseRedundancy_flt, hfile, Dev.hearFault_nReach, hheard]
  exact ⟨rfl, rfl, rfl, rfl, rfl, rfl⟩

/-- Message bits lie below the redundancy bits. -/
theorem testBit_setBit_of_lt {v a k : Nat} (h : a < k) : (setBit v a).testBit k = v.testBit k := by
  rw [testBit_setBit, decide_eq_false (Nat.ne_of_gt h), Bool.or_false]

theorem recordedClass_le : recordedClass m ≤ 2 := by
  unfold recordedClass
  split <;> omega

theorem recordedClass_of_fatal {m : FaultMsg} (h : 2 ≤ m.cls) : recordedClass m = 2 := if_pos h

/-- Before its redundancy bit is set a message leaves those bits (R391). -/
theorem Dev.testBit_filedStatus {k : Nat} (hk : 32 ≤ k) : (d.filedStatus m inj).testBit k = d.flt.status.testBit k := by
  have hcls := recordedClass_le m
  have hheard : (d.heardStatus m inj).testBit k = d.flt.status.testBit k := by
    unfold Dev.heardStatus
    dsimp only
    split <;> split <;> simp only [testBit_setBit_of_lt (Nat.lt_of_lt_of_le (show 3 < 32 by decide) hk),
      testBit_setBit_of_lt (Nat.lt_of_lt_of_le (show 4 < 32 by decide) hk)]
  rw [Dev.filedStatus, testBit_setBit_of_lt (by omega)]
  split
  · rw [testBit_setBit_of_lt (by omega), hheard]
  · exact hheard

/-- What stands after the entry stands after the redundancy bit. -/
theorem testBit_elim_setBit {b : Option Nat} {v k : Nat} (h : v.testBit k = true) : (b.elim v (setBit v)).testBit k = true := by
  cases b with
  | none => exact h
  | some b => exact (testBit_setBit v b k).trans (by rw [h, Bool.true_or])

end

/-- Settles O50: the parts of `Dev.takeFault_flt`, each read off the collector that it leaves. -/
theorem faultTaken : Obligations.FaultTaken := by
  intro mode m inj d
  obtain ⟨h, hmsg, hindex, hnext, hhist, hseq, hrstat, hstatus, hfatal⟩ := d.takeFault_flt mode m inj
  have hclass : (d.filedStatus m inj).testBit (recordedClass m) = true := by simp [Dev.filedStatus]
  refine ⟨hnext, fun hlen => ⟨?ring, h, ?last, hmsg, hindex⟩, fun hfull => ?wrapped, ?cls, fun hreach => ?reach, fun hinj => ?seq,
    fun hbad k hk => ?malformed, fun b hgood hinj hb => ?redundancy, fun hcls => ?fatal⟩
  case ring =>
    simp only [hhist, List.length_drop, List.length_append, List.length_singleton]
    omega
  case last =>
    rw [hhist, List.getLast?_drop, if_neg (by rw [List.length_append, List.length_singleton]; omega), List.getLast?_concat]
  case wrapped =>
    rw [hstatus]
    exact testBit_elim_setBit (by simp [Dev.filedStatus, hfull])
  case cls =>
    rw [hstatus]
    exact testBit_elim_setBit hclass
  case reach =>
    rw [hrstat, if_pos (decide_eq_true hreach), Tbl.getD_upd, testBit_setBit, decide_eq_true rfl, Bool.or_true]
  case seq => rw [hseq, hinj, if_neg Bool.false_ne_true, Tbl.getD_set]
  case malformed =>
    rw [hstatus, lostRedundancy, hbad]
    exact Dev.testBit_filedStatus m inj d hk
  case redundancy =>
    rw [hstatus, lostRedundancy, hgood, hinj]
    simp [hb]
  case fatal =>
    have hfatalCls : recordedClass m = 2 := recordedClass_of_fatal hcls
    refine ⟨by rw [hfatal, hfatalCls]; rfl, ?_⟩
    obtain ⟨_, _, _, _, -, -, htake⟩ := d.takeFault_eq mode m inj
    rw [htake, Dev.stopIfFatal, if_pos hfatalCls]

end Sys2Proof.Machine
end

section
/-! Clearing FAULT_STATUS (R397): the bits, the snapshots and the response. -/

namespace Sys2Proof.Machine

/-- A table without the keys that `p` holds of. -/
theorem Tbl.get?_filter_key {κ α : Type} [DecidableEq κ] (t : Tbl κ α) (p : κ → Bool) (k : κ) :
    Tbl.get? (t.filter fun e => ! p e.1) k = if p k then none else t.get? k := by
  induction t with
  | nil => simp [Tbl.get?]
  | cons e t ih =>
    obtain ⟨a, v⟩ := e
    by_cases hkey : a = k
    · subst hkey
      cases hp : p a <;> simp [Tbl.get?, ih, hp]
    · cases hp : p a <;> simp [Tbl.get?, ih, hp, hkey]

section
variable (mode : Mode) (mask : Nat) (d : Dev)

/-- The snapshots after a clear of a scope. -/
def Dev.keptSnaps (scope : Nat) : Tbl (Nat × Nat) Hist := d.flt.snaps.filter fun e => ! (e.1.1 == scope && mask.testBit e.1.2)

/-- A clear of a Reach's scope. -/
theorem Dev.clearFault_of_reach {r : Nat} (h : r < 32) : d.clearFault mode r mask =
    d.onFlt fun f => { f with rstat := f.rstat.upd r 0 (fun v => maskOff v (mask % 8) 3), snaps := d.keptSnaps mask r } := if_pos h

/-- The status that a clear of the device's scope leaves: a redundancy bit whose cause is present stays. -/
def Dev.clearedStatus : Nat :=
  bitsOf (fun k => d.flt.status.testBit k && (! mask.testBit k || (decide (k ≥ 32) && d.causes.testBit k))) 44

/-- A clear of the device's scope leaves that status and the snapshots of the classes kept. -/
theorem Dev.clearFault_device_flt :
    (d.clearFault mode 32 mask).flt = { d.flt with status := d.clearedStatus mask, snaps := d.keptSnaps mask 32 } := by
  unfold Dev.clearFault
  rw [if_neg (Nat.lt_irrefl 32)]
  dsimp only
  split
  · split
    · simp [Dev.clearedStatus, Dev.keptSnaps]
    · split
      · split <;> simp [Dev.clearedStatus, Dev.keptSnaps]
      · simp [Dev.clearedStatus, Dev.keptSnaps]
  · rfl

theorem Dev.clearFault_snaps {sc : Nat} (h : sc ≤ 32) : (d.clearFault mode sc mask).flt.snaps = d.keptSnaps mask sc := by
  obtain hlt | rfl := Nat.lt_or_eq_of_le h
  · rw [d.clearFault_of_reach mode mask hlt, Dev.onFlt_flt]
  · rw [Dev.clearFault_device_flt]

theorem Dev.get?_keptSnaps (sc x cls : Nat) :
    (d.keptSnaps mask sc).get? (x, cls) = if (x == sc && mask.testBit cls) = true then none else d.flt.snaps.get? (x, cls) :=
  Tbl.get?_filter_key d.flt.snaps (fun k => k.1 == sc && mask.testBit k.2) (x, cls)

end

/-- Settles O51: the status of each scope is spelled bit by bit, and the snapshots kept are those of other scopes and classes. -/
theorem faultClear : Obligations.FaultClear := by
  refine ⟨fun mode mask d k hk => ?device, fun mode mask d r k hr hk => ?reach, fun mode mask d sc cls hsc hcls => ?released,
    fun mode mask d sc cls x hsc hkeep => ?kept, fun c => rfl⟩
  case device =>
    rw [Dev.clearFault_device_flt, Dev.clearedStatus, testBit_bitsOf, decide_eq_true hk, Bool.true_and, Bool.not_and, Bool.not_not]
  case reach =>
    have hmask : (mask % 8).testBit k = mask.testBit k := by
      rw [show 8 = 2 ^ 3 by rfl, Nat.testBit_mod_two_pow, decide_eq_true hk, Bool.true_and]
    have hstatus (e : Dev) : (e.faultStatus r).testBit k = (e.flt.rstat.getD r 0).testBit k := by
      rw [Dev.faultStatus, if_neg (Nat.not_le.mpr hr), show 8 = 2 ^ 3 by rfl, Nat.testBit_mod_two_pow, decide_eq_true hk, Bool.true_and]
    rw [hstatus, hstatus, d.clearFault_of_reach mode mask hr, Dev.onFlt_flt, Tbl.getD_upd, maskOff, testBit_bitsOf, hmask,
      decide_eq_true hk, Bool.true_and]
  case released => rw [Dev.clearFault_snaps mode mask d hsc, Dev.get?_keptSnaps, if_pos (by simp [hcls])]
  case kept =>
    rw [Dev.clearFault_snaps mode mask d hsc, Dev.get?_keptSnaps, if_neg]
    obtain hscope | hclass := hkeep
    · simp [hscope]
    · simp [hclass]

end Sys2Proof.Machine
end

section
/-! Counters and time (R98, R223, R359, R419, R456). -/
namespace Sys2Proof.Machine

section
variable {c : Counter} {n : Nat}

theorem Counter.add_of_lt (h : c.value + n < 2 ^ 48) : c.add n = { c with value := c.value + n } := if_pos h

/-- A count past the range leaves the excess, with sample_arm the reload value on it (R419). -/
theorem Counter.add_of_wraps (hval : c.value < 2 ^ 48) (hn : n ≤ 2 ^ 48) (h : 2 ^ 48 ≤ c.value + n) : c.add n = { c with
    value := (c.value + n - 2 ^ 48 + if c.cfg.testBit 49 then c.reload else 0) % 2 ^ 48, ovf := true } := by
  have hexcess : (c.value + n) % 2 ^ 48 = c.value + n - 2 ^ 48 := by omega
  rw [Counter.add, if_neg (Nat.not_lt.mpr h), hexcess]

end

/-- Settles O52: below 2^48 a count adds; past it the excess is what remains. -/
theorem counterWrap : Obligations.CounterWrap := by
  refine ⟨fun c n => Counter.add_of_lt, fun c n hval hn h harm => ?_, fun c n hval hn h harm hfits => ?_⟩
  · rw [Counter.add_of_wraps hval hn h, harm, if_neg Bool.false_ne_true, Nat.add_zero, Nat.mod_eq_of_lt (by omega)]
  · rw [Counter.add_of_wraps hval hn h, harm, if_pos rfl, Nat.mod_eq_of_lt hfits]

/-! ### Time -/

section
variable (c : Clk) (a b : Nat)

@[simp] theorem Clk.elapse_slew : (c.elapse a).slew = c.slew - c.slewBy a := rfl

/-- Slewing takes up part of what is left to slew, within the room that the time gives (R223). -/
theorem Clk.slewBy_bounds : (c.slewBy a).natAbs ≤ c.slew.natAbs ∧ (c.slewBy a).natAbs ≤ (c.slewT + a) / 125 := by
  unfold Clk.slewBy
  dsimp only
  split <;> omega

/-- The part of a step of slewing that has passed stays below the step. -/
theorem Clk.elapse_slewT_lt : (c.elapse a).slewT < 125 := by
  simp only [Clk.elapse]
  split
  · decide
  · exact Nat.mod_lt _ (by decide)

/-- The slewing of two times is that of their sum. -/
theorem Clk.slewBy_add : c.slewBy a + (c.elapse a).slewBy b = c.slewBy (a + b) := by
  obtain hneg | hzero | hpos := Int.lt_trichotomy c.slew 0
  · simp only [Clk.slewBy, Clk.elapse, if_neg (Int.not_le.mpr hneg), if_neg (Int.ne_of_lt hneg), ge_iff_le]
    omega
  · simp only [Clk.slewBy, Clk.elapse, hzero, ge_iff_le, le_refl, if_true]
    omega
  · simp only [Clk.slewBy, Clk.elapse, if_pos (Int.le_of_lt hpos), if_neg (Int.ne_of_gt hpos), ge_iff_le]
    omega

/-- The timebase advances by the time and the slewing, modulo its range (R223, R456). -/
theorem Clk.elapse_tb48 (h : c.slewT < 125) :
    ((c.elapse a).tb48 : Int) = ((c.tb48 : Int) + 8 * (a : Int) + c.slewBy a) % (2 ^ 40 * 48) := by
  obtain ⟨-, hroom⟩ := c.slewBy_bounds a
  simp only [Clk.elapse]
  omega

/-- The fabric cycles of two times are those of their sum (R98). -/
theorem Clk.elapse_add_cyc :
    ((c.elapse a).elapse b).cyc = (c.elapse (a + b)).cyc ∧ ((c.elapse a).elapse b).rem6 = (c.elapse (a + b)).rem6 := by
  cases hslow : c.slow with
  | false =>
    simp only [Clk.elapse, hslow, Bool.false_eq_true, if_false]
    omega
  | true =>
    simp only [Clk.elapse, hslow, if_true]
    omega

theorem Clk.elapse_add_tb48 (h : c.slewT < 125) : ((c.elapse a).elapse b).tb48 = (c.elapse (a + b)).tb48 := by
  have hfirst := c.elapse_tb48 a h
  have hsecond := (c.elapse a).elapse_tb48 b (c.elapse_slewT_lt a)
  have hsum := c.elapse_tb48 (a + b) h
  rw [← c.slewBy_add a b] at hsum
  omega

end

/-- A time less than 2^39 ns ahead is at or after the other, and not before it (R456). -/
theorem tGe_ahead {a b : Nat} (ha : a < 2 ^ 40) (hb : b < 2 ^ 39) (hpos : 0 < b) :
    tGe ((a + b) % 2 ^ 40) a = true ∧ tGe a ((a + b) % 2 ^ 40) = false := by
  refine ⟨decide_eq_true ?_, decide_eq_false ?_⟩
  all_goals omega

/-- Settles O47: each figure of the clock adds up, slewing keeps its bounds, and an epoch lies one rounding beyond its 2,000 ns. -/
theorem timebase : Obligations.Timebase := by
  refine ⟨fun c a b hslew => ?adds, fun c a hslew => ?slews, fun a b => tGe_ahead, fun t ht => ?epoch⟩
  case adds =>
    obtain ⟨hcyc, hrem⟩ := c.elapse_add_cyc a b
    refine ⟨Nat.add_assoc .., c.elapse_add_tb48 a b hslew, hcyc, hrem, ?_⟩
    rw [Clk.elapse_slew, Clk.elapse_slew, Clk.elapse_slew, ← c.slewBy_add a b, sub_sub]
  case slews =>
    obtain ⟨hleft, hroom⟩ := c.slewBy_bounds a
    exact ⟨c.slewBy a, rfl, hleft, hroom, c.elapse_tb48 a hslew, c.elapse_slewT_lt a⟩
  case epoch =>
    simp only [epochAfter, ceilTo]
    omega

end Sys2Proof.Machine
end

section
/-! The Bilod commands: each row serves its command, whose body answers and acts as the tables of its chapter say. -/

namespace Sys2Proof.Machine

/-- An accepted frame whose row serves a command has that command's effect and reply. -/
theorem exec_of_accepts {i : Instr} {k : Cmd} {dt : Nat} {f : Frame} {s : State} (hrow : exec i s = bilod k dt f s)
    (h : k.accepts f s.mode s.profile (s.elapse dt).dev = true) :
    exec i s = .next ((s.elapse dt).onDev fun d =>
      let r := k.body { m := s.mode, p := s.profile, d := d.served f, f := f }
      r.1.reply f k.op r.2) := by
  rw [hrow, bilod, State.onDev, Cmd.serve_of_accepts h]
  rfl

/-- The same where the body's result in the frame's own context is known. -/
theorem exec_of_body {i : Instr} {k : Cmd} {dt : Nat} {f : Frame} {s : State} {r : Dev × Reply} (hrow : exec i s = bilod k dt f s)
    (h : k.accepts f s.mode s.profile (s.elapse dt).dev = true) (hbody : k.body ((s.elapse dt).ctx f) = r) :
    exec i s = .next ((s.elapse dt).onDev fun _ => r.1.reply f k.op r.2) := by
  rw [exec_of_accepts hrow h, State.onDev, State.onDev, ← hbody]
  rfl

/-! ### Modes -/

/-- SERVICE_END sets the epoch of the end on the operation in progress (Table MODE-7). -/
theorem Dev.serviceEnds_true (d : Dev) :
    d.serviceEnds true = d.onCtl fun x => { x with svc := x.svc.map fun v => { v with endAt := some (epochAfter d.now) } } := by
  unfold Dev.serviceEnds
  split
  next v hsvc => simp [Dev.onCtl, hsvc]
  next hsvc =>
    have hkept : (d.ctl.svc.map fun v => { v with endAt := some (epochAfter d.now) }) = d.ctl.svc := by rw [hsvc]; rfl
    simp only [Dev.onCtl, hkept]

/-- Settles O1: each row serves its command; MODE_SET is the long command or the simple one by its target. -/
theorem modeCommands : Obligations.ModeCommands := by
  refine ⟨?get, fun dt f s hlong h => ?long, fun dt f s hlong h => ?simple, ?begins, ?ends⟩
  case get => exact .of_body (fun _ _ _ => rfl) fun _ => rfl
  case long =>
    have hrow : exec (.modeSet dt f) s = bilod (cmdModeSet (modeSetLong f)) dt f s := rfl
    exact exec_of_accepts (hrow.trans (by rw [hlong])) h
  case simple =>
    have hrow : exec (.modeSet dt f) s = bilod (cmdModeSet (modeSetLong f)) dt f s := rfl
    exact exec_of_accepts (hrow.trans (by rw [hlong])) h
  case begins => exact .of_body (fun _ _ _ => rfl) fun _ => rfl
  case ends => exact .of_body (fun _ _ _ => rfl) fun c => congrArg (·, Reply.done []) c.d.serviceEnds_true

/-! ### Reading commands -/

/-- RULE_LOOKUP shows outcome 4 where the gate is shut, and the rule found in either case (Table RULE-5). -/
theorem ruleLookup_body (c : Ctx) : cmdRuleLookup.body c = (c.d, .done (
    let stg := (c.u8 2).testBit 1
    let k := c.d.lookup stg c.p.isSecure (c.u8 0) (c.u8 1) ((c.u8 2).testBit 0) (c.u64 4)
    let shut := (c.u8 2).testBit 2 && ! c.d.gateGrants stg (c.u8 3) (c.u8 1) (c.u64 4) 1
    nb 1 (if shut then 4 else k.outcome) ++ zeros 1 ++ nb 2 k.rule ++ nb 2 k.desc)) := by
  simp only [cmdRuleLookup]
  split <;> rfl

/-- LANE_EYE_GET answers with the parts of the result held (Table LANE-10). -/
theorem laneEyeGet_body (c : Ctx) : cmdLaneEyeGet.body c = (c.d, .done (
    match (c.d.phy.scan.getD (c.u8 0, c.u8 1) {}).res with
    | some r => nb 2 r.1 ++ nb 2 r.2.1 ++ r.2.2.flatMap (nb 4)
    | none => [])) := by
  simp only [cmdLaneEyeGet, reads]
  split
  next hres => rw [hres]
  next hres => rw [hres]

/-- Settles O3: each row serves its command, which answers with the payload named. -/
theorem admissionReads : Obligations.AdmissionReads := by
  refine ⟨?_, ?_, ?_, ?_, ?_, ?_, ?lookup, ?_, ?_, ?_, ?_, ?_, ?_, ?_, ?_⟩
  case lookup => exact .of_body (fun _ _ _ => rfl) ruleLookup_body
  all_goals exact .of_body (fun _ _ _ => rfl) fun _ => rfl

/-- Settles O4: each row serves its command, which answers with the payload named. -/
theorem linkReads : Obligations.LinkReads := by
  refine ⟨?_, ?_, ?_, ?_, ?_, ?_, ?_, ?_, ?_, ?_, ?eye, ?_, ?_, ?_⟩
  case eye => exact .of_body (fun _ _ _ => rfl) laneEyeGet_body
  all_goals exact .of_body (fun _ _ _ => rfl) fun _ => rfl

/-- Settles O5: each row serves its command, which answers with the payload named. -/
theorem managementReads : Obligations.ManagementReads := by
  refine ⟨?_, ?_, ?_, ?_, ?_, ?_, ?_, ?_, ?_, ?_, ?_, ?_, ?_, ?_, ?_, ?_, ?_, ?_, ?_, ?_, ?_, ?_, ?_, ?_, ?_, ?_, ?_⟩
  all_goals exact .of_body (fun _ _ _ => rfl) fun _ => rfl

/-! ### The data path -/

section
variable (c : Ctx)

/-- FABRIC_FLUSH on no link ends at once, and else flushes each link (Table ORDER-7). -/
theorem fabricFlush_body : cmdFabricFlush.body c =
    if c.flushLinks.isEmpty then (c.d, .ended .success (nb 4 0))
    else (c.flushLinks.foldl (fun d l => d.flushLink (c.f.mbx, c.f.tag) l)
      (c.d.onOrd fun o => { o with flushed := o.flushed.set (c.f.mbx, c.f.tag) (c.flushLinks.length, 0) }), .started []) := by
  simp only [cmdFabricFlush]
  split
  next hnone => rw [hnone]; rfl
  next hsome => rw [if_neg (by simpa using hsome)]

/-- Bits [1:0] read 0 where neither is set. -/
theorem bits_one_zero_eq_zero_iff (v : Nat) : bits v 1 0 = 0 ↔ ¬ (v.testBit 0 = true ∨ v.testBit 1 = true) := by
  simp only [bits, Nat.testBit_eq_decide_div_mod_eq, decide_eq_true_eq]
  omega

/-- IGGEVO_LANE_WIDTH_SET with no direction named ends at once, and else begins the changes (Table LINK-10). -/
theorem iggevoLaneWidthSet_body : cmdIggevoLaneWidthSet.body c =
    if (c.u8 3).testBit 0 ∨ (c.u8 3).testBit 1 then
      ((if (c.u8 3).testBit 0 then c.d.startChange (c.u16 0) (c.u8 2) else c.d).onIg (c.u16 0) fun g => { g with
        widthLong := some (c.f.mbx, c.f.tag), req := if (c.u8 3).testBit 1 then some (c.u8 2) else g.req }, .started [])
    else (c.d, .ended .success []) := by
  simp only [cmdIggevoLaneWidthSet, bits_one_zero_eq_zero_iff, ite_not]

/-- LOCK_RELEASE runs until a lock that is releasing has ended (Table BRIDGE-8). -/
theorem lockRelease_body : cmdLockRelease.body c =
    (c.d.forceLock (c.u8 0) 0 (some (c.f.mbx, c.f.tag)),
      if ((c.d.forceLock (c.u8 0) 0 (some (c.f.mbx, c.f.tag))).brg.near.get? (c.u8 0)).map (·.st) = some .releasing then .started []
      else .ended .success []) := by
  simp only [cmdLockRelease]
  split
  next k hlock => simp [hlock]
  next hlock => simp [hlock]

end

/-- An accepted BASIN_FILL writes its parts to the Basin memory (Table BASIN-6). -/
theorem exec_basinFill_of_accepts {dt : Nat} {f : Frame} {s : State} (h : cmdBasinFill.accepts f s.mode s.profile (s.elapse dt).dev = true) :
    ∃ d, exec (.basinFill dt f) s = .next { s.elapse dt with dev := d, mem := ((s.elapse dt).ctx f).filled s.mem } := by
  have hrow : exec (.basinFill dt f) s = execBasinFill dt f s := rfl
  refine ⟨cmdBasinFill.serve f s.mode s.profile (s.elapse dt).dev, ?_⟩
  rw [hrow, execBasinFill]
  dsimp only
  rw [if_pos (show cmdBasinFill.accepts f (s.elapse dt).mode (s.elapse dt).profile (s.elapse dt).dev = true from h)]
  rfl

/-- Settles O6: each row serves its command, whose body acts as said. -/
theorem trafficCommands : Obligations.TrafficCommands := by
  refine ⟨?_, ?_, ?_, ?_, fun dt f s => exec_basinFill_of_accepts, ?flush, ?width, ?_, ?lock⟩
  case flush => exact .of_body (fun _ _ _ => rfl) fabricFlush_body
  case width => exact .of_body (fun _ _ _ => rfl) iggevoLaneWidthSet_body
  case lock => exact .of_body (fun _ _ _ => rfl) lockRelease_body
  all_goals exact .of_body (fun _ _ _ => rfl) fun _ => rfl

/-! ### Lanes, ports, slots and power -/

/-- A pattern checker runs on a lane of a tile (Table LANE-10). -/
def Dev.laneChecked (d : Dev) (t n : Nat) : Bool :=
  match d.phy.test.get? t with
  | some x => x.mask.testBit n && decide (1 ≤ x.fn) && decide (x.fn ≤ 3)
  | none => false

/-- One lane's count of errors: a draw where its checker runs, and 0 elsewhere. -/
def drawErrors (on : Nat → Bool) (acc : List Nat × Dev) (n : Nat) : List Nat × Dev :=
  if on n then (acc.1 ++ [(acc.2.drawNat (2 ^ 32)).1], (acc.2.drawNat (2 ^ 32)).2) else (acc.1 ++ [0], acc.2)

/-- The draws advance the counter of free values alone, and give one count per lane. -/
theorem foldl_drawErrors (on : Nat → Bool) (l : List Nat) (acc : List Nat × Dev) :
    ∃ n, (l.foldl (drawErrors on) acc).2 = { acc.2 with free := n } ∧ (l.foldl (drawErrors on) acc).1.length = acc.1.length + l.length := by
  induction l generalizing acc with
  | nil => exact ⟨acc.2.free, rfl, rfl⟩
  | cons k l ih =>
    obtain ⟨n, hdev, hlen⟩ := ih (drawErrors on acc k)
    have hone : (drawErrors on acc k).1.length = acc.1.length + 1
        ∧ ({ (drawErrors on acc k).2 with free := n } : Dev) = { acc.2 with free := n } := by
      unfold drawErrors
      split <;> exact ⟨List.length_append, rfl⟩
    rw [hone.1, Nat.add_assoc, Nat.add_comm 1] at hlen
    exact ⟨n, hdev.trans hone.2, hlen⟩

theorem laneTestGet_body_eq (c : Ctx) : cmdLaneTestGet.body c =
    let on := c.d.laneChecked (c.u8 0)
    let seen := c.d.drawNat (2 ^ 10)
    let r := (List.range 10).foldl (drawErrors on) ([], seen.2)
    (r.2, .done (nb 2 (bitsOf (fun n => on n && seen.1.testBit n) 10) ++ r.1.flatMap (nb 4))) := by
  simp only [cmdLaneTestGet]
  rfl

/-- The numbers of a list in `k` bytes each. -/
theorem length_flatMap_nb (k : Nat) (l : List Nat) : (l.flatMap (nb k)).length = k * l.length := by
  induction l with
  | nil => rfl
  | cons v l ih => rw [List.flatMap_cons, List.length_append, nb_length, ih, List.length_cons, Nat.mul_succ, Nat.add_comm]

/-- LANE_TEST_GET draws free values and answers with 42 bytes (Table LANE-10). -/
theorem laneTestGet_body (c : Ctx) : ∃ n b, b.length = 42 ∧ cmdLaneTestGet.body c = ({ c.d with free := n }, .done b) := by
  obtain ⟨n, hdev, hlen⟩ := foldl_drawErrors (c.d.laneChecked (c.u8 0)) (List.range 10) ([], (c.d.drawNat (2 ^ 10)).2)
  refine ⟨n, _, ?_, (laneTestGet_body_eq c).trans (Prod.ext hdev rfl)⟩
  rw [List.length_append, nb_length, length_flatMap_nb, hlen, List.length_range]
  rfl

/-- LANE_STATUS_GET of a live lane draws what its counter of errors shows (Table LANE-10, assumption 12). -/
theorem laneStatusGet_body (c : Ctx) : cmdLaneStatusGet.body c =
    let t := c.u8 0
    let n := c.u8 1
    let x := c.d.lane t n
    let live := c.d.laneLive t n
    let errs := if live then (Sys2Proof.Config.freeWord c.d.free).toNat % 2 ^ 32 else 0
    let d := if live then { c.d with free := c.d.free + 1 } else c.d
    let rate := if ! live then 0xFF else if c.d.tileCode t = 3 then 7
      else (c.d.port (c.d.laneLink t (if n = 9 then (c.d.sparedLane t).getD 0 else n))).rate
    (d, .done (nb 1 (c.d.laneState t n) ++ nb 1 (c.d.laneLogical t n) ++ nb 1 rate
      ++ nb 1 (b2n x.inv + 2 * b2n x.los + 4 * b2n x.lol + 8 * b2n x.rev) ++ nb 1 x.ctle ++ zeros 1
      ++ ((List.range 12).flatMap fun k => intBytes 1 (x.dfe.getD k 0)) ++ nb 2 x.eyeH ++ nb 2 x.eyeW ++ nb 4 errs ++ nb 4 x.cal
      ++ zeros 2)) := by
  simp only [cmdLaneStatusGet]
  cases c.d.laneLive (c.u8 0) (c.u8 1) <;> rfl

/-- Settles O7: each row serves its command, whose body acts as said; VPPB_UNBIND is the long command or the simple one by its option. -/
theorem physicalCommands : Obligations.PhysicalCommands := by
  refine ⟨?status, ?_, ?_, ?_, fun dt f s h => ?test, ?_, ?_, ?_, fun dt f s hopt h => ?unbindLong, fun dt f s hopt h => ?unbind,
    ?_, ?_, ?_, ?_, ?_, ?_, ?_, ?_⟩
  case status => exact .of_body (fun _ _ _ => rfl) laneStatusGet_body
  case test =>
    obtain ⟨n, b, hlen, hbody⟩ := laneTestGet_body ((s.elapse dt).ctx f)
    have hrow : exec (.laneTestGet dt f) s = bilod cmdLaneTestGet dt f s := rfl
    refine ⟨n, b, hlen, (exec_of_body hrow h hbody).trans ?_⟩
    rw [State.onDev, State.onDev]
    rfl
  case unbindLong =>
    have hrow : exec (.vppbUnbind dt f) s = bilod (cmdVppbUnbind (decide (byteAt f.payload 3 < 2))) dt f s := rfl
    exact exec_of_accepts (hrow.trans (by rw [decide_eq_true hopt])) h
  case unbind =>
    have hrow : exec (.vppbUnbind dt f) s = bilod (cmdVppbUnbind (decide (byteAt f.payload 3 < 2))) dt f s := rfl
    exact exec_of_accepts (hrow.trans (by rw [decide_eq_false hopt])) h
  all_goals exact .of_body (fun _ _ _ => rfl) fun _ => rfl

/-! ### Mailboxes, faults, telemetry and images -/

/-- COUNTER_WRITE answers with the overflow bit that it leaves (Table TELE-10). -/
theorem counterWrite_body (c : Ctx) : cmdCounterWrite.body c =
    let key := (c.blk, c.u8 2)
    let x := c.d.tele.ctr.getD key {}
    let y : Counter := { x with
      value := if (c.u8 3).testBit 0 then leN c.f.payload 4 6 else x.value, ovf := x.ovf && ! (c.u8 3).testBit 1 }
    (c.d.onTele fun t => { t with ctr := t.ctr.set key y }, .done (nb 1 (b2n y.ovf))) := by
  simp only [cmdCounterWrite, Tbl.upd, Dev.onTele, Tbl.getD_set]
  cases (c.u8 3).testBit 0 <;> cases (c.u8 3).testBit 1 <;> simp

/-- IMAGE_FINISH invalidates the copy that fails its check, and else begins to program it (Table IMAGE-5). -/
theorem imageFinish_body (c : Ctx) : cmdImageFinish.body c =
    let k := c.d.inactive (c.u8 0)
    match c.d.finish (c.u8 0) (c.u32 4) with
    | .error e =>
      let d := c.d.onImg fun i => { i with copy := i.copy.upd k {} fun x => { x with valid := false } }
      (if c.u8 0 = 1 then d.audit .imageRejected 0xFF (some c.f.mbx) e.1.code else d, .ended e.1 e.2)
    | .ok x => (c.d.startFlash {
        op := 0xB003, mbx := c.f.mbx, tag := c.f.tag, copy := k, after := x, reply := nb 4 x.seq }, .started []) := by
  simp only [cmdImageFinish]
  cases c.d.finish (c.u8 0) (c.u32 4) <;> rfl

/-- Settles O8: each row serves its command, whose body acts as said; COMMIT is the long command or the simple one by what it waits for. -/
theorem managementCommands : Obligations.ManagementCommands := by
  refine ⟨?_, ?_, ?_, fun dt f s hwaits h => ?commitLong, fun dt f s hwaits h => ?commit, ?_, ?_, ?_, ?_, ?_, ?_, ?write, ?_, ?_, ?_, ?_,
    ?_, ?_, ?_, ?_, ?finish, ?_, ?_⟩
  case commitLong =>
    have hrow : exec (.commit dt f) s = bilod (cmdCommit ((s.elapse dt).dev.commitWaits (commitSet f))) dt f s := rfl
    exact exec_of_accepts (hrow.trans (by rw [hwaits])) h
  case commit =>
    have hrow : exec (.commit dt f) s = bilod (cmdCommit ((s.elapse dt).dev.commitWaits (commitSet f))) dt f s := rfl
    exact exec_of_accepts (hrow.trans (by rw [hwaits])) h
  case write => exact .of_body (fun _ _ _ => rfl) counterWrite_body
  case finish => exact .of_body (fun _ _ _ => rfl) imageFinish_body
  all_goals exact .of_body (fun _ _ _ => rfl) fun _ => rfl

end Sys2Proof.Machine
end

section
/-! Security (chapter 16): the acting commands of Table SEC-5, and the events of SPDM, tamper, entropy and what expires. -/

namespace Sys2Proof.Machine

/-! ### Commands -/

section
variable {c : Ctx} {h : Challenge}

/-- A proof that matches the challenge opens a session (R379, R380). -/
theorem openSession_body_of_proof (hchal : c.d.challenge (c.u8 0) c.f.mbx = some h)
    (hproof : slice c.f.payload 52 48 = hostProof (c.d.cred (c.u8 0)).key h.nonce (slice c.f.payload 4 48) (c.u8 0) c.f.mbx) :
    cmdOpenSession.body c =
      let k := c.d.cred (c.u8 0)
      let r := (c.d.useChallenge (c.u8 0) c.f.mbx).drawId
      let d := (r.2.onCred (c.u8 0) fun k => { k with fails := 0, k := 0 }).onSec fun y => { y with sessions := y.sessions ++
        [{ id := r.1, slot := c.u8 0, role := k.role, mbx := c.f.mbx, last6 := c.d.clk.t6, factory := k.factory }] }
      (d.audit .opened (c.u8 0) (some c.f.mbx) 0,
        .done (nb 4 r.1 ++ nb 1 k.role ++ zeros 3 ++ devProof k.key h.nonce (slice c.f.payload 4 48) r.1)) := by
  simp only [cmdOpenSession, hchal]
  rw [if_pos hproof]
  rfl

/-- Another proof uses the challenge up and fails (R379, R381). -/
theorem openSession_body_of_wrongProof (hchal : c.d.challenge (c.u8 0) c.f.mbx = some h)
    (hproof : slice c.f.payload 52 48 ≠ hostProof (c.d.cred (c.u8 0)).key h.nonce (slice c.f.payload 4 48) (c.u8 0) c.f.mbx) :
    cmdOpenSession.body c = ((c.d.useChallenge (c.u8 0) c.f.mbx).failedOpen (c.u8 0) c.f.mbx, .fail (plain .accessDenied)) := by
  simp only [cmdOpenSession, hchal]
  rw [if_neg hproof]

/-- Without a challenge the attempt fails (R379, R381). -/
theorem openSession_body_of_noChallenge (hchal : c.d.challenge (c.u8 0) c.f.mbx = none) :
    cmdOpenSession.body c = (c.d.failedOpen (c.u8 0) c.f.mbx, .fail (plain .accessDenied)) := by
  simp only [cmdOpenSession, hchal]

end

theorem exec_openSession (dt : Nat) (f : Frame) (s : State) : exec (.openSession dt f) s = bilod cmdOpenSession dt f s := rfl

/-- An accepted command after whose answer the device zeroizes (R384, R386). -/
theorem thenZeroize_of_accepts {k : Cmd} {cause dt : Nat} {after : Dev → Dev} {f : Frame} {s : State}
    (hbody : k.body = changes (·.d)) (h : k.accepts f s.mode s.profile (s.elapse dt).dev = true) :
    thenZeroize k cause after dt f s =
      .next ((((s.elapse dt).onDev fun d => (d.served f).respond f k.op .success []).zeroize cause).onDev after) := by
  have hserve : (s.elapse dt).onDev (k.serve f s.mode s.profile) =
      (s.elapse dt).onDev fun d => (d.served f).respond f k.op .success [] := by
    rw [State.onDev, Cmd.serve_of_accepts h, hbody]
    rfl
  rw [← hserve]
  exact congrArg Host.Outcome.next (if_pos h)

/-- Settles O9: each row serves its command, whose body acts as said; OPEN_SESSION in the three cases of its challenge. -/
theorem securityCommands : Obligations.SecurityCommands := by
  refine ⟨?challenge, ?opened, ?closed, ?credential, ?tests, ?audit, fun dt f s h => ?zeroize, fun dt f s h => ?debug⟩
  case challenge => exact .of_body (fun _ _ _ => rfl) fun _ => rfl
  case opened =>
    intro dt f s haccepts
    refine ⟨fun h hchal hproof => ?_, fun h hchal hproof => ?_, fun hchal => ?_⟩
    · exact exec_of_body (exec_openSession dt f s) haccepts (openSession_body_of_proof (c := (s.elapse dt).ctx f) hchal hproof)
    · exact exec_of_body (exec_openSession dt f s) haccepts (openSession_body_of_wrongProof (c := (s.elapse dt).ctx f) hchal hproof)
    · exact exec_of_body (exec_openSession dt f s) haccepts (openSession_body_of_noChallenge (c := (s.elapse dt).ctx f) hchal)
  case closed => exact .of_body (fun _ _ _ => rfl) fun _ => rfl
  case credential =>
    refine .of_body (fun _ _ _ => rfl) fun c => ?_
    simp only [cmdCredentialSet, changes]
    split <;> rfl
  case tests => exact .of_body (fun _ _ _ => rfl) fun _ => rfl
  case audit => exact .of_body (fun _ _ _ => rfl) fun _ => rfl
  case zeroize => exact thenZeroize_of_accepts rfl h
  case debug => exact thenZeroize_of_accepts rfl h

/-! ### Events -/

/-- Settles O22: in each clause the conditions named decide the branches of the row. -/
theorem securityEvents : Obligations.SecurityEvents := by
  refine ⟨?unlisted, ?errorState, ?answered, fun dt s cause hm => ?tamper, ?shelfTamper, ?vstbyLoss, ?seeded, ?restarts, ?thirdRestart,
    ?testFails, ?reseed, ?idle, ?expiry, ?lockout⟩
  case unlisted =>
    exact fun port req => .of_event (execSpdmRequest · port req) (fun _ _ => ⟨rfl, rfl⟩) fun m p d ⟨hserved, hrule⟩ => by
      simp [hserved, hrule]
  case errorState =>
    exact fun port req r => .of_event (execSpdmRequest · port req) (fun _ _ => ⟨rfl, rfl⟩) fun m p d ⟨hserved, hrule, herr⟩ => by
      simp [hserved, hrule, herr]
  case answered =>
    refine fun port req code need next => .of_event (execSpdmRequest · port req) (fun _ _ => ⟨rfl, rfl⟩)
      fun m p d ⟨hserved, hrule, herr, hneed, hkey, hmeas⟩ => ?_
    have horder : ¬ d.spdmState port < need := Nat.not_lt.mpr hneed
    cases req with
    | getMeasurements i => exact absurd rfl (hmeas i)
    | _ => simp [hserved, hrule, herr, horder, hkey]
  case tamper => exact congrArg Host.Outcome.next (if_neg hm)
  case shelfTamper =>
    exact .of_event (execShelfTamperSample · true) (fun _ _ => ⟨rfl, rfl⟩) fun m _ d hm => if_pos (by simp [hm])
  case vstbyLoss => exact .of_event execVstbyLoss (fun _ _ => ⟨rfl, rfl⟩) fun _ _ _ _ => rfl
  case seeded =>
    exact .of_event (execEntropyStartupDone · true) (fun _ _ => ⟨rfl, rfl⟩) fun m _ d ⟨hm, hseed⟩ => if_neg (by simp [hm, hseed])
  case restarts =>
    exact .of_event (execEntropyStartupDone · false) (fun _ _ => ⟨rfl, rfl⟩) fun m _ d ⟨hm, hseed, hfew⟩ => by
      have hthird : ¬ 3 ≤ d.sec.restarts + 1 := by omega
      simp [hm, hseed, hthird, Dev.onSec]
  case thirdRestart =>
    exact .of_event (execEntropyStartupDone · false) (fun _ _ => ⟨rfl, rfl⟩) fun m _ d ⟨hm, hseed, hmany, herr⟩ => by
      have hthird : 3 ≤ d.sec.restarts + 1 := by omega
      simp [hm, hseed, hthird, herr]
  case testFails => exact .of_event execEntropyTestFail (fun _ _ => ⟨rfl, rfl⟩) fun m _ d hm => if_neg hm
  case reseed =>
    exact fun ok => .of_event (execDrbgReseed · ok) (fun _ _ => ⟨rfl, rfl⟩)
      fun m _ d ⟨hm, hseed, hdue⟩ => if_pos (by simpa [hm, hseed] using hdue)
  case idle => exact fun i => .of_event (execSessionTimeout · i) (fun _ _ => ⟨rfl, rfl⟩) fun _ _ _ _ => rfl
  case expiry => exact fun i mb => .of_event (execChallengeExpiry · i mb) (fun _ _ => ⟨rfl, rfl⟩) fun _ _ _ _ => rfl
  case lockout =>
    exact fun i => .of_event (execLockoutEnd · i) (fun _ _ => ⟨rfl, rfl⟩) fun _ _ d ⟨huntil, hfree⟩ => if_pos (by simp [huntil, hfree])

end Sys2Proof.Machine
end

section
/-! The rows of slot power (R433 to R442, Tables SLOT-2 and SLOT-3). -/

namespace Sys2Proof.Machine

section
variable {i : Nat → Instr} {ok : Mode → Profile → Dev → Prop} {g : Dev → Dev}
  (row : Nat → State → Host.Outcome State Fault Refusal)

/-- A row of slot power acts outside Shelf as its effect does where its condition holds. -/
theorem Acts.of_slotEvent {act : Dev → Dev} (hrow : ∀ dt s, exec (i dt) s = row dt s ∧ row dt s = slotEvent dt s g)
    (hg : ∀ m p d, ok m p d → m ≠ .shelf ∧ g d = act d) : Acts i ok fun _ _ d => act d :=
  .of_event row hrow fun m p d hok => (if_neg (hg m p d hok).1).trans (hg m p d hok).2

/-- A row of slot power leaves what its effect leaves outside Shelf where its condition holds. -/
theorem Leaves.of_slotEvent {post : Dev → Dev → Prop} (hrow : ∀ dt s, exec (i dt) s = row dt s ∧ row dt s = slotEvent dt s g)
    (hg : ∀ m p d, ok m p d → m ≠ .shelf ∧ post d (g d)) : Leaves i ok post :=
  .of_event row hrow fun m p d hok => by
    rw [if_neg (hg m p d hok).1]
    exact (hg m p d hok).2

end

section
variable {d : Dev} {t : Nat} {f : Chan → Chan}

@[simp] theorem Dev.onChan_chan : (d.onChan t f).chan t = f (d.chan t) := Tbl.getD_upd ..

@[simp] theorem Dev.onFeed_chan {g fd k : Nat} {h : Feed → Feed} : (d.onFeed g fd h).chan k = d.chan k := rfl

@[simp] theorem Dev.onFeed_slotCfg {g fd k : Nat} {h : Feed → Feed} : (d.onFeed g fd h).slotCfg k = d.slotCfg k := rfl

@[simp] theorem Dev.onChan_permits {k fd : Nat} : (d.onChan t f).permits k fd = d.permits k fd := rfl

@[simp] theorem Dev.onChan_feed {g fd : Nat} : (d.onChan t f).feed g fd = d.feed g fd := rfl

end

/-- Settles O24: in each clause the conditions named decide the branches of the row. -/
theorem slotEvents : Obligations.SlotEvents := by
  refine ⟨?valid, ?invalid, ?warning, ?warningClear, ?make, ?revert, ?ramp, ?rampFull, ?enhance, ?good, ?timeout, ?fast, ?breaker, ?retry,
    ?countClear, ?restart, ?under, ?underLost, ?flagged, ?sampled⟩
  case valid =>
    exact fun g fd mv => .of_slotEvent (execFeedValid · g fd mv) (fun _ _ => ⟨rfl, rfl⟩) fun m _ d ⟨hm, hvalid⟩ => ⟨hm, if_pos hvalid⟩
  case invalid =>
    exact fun g fd mv => .of_slotEvent (execFeedInvalid · g fd mv) (fun _ _ => ⟨rfl, rfl⟩) fun m _ d ⟨hm, hout⟩ => ⟨hm, if_pos hout⟩
  case warning =>
    exact fun g fd mv => .of_slotEvent (execFeedWarning · g fd mv) (fun _ _ => ⟨rfl, rfl⟩) fun m _ d ⟨hm, hfeed⟩ => ⟨hm, if_pos hfeed⟩
  case warningClear =>
    exact fun g fd mv => .of_slotEvent (execFeedWarningClear · g fd mv) (fun _ _ => ⟨rfl, rfl⟩)
      fun m _ d ⟨hm, hclear⟩ => ⟨hm, if_pos hclear⟩
  case make =>
    exact fun t => .of_slotEvent (execChangeoverMake · t) (fun _ _ => ⟨rfl, rfl⟩) fun m _ d ⟨hm, hst⟩ => ⟨hm, if_pos hst⟩
  case revert =>
    exact fun t => .of_slotEvent (execFeedRevert · t) (fun _ _ => ⟨rfl, rfl⟩) fun m _ d ⟨hm, hback⟩ => ⟨hm, if_pos hback⟩
  case ramp =>
    exact fun g i => .of_slotEvent (execRampStart · g) (fun _ _ => ⟨rfl, rfl⟩) fun m _ d ⟨hm, hroom, hnext⟩ =>
      ⟨hm, (if_pos hroom).trans (by rw [hnext])⟩
  case rampFull =>
    exact fun g => .of_slotEvent (execRampStart · g) (fun _ _ => ⟨rfl, rfl⟩) fun m _ d ⟨hm, hfull⟩ => ⟨hm, if_neg (Nat.not_lt.mpr hfull)⟩
  case enhance =>
    exact fun t mv => .of_slotEvent (execEnhancementStart · t mv) (fun _ _ => ⟨rfl, rfl⟩) fun m _ d ⟨hm, hnear⟩ => ⟨hm, if_pos hnear⟩
  case good =>
    exact fun t mv => .of_slotEvent (execSlotPowerGood · t mv) (fun _ _ => ⟨rfl, rfl⟩) fun m _ d ⟨hm, hgood⟩ => ⟨hm, if_pos hgood⟩
  case timeout =>
    exact fun t => .of_slotEvent (execAttemptTimeout · t) (fun _ _ => ⟨rfl, rfl⟩) fun m _ d ⟨hm, hlate⟩ => ⟨hm, if_pos hlate⟩
  case fast =>
    exact fun t ma => .of_slotEvent (execFastTrip · t ma) (fun _ _ => ⟨rfl, rfl⟩) fun m _ d ⟨hm, hover⟩ => ⟨hm, if_pos hover⟩
  case breaker =>
    exact fun t ma lasted => .of_slotEvent (execBreakerTrip · t ma lasted) (fun _ _ => ⟨rfl, rfl⟩)
      fun m _ d ⟨hm, hover⟩ => ⟨hm, if_pos hover⟩
  case retry =>
    exact fun t => .of_slotEvent (execRetryStart · t) (fun _ _ => ⟨rfl, rfl⟩) fun m _ d ⟨hm, hdue⟩ => ⟨hm, if_pos hdue⟩
  case countClear =>
    exact fun t => .of_slotEvent (execAttemptCountClear · t) (fun _ _ => ⟨rfl, rfl⟩) fun m _ d ⟨hm, hheld⟩ => ⟨hm, if_pos hheld⟩
  case restart =>
    exact fun t a => .of_slotEvent (execRampRestart · t) (fun _ _ => ⟨rfl, rfl⟩) fun m _ d ⟨hm, hleft, hdue⟩ => ⟨hm, by
      rw [hleft]
      exact if_pos hdue⟩
  case under =>
    refine fun t mv lasted => .of_slotEvent (execSlotUndervoltage · t mv lasted) (fun _ _ => ⟨rfl, rfl⟩)
      fun m _ d ⟨hm, hst, hlow, hlasted, fd, hfd, hpermits, hvalid⟩ => ⟨hm, ?_⟩
    rw [if_pos ⟨hst, hlow, hlasted⟩]
    refine if_pos (List.any_eq_true.mpr ⟨fd, List.mem_range.mpr hfd, ?_⟩)
    simp [hpermits, hvalid]
  case underLost =>
    refine fun t mv lasted => .of_slotEvent (execSlotUndervoltage · t mv lasted) (fun _ _ => ⟨rfl, rfl⟩)
      fun m _ d ⟨hm, hst, hlow, hlasted, hnone⟩ => ⟨hm, ?_⟩
    rw [if_pos ⟨hst, hlow, hlasted⟩]
    refine if_neg fun hany => ?_
    obtain ⟨fd, hfd, hgood⟩ := List.any_eq_true.mp hany
    obtain hno | hno := hnone fd (List.mem_range.mp hfd)
    all_goals simp [hno] at hgood
  case flagged =>
    refine fun t ma vout a b => .of_slotEvent (execAdcSample · t ma vout a b) (fun _ _ => ⟨rfl, rfl⟩)
      fun m _ d ⟨hm, ht, hmoving⟩ => ⟨hm, ?_⟩
    rw [if_neg (Nat.not_le.mpr ht)]
    exact ⟨by simp [hmoving], rfl, rfl⟩
  case sampled =>
    refine fun t ma vout a b => .of_slotEvent (execAdcSample · t ma vout a b) (fun _ _ => ⟨rfl, rfl⟩)
      fun m _ d ⟨hm, ht, hmoving, hauto, hrange⟩ => ⟨hm, ?_⟩
    rw [if_neg (Nat.not_le.mpr ht)]
    refine ⟨?_, ?_, ?_, ?_, ?_, rfl, rfl⟩
    all_goals simp [hmoving, hauto, hrange]

end Sys2Proof.Machine
end

section
/-! Every row goes on, but for a private debug instruction where R481 is silent. -/

namespace Sys2Proof.Machine

/-- A row other than a private debug instruction completes. -/
theorem exec_completes {i : Instr} {s : State} (hi : ∀ dt c, i ≠ .privateDebugInstruction dt c) : ∃ t, exec i s = .next t := by
  cases i with
  | privateDebugInstruction dt c => exact absurd rfl (hi dt c)
  | _ => exact ⟨_, rfl⟩

/-- Settles O33: a private debug instruction is refused where debug is enabled outside Run-Secure, and acts as BYPASS elsewhere. -/
theorem commandsGoOn : Obligations.CommandsGoOn := by
  refine ⟨fun i s => exec_completes, fun dt c s hm hdebug hsecure => ?refused, fun dt c s hoff => ?bypass⟩
  case refused => exact if_pos ⟨hm, hdebug, by rw [hsecure]; rfl⟩
  case bypass =>
    refine ⟨_, if_neg ?_⟩
    rintro ⟨hm, hdebug, hsecure⟩
    obtain hshelf | hnone | hrun := hoff
    · exact hm hshelf
    · exact Bool.false_ne_true (hnone.symm.trans hdebug)
    · rw [hrun] at hsecure
      nomatch hsecure

end Sys2Proof.Machine
end

section
/-! The registers DEV_IDENT and DEV_MODE of the Direct Register Page (R4, R23, Tables MODE-1 to MODE-3). -/

namespace Sys2Proof.Machine

/-- The first bytes of a number spell its low part, the rest what is above it. -/
theorem nb_add (m n v : Nat) : nb (m + n) v = nb m v ++ nb n (v / 256 ^ m) := by
  induction m generalizing v with
  | zero => simp [nb]
  | succ m ih => rw [Nat.succ_add, nb, nb, ih, List.cons_append, Nat.pow_succ', Nat.div_div_eq_div_mul]

/-- The bytes of a number are those of its low part. -/
theorem nb_mod (n v : Nat) : nb n (v % 256 ^ n) = nb n v := by
  induction n generalizing v with
  | zero => rfl
  | succ n ih =>
    have hfirst : BitVec.ofNat 8 (v % 256 ^ (n + 1)) = BitVec.ofNat 8 v := by
      apply BitVec.eq_of_toNat_eq
      rw [BitVec.toNat_ofNat, BitVec.toNat_ofNat, Nat.pow_succ']
      exact Nat.mod_mul_right_mod v 256 _
    rw [nb, nb, hfirst, Nat.pow_succ', Nat.mod_mul_right_div_self, ih]

theorem b2n_lt (b : Bool) : b2n b < 2 := by cases b <;> decide

theorem decide_b2n (b : Bool) : decide (b2n b = 1) = b := by cases b <;> rfl

theorem Mode.code_lt (m : Mode) : m.code < 16 := by cases m <;> decide

theorem Profile.code_lt (p : Profile) : p.code < 16 := by cases p <;> decide

section
variable {d : Dev} {m : Mode} {p : Profile} {v : View} {b : Mbx}

/-- A view reads DEV_IDENT in one access of 8 bytes. -/
theorem Dev.pageRead_ident (hm : m ≠ .shelf) (hview : d.viewMbx v = some b) : d.pageRead m p v 0x0000 8 = nb 8 d.ident := by
  have hread : d.pageRead m p v 0x0000 8 = nb 4 (d.ident % 256 ^ 4) ++ nb 4 (d.ident / 256 ^ 4) := by
    simp [Dev.pageRead, hview, hm, pageAccess, Dev.pageReg]
  rw [hread, nb_mod, nb_add 4 4]

/-- A view reads DEV_MODE in one access of 4 bytes. -/
theorem Dev.pageRead_devMode (hm : m ≠ .shelf) (hview : d.viewMbx v = some b) : d.pageRead m p v 0x0010 4 = nb 4 (devMode m p d) := by
  simp [Dev.pageRead, hview, hm, pageAccess, Dev.pageReg]

end

/-- The fields of DEV_MODE (Table MODE-2). -/
theorem devMode_fields (m : Mode) (p : Profile) (d : Dev) :
    bits (devMode m p d) 3 0 = m.code ∧ bits (devMode m p d) 7 4 = p.code ∧ (devMode m p d).testBit 8 = d.sec.approved
    ∧ (devMode m p d).testBit 9 = d.transition ∧ devMode m p d < 2 ^ 10 := by
  have hmode := m.code_lt
  have hprofile := p.code_lt
  have happroved := b2n_lt d.sec.approved
  have htransition := b2n_lt d.transition
  have hbit8 : devMode m p d / 2 ^ 8 % 2 = b2n d.sec.approved := by unfold devMode; omega
  have hbit9 : devMode m p d / 2 ^ 9 % 2 = b2n d.transition := by unfold devMode; omega
  refine ⟨?_, ?_, ?_, ?_, ?_⟩
  · unfold bits devMode; omega
  · unfold bits devMode; omega
  · rw [Nat.testBit_eq_decide_div_mod_eq, hbit8, decide_b2n]
  · rw [Nat.testBit_eq_decide_div_mod_eq, hbit9, decide_b2n]
  · unfold devMode; omega

/-- Settles O59: each register is read in one access, and its fields lie side by side. -/
theorem pageRegisters : Obligations.PageRegisters := by
  refine ⟨fun d m p v b hm hview => ⟨Dev.pageRead_ident hm hview, Dev.pageRead_devMode hm hview⟩, fun d hmajor hminor => ?ident,
    devMode_fields, rfl, fun p hp => ?profile⟩
  case ident =>
    simp only [Dev.ident, bits]
    omega
  case profile =>
    cases p with
    | none => exact absurd rfl hp
    | _ => rfl

end Sys2Proof.Machine
end
